-- ==== Sys2Proof/Word.lean ====
section
/-! DEFINITION. The word types of the chiplet and their plainest arithmetic. -/
namespace Sys2Proof

abbrev Byte := BitVec 8
/-- A 32-bit word: scalar register, vector lane, scratchpad word. -/
abbrev Word := BitVec 32
abbrev DWord := BitVec 64
/-- The sixteen 32-bit lanes of a vector register, token or scratchpad row, lane 0 first (R62). -/
abbrev Lanes := List Word
/-- Sparse data by number: keys strictly rising, no entry equal to what an unlisted key reads as. -/
abbrev SMap (α : Type) := List (Nat × α)

end Sys2Proof
end

