-- ==== Sys2Proof/Syntax.lean ====
section
/-! DEFINITION. The commands of the block: one constructor per row of the opcode table, with the operands the spec gives the event. -/
namespace Sys2Proof

/-! ## Leaf instruction fields (R68) -/

/-- RR format. In the vector majors MK is [6:4]; in every other RR major FN fills [6:0] and `msk` must be 0. -/
structure RR where
  g : BitVec 4
  d : BitVec 5
  a : BitVec 5
  b : BitVec 5
  msk : BitVec 3
  deriving DecidableEq, Repr

/-- RI format. -/
structure RI where
  g : BitVec 4
  d : BitVec 5
  a : BitVec 5
  imm : BitVec 12
  deriving DecidableEq, Repr

/-- RI format of the immediate shifts: IMM[9:5] is reserved, IMM[4:0] the amount; IMM[11:10] is fixed by the row. -/
structure SHf where
  g : BitVec 4
  d : BitVec 5
  a : BitVec 5
  rsv : BitVec 5
  amt : BitVec 5
  deriving DecidableEq, Repr

/-- LI format; H is fixed by the row. -/
structure LIf where
  g : BitVec 4
  d : BitVec 5
  imm : BitVec 16
  deriving DecidableEq, Repr

/-- RI format of CMPI: D[4:3] is fixed by the row, D[2:0] names the predicate. -/
structure CMPf where
  g : BitVec 4
  pd : BitVec 3
  a : BitVec 5
  imm : BitVec 12
  deriving DecidableEq, Repr

/-- BR format. -/
structure BRf where
  g : BitVec 4
  d : BitVec 5
  a : BitVec 5
  target : BitVec 12
  deriving DecidableEq, Repr

/-- LP format. -/
structure LPf where
  g : BitVec 4
  k : BitVec 2
  rsv : BitVec 3
  a : BitVec 5
  fin : BitVec 12
  deriving DecidableEq, Repr

/-- LPI format. -/
structure LPIf where
  g : BitVec 4
  k : BitVec 2
  count : BitVec 8
  fin : BitVec 12
  deriving DecidableEq, Repr

/-- AG format; S and V are fixed by the row. -/
structure AGf where
  g : BitVec 4
  d : BitVec 5
  ag : BitVec 3
  msk : BitVec 3
  rsv : BitVec 9
  deriving DecidableEq, Repr

/-- AGS format. -/
structure AGSf where
  g : BitVec 4
  ag : BitVec 3
  field : BitVec 2
  a : BitVec 5
  add : BitVec 1
  rsv : BitVec 11
  deriving DecidableEq, Repr

/-- S format. -/
structure Sf where
  g : BitVec 4
  d : BitVec 5
  x : BitVec 5
  y : BitVec 5
  p : BitVec 4
  deriving DecidableEq, Repr

/-- W format. -/
structure Wf where
  g : BitVec 4
  d : BitVec 5
  a : BitVec 5
  b : BitVec 5
  pd : BitVec 3
  cn : BitVec 4
  deriving DecidableEq, Repr

/-- What the check stage finds in a line's symbols (R393): nothing, an error in one symbol, an uncorrectable one, or an error of
three or more symbols that it takes for a clean or a corrected line with these data. -/
inductive LineCheck where
  | clean
  | oneSymbol
  | uncorrectable
  | wrong (corrected : Bool) (data : BitVec 512)
  deriving DecidableEq, Repr

/-! ## Packets -/

/-- A request as it stands at its target (R354, R446). The operation is the command's row.
`via` is the edge port it came in through, if any; `rsv` says that a reserved header field is nonzero; `check` is what
the check stage finds in the heartwood lines it reads, in order, clean where the list ends (R393, R423); `hdr` is the
header flit (R354), or the header slot of a request that came in from a link (R473). -/
structure Req where
  origin : BitVec 17
  src : Nat
  dst : Nat
  tag : BitVec 15
  addr : BitVec 64
  acctEn : Bool
  acctGc : BitVec 12
  len : Nat
  vc : Nat
  rsv : Bool
  via : Option Nat
  data : List Word
  check : List LineCheck := []
  hdr : BitVec 128 := 0
  deriving DecidableEq, Repr

/-- A response as it arrives at endpoint `ep` (R354, R446); `via` is the edge port it came in through, if any.
`len` is the packet's data flit count and `rsv` says that VC or a reserved field breaks R356; `src` is the endpoint it comes from, and
`hdr` its header flit. -/
structure Resp where
  ep : Nat
  via : Option Nat
  tag : BitVec 15
  code : BitVec 8
  len : Nat
  rsv : Bool
  data : List Word
  src : Nat := 0
  hdr : BitVec 128 := 0
  deriving DecidableEq, Repr

/-- A Sapline packet: header slot and data slots (R444, R446). -/
structure SPkt where
  hdr : BitVec 128
  data : List (BitVec 128)
  deriving DecidableEq, Repr

/-- The fifteen slots of a flit: control slot and slots 1 to 14 (R442, R443). -/
structure Flit where
  ctl : BitVec 128
  slots : List (BitVec 128)
  deriving DecidableEq, Repr

/-- An increment on the sync network: counter, amount, and the (endpoint, tag) pairs it acknowledges (R374, R388). -/
structure IncMsg where
  gc : Nat
  amount : Nat
  acks : List (Nat × BitVec 15)
  deriving DecidableEq, Repr

/-- A canopy packet (R309): header fields, payload beats, and the leaves at which it arrives damaged (R316). -/
structure Canopy where
  crc : Word
  seq : Word
  image : BitVec 16
  offset : BitVec 16
  y1 : BitVec 6
  y0 : BitVec 6
  x1 : BitVec 6
  x0 : BitVec 6
  all : Bool
  cnt : BitVec 4
  cntEn : Bool
  lenM1 : BitVec 3
  rsv : Bool
  payload : List (BitVec 256)
  hurt : List Nat
  deriving DecidableEq, Repr

/-- A collective message (R499 to R501): header and sub-header fields, data bytes, and the bases of a GRANT. -/
structure CollMsg where
  src : BitVec 17
  group : BitVec 8
  seq : BitVec 24
  rank : BitVec 12
  landing : BitVec 47
  tag : BitVec 15
  piece : BitVec 24
  bytes : BitVec 8
  last : Bool
  reason : BitVec 8
  crc : Word
  rsv : Bool
  data : List Byte
  dstBase : BitVec 47
  recvBase : BitVec 47
  deriving DecidableEq, Repr

/-! ## Physical observations -/

/-- A failed unit as a test or check finds it: KIND and POSITION of R579, TEST and DATA of R576. -/
structure Site where
  kind : BitVec 8
  position : Word
  test : BitVec 8
  data : Word
  deriving DecidableEq, Repr

/-- One 100 µs sample (R604): F32 readings of the crown, heartwood and bough-power sensors and the rails
(volts then amperes, in the order of rail_telemetry). -/
structure Readings where
  crown : List Word
  hw : List Word
  bough : List Word
  rails : List Word
  deriving DecidableEq, Repr

/-! ## Management messages -/

/-- The transport of a Conas message (R539). -/
inductive Transport where
  | i3c
  | sapline
  deriving DecidableEq, Repr

/-- The Conas header but for CODE, which the row fixes (R532), and where the message came from: its requester's address and
the tag that the response returns (R446, R526). -/
structure ConasHdr where
  transport : Transport
  address : BitVec 17
  tag : BitVec 15
  version : BitVec 3
  resp : Bool
  rsv : Bool
  session : BitVec 4
  status : BitVec 8
  seq : BitVec 16
  length : Nat
  deriving DecidableEq, Repr

/-- A Conas request with a body of bytes. -/
structure Conas where
  h : ConasHdr
  body : List Byte
  deriving DecidableEq, Repr

/-- OD_READ or OD_WRITE: the OD address of R533 (`zero` is its [31:24]), then the rest of the body. -/
structure OdReq where
  h : ConasHdr
  index : BitVec 16
  sub : BitVec 8
  zero : BitVec 8
  offset : Word
  data : List Byte
  deriving DecidableEq, Repr

/-- An OD_WRITE of an object that its row names: OFFSET and the bytes written. -/
structure CmdReq where
  h : ConasHdr
  offset : Word
  data : List Byte
  deriving DecidableEq, Repr

/-- An MCTP control command's requester, instance and tag (R524, R526). -/
structure MctpCtl where
  eid : Byte
  tag : BitVec 3
  deriving DecidableEq, Repr

/-- One MCTP transmission unit (R524): source and destination endpoint, SOM, EOM, packet sequence, tag and tag owner,
whether its PEC and framing hold, and its payload. -/
structure MctpUnit where
  srcEid : Byte
  dstEid : Byte
  som : Bool
  eom : Bool
  pktSeq : BitVec 2
  tag : BitVec 3
  owner : Bool
  pecOk : Bool
  payload : List Byte
  deriving DecidableEq, Repr

/-- Operations of the test access port (R652, R653). -/
inductive TapOp where
  | trst
  | bypass (bits : List Bool)
  | idcode
  | samplePreload (preload : List Bool)
  | extest
  | ieee1838 (tier : Nat)
  | startTestAccess
  | mramRead (wrapped : Bool)
  | unknown
  deriving DecidableEq, Repr

/-! ## The commands -/

/-- One constructor per row of spec/opcode_table.json, in its order. `l` is a logical leaf index, `b` a logical bough
index, `c` a physical column, `g` a timed group or flow region. -/
inductive Instr where
  | porstNAssert
  | porstNRelease (slotId : BitVec 6) (profSel : BitVec 2)
  | romBoot
  | fwVerify
  | odAssembly
  | profileApply
  | calibration (found : List Site)
  | memoryInit (retire : List Site) (found : List Site)
  | startTest (found : List Site)
  | gridBuild
  | crownRstN
  | crownRstNRelease
  | crownResetPhase
  | supplyFault (rail : Nat)
  | refclkLoss
  | thermalTrip (sensor : Nat) (reading : Word)
  | sensorSample (r : Readings)
  | governorEvaluation
  | stepPoint (barrier : Bool)
  | stepDeadline
  | pllRelockDone
  | vcrSlewDone
  | portTrainingComplete (port : Nat) (partner : Bool) (modules : BitVec 8) (lanes : List Byte)
  | linkTrainingRetry (port : Nat)
  | linkParam (port : Nat) (p : SPkt)
  | flitReceive (port : Nat) (mod : Nat) (retries : Nat) (flit : Flit)
  | packetForward
  | moduleFailure (port : Nat) (mod : Nat)
  | read256 (r : Req)
  | write256 (r : Req)
  | read4 (r : Req)
  | read64 (r : Req)
  | write4 (r : Req)
  | write64 (r : Req)
  | cread (r : Req)
  | cinc (r : Req)
  | dpostRequest (r : Req)
  | ack (r : Resp)
  | data (r : Resp)
  | nak (r : Resp)
  | responseTimeout (ep : Nat) (tag : Nat)
  | remoteIncrement (m : IncMsg)
  | barrierCombine (node : Nat) (gc : Nat)
  | gfincLeaves (l : Nat)
  | watch (l : Nat)
  | satisfy (l : Nat)
  | waitTimeout (l : Nat)
  | cancel (l : Nat)
  | value (l : Nat)
  | leafStart (l : Nat)
  | reRun (l : Nat)
  | rejoin (l : Nat)
  | gatherDrain (l : Nat) (row : Nat)
  | depositWrite (l : Nat)
  | canopyLandingWrite (l : Nat)
  | scoreboardRelease (l : Nat)
  | cacheFill (l : Nat) (check : LineCheck)
  | engineOpStart (b : Nat)
  | engineOpComplete (b : Nat)
  | engineRefusedAtHead (b : Nat)
  | dmaDescriptorAccept (c : Nat)
  | lineLaunch (c : Nat)
  | lineComplete (c : Nat) (check : LineCheck)
  | dmaComplete (c : Nat)
  | dmaRefusedAtHead (c : Nat)
  | refresh (c : Nat)
  | patrolScrub (c : Nat) (check : LineCheck)
  | correctionWriteBack (c : Nat)
  | retirementCopy (c : Nat)
  | groupCycleAdvance (l : Nat)
  | slotComplete (l : Nat)
  | readyReport (l : Nat)
  | go (g : Nat)
  | goArrival (g : Nat)
  | spad (p : Canopy)
  | istore (p : Canopy)
  | switchNext (p : Canopy)
  | leafRecord (p : Canopy)
  | groupPkt (p : Canopy)
  | endPkt (p : Canopy)
  | canopyRepairPacket (l : Nat) (kind : BitVec 4) (p : Canopy)
  | repairRound
  | flowTransfer (l : Nat)
  | flowCreditReturn (l : Nat) (sink : Nat)
  | ringMarker (l : Nat)
  | nextSlotCurrent (l : Nat)
  | refill (l : Nat) (q : Nat)
  | join (l : Nat)
  | leave (l : Nat)
  | quiet (l : Nat)
  | quietAtHub (l : Nat)
  | clearAtHub (l : Nat)
  | confirmationWindowEnd (g : Nat)
  | spill (l : Nat)
  | answer (g : Nat)
  | abort (l : Nat)
  | unitFailure (site : Site)
  | crownDown (core : Nat)
  | postTake
  | grant (m : CollMsg)
  | contrib (m : CollMsg)
  | result (m : CollMsg)
  | small (m : CollMsg)
  | confirm (m : CollMsg)
  | settle (m : CollMsg)
  | poison (m : CollMsg)
  | collTimeout (slot : Nat)
  | settleLost (slot : Nat)
  | dynamicAddressAssignment (addr : BitVec 7)
  | setEndpointId (m : MctpCtl) (eid : Byte)
  | getEndpointId (m : MctpCtl)
  | getMctpVersionSupport (m : MctpCtl)
  | getMessageTypeSupport (m : MctpCtl)
  | getVendorDefinedMessageSupport (m : MctpCtl)
  | sessionOpen (q : Conas)
  | sessionClose (q : Conas)
  | odRead (q : OdReq)
  | odWrite (q : OdReq)
  | groveId (q : CmdReq)
  | alertAckSeq (q : CmdReq)
  | govPowerBudget (q : CmdReq)
  | govStepsPermitted (q : CmdReq)
  | eventRead (q : Conas)
  | eventsSuppressed
  | trustGetIdentity (q : Conas)
  | quoteBuild (q : Conas)
  | quoteRead (q : Conas)
  | trustOwnerProvision (q : Conas)
  | debugUnlockChallenge (q : Conas)
  | debugUnlockTransition (q : Conas)
  | nvCommit (q : CmdReq)
  | factoryRestore (q : CmdReq)
  | profileSelect (q : CmdReq)
  | profileStore (q : CmdReq)
  | profileClear (q : CmdReq)
  | crownReset (q : CmdReq)
  | portReset (q : CmdReq)
  | portsOpen (q : CmdReq)
  | runBegin (q : CmdReq)
  | groupInstall (q : CmdReq)
  | groupRemove (q : CmdReq)
  | graftLoad (q : CmdReq)
  | defectClear (q : CmdReq)
  | fwInstall (q : CmdReq)
  | cmdDone
  | nop (l : Nat) (f : RR)
  | halt (l : Nat) (f : RR)
  | stepBegin (l : Nat) (f : RR)
  | stepEnd (l : Nat) (f : RR)
  | tsw (l : Nat) (f : RR)
  | mfsr (l : Nat) (f : RR)
  | mtsr (l : Nat) (f : RR)
  | add (l : Nat) (f : RR)
  | sub (l : Nat) (f : RR)
  | andR (l : Nat) (f : RR)
  | orR (l : Nat) (f : RR)
  | xorR (l : Nat) (f : RR)
  | sll (l : Nat) (f : RR)
  | srl (l : Nat) (f : RR)
  | sra (l : Nat) (f : RR)
  | mul (l : Nat) (f : RR)
  | mulh (l : Nat) (f : RR)
  | mulhu (l : Nat) (f : RR)
  | minR (l : Nat) (f : RR)
  | maxR (l : Nat) (f : RR)
  | minu (l : Nat) (f : RR)
  | maxu (l : Nat) (f : RR)
  | clz (l : Nat) (f : RR)
  | popc (l : Nat) (f : RR)
  | movp (l : Nat) (f : RR)
  | movtp (l : Nat) (f : RR)
  | addi (l : Nat) (f : RI)
  | andi (l : Nat) (f : RI)
  | ori (l : Nat) (f : RI)
  | xori (l : Nat) (f : RI)
  | slli (l : Nat) (f : SHf)
  | srli (l : Nat) (f : SHf)
  | srai (l : Nat) (f : SHf)
  | li (l : Nat) (f : LIf)
  | lih (l : Nat) (f : LIf)
  | eq (l : Nat) (f : RR)
  | ne (l : Nat) (f : RR)
  | lt (l : Nat) (f : RR)
  | ltu (l : Nat) (f : RR)
  | ge (l : Nat) (f : RR)
  | geu (l : Nat) (f : RR)
  | cmpiEq (l : Nat) (f : CMPf)
  | cmpiNe (l : Nat) (f : CMPf)
  | cmpiLt (l : Nat) (f : CMPf)
  | cmpiGe (l : Nat) (f : CMPf)
  | pand (l : Nat) (f : RR)
  | por (l : Nat) (f : RR)
  | pxor (l : Nat) (f : RR)
  | pandn (l : Nat) (f : RR)
  | pnot (l : Nat) (f : RR)
  | pset (l : Nat) (f : RR)
  | pclr (l : Nat) (f : RR)
  | br (l : Nat) (f : BRf)
  | loopR (l : Nat) (f : LPf)
  | loopi (l : Nat) (f : LPIf)
  | agset (l : Nat) (f : AGSf)
  | ldw (l : Nat) (f : RI)
  | stw (l : Nat) (f : RI)
  | lda (l : Nat) (f : AGf)
  | sta (l : Nat) (f : AGf)
  | vlda (l : Nat) (f : AGf)
  | vsta (l : Nat) (f : AGf)
  | vld (l : Nat) (f : RI)
  | vst (l : Nat) (f : RI)
  | vldx (l : Nat) (f : RR)
  | vstx (l : Nat) (f : RR)
  | vadd (l : Nat) (f : RR)
  | vsub (l : Nat) (f : RR)
  | vmul (l : Nat) (f : RR)
  | vmulh (l : Nat) (f : RR)
  | vand (l : Nat) (f : RR)
  | vor (l : Nat) (f : RR)
  | vxor (l : Nat) (f : RR)
  | vsll (l : Nat) (f : RR)
  | vsrl (l : Nat) (f : RR)
  | vsra (l : Nat) (f : RR)
  | vmin (l : Nat) (f : RR)
  | vmax (l : Nat) (f : RR)
  | vminu (l : Nat) (f : RR)
  | vmaxu (l : Nat) (f : RR)
  | vabs (l : Nat) (f : RR)
  | vneg (l : Nat) (f : RR)
  | vfadd (l : Nat) (f : RR)
  | vfsub (l : Nat) (f : RR)
  | vfmul (l : Nat) (f : RR)
  | vfma (l : Nat) (f : RR)
  | vfms (l : Nat) (f : RR)
  | vfnma (l : Nat) (f : RR)
  | vfmin (l : Nat) (f : RR)
  | vfmax (l : Nat) (f : RR)
  | vfabs (l : Nat) (f : RR)
  | vfneg (l : Nat) (f : RR)
  | vfdiv (l : Nat) (f : RR)
  | vfsqrt (l : Nat) (f : RR)
  | veq (l : Nat) (f : RR)
  | vne (l : Nat) (f : RR)
  | vlt (l : Nat) (f : RR)
  | vltu (l : Nat) (f : RR)
  | vge (l : Nat) (f : RR)
  | vgeu (l : Nat) (f : RR)
  | vfeq (l : Nat) (f : RR)
  | vfne (l : Nat) (f : RR)
  | vflt (l : Nat) (f : RR)
  | vfle (l : Nat) (f : RR)
  | vfun (l : Nat) (f : RR)
  | vsel (l : Nat) (f : RR)
  | vbcast (l : Nat) (f : RR)
  | vext (l : Nat) (f : RR)
  | vins (l : Nat) (f : RR)
  | vperm (l : Nat) (f : RR)
  | vrsum (l : Nat) (f : RR)
  | vrmax (l : Nat) (f : RR)
  | vfrsum (l : Nat) (f : RR)
  | vfrmax (l : Nat) (f : RR)
  | vfrmin (l : Nat) (f : RR)
  | mtm (l : Nat) (f : RR)
  | mfm (l : Nat) (f : RR)
  | mpopc (l : Nat) (f : RR)
  | vf2i (l : Nat) (f : RR)
  | vi2f (l : Nat) (f : RR)
  | vf2u (l : Nat) (f : RR)
  | vu2f (l : Nat) (f : RR)
  | vf2h (l : Nat) (f : RR)
  | vh2f (l : Nat) (f : RR)
  | vf2bf (l : Nat) (f : RR)
  | vbf2f (l : Nat) (f : RR)
  | vf2e4 (l : Nat) (f : RR)
  | ve42f (l : Nat) (f : RR)
  | vf2e5 (l : Nat) (f : RR)
  | ve52f (l : Nat) (f : RR)
  | vrcp (l : Nat) (f : RR)
  | vrsq (l : Nat) (f : RR)
  | vexp2 (l : Nat) (f : RR)
  | vlog2 (l : Nat) (f : RR)
  | vtanh (l : Nat) (f : RR)
  | vsigm (l : Nat) (f : RR)
  | steer (l : Nat) (f : Sf)
  | merge (l : Nat) (f : Sf)
  | filter (l : Nat) (f : Sf)
  | ssteer (l : Nat) (f : Sf)
  | smerge (l : Nat) (f : Sf)
  | sfilter (l : Nat) (f : Sf)
  | sqpop (l : Nat) (f : RR)
  | sqtag (l : Nat) (f : RR)
  | sqpush (l : Nat) (f : RR)
  | qtestv (l : Nat) (f : RR)
  | qtests (l : Nat) (f : RR)
  | qspacev (l : Nat) (f : RR)
  | qspaces (l : Nat) (f : RR)
  | lcinc (l : Nat) (f : RR)
  | lcrd (l : Nat) (f : RR)
  | ginc (l : Nat) (f : RR)
  | gfinc (l : Nat) (f : RR)
  | grd (l : Nat) (f : RR)
  | bara (l : Nat) (f : RR)
  | lcwait (l : Nat) (f : Wf)
  | gwait (l : Nat) (f : Wf)
  | rldw (l : Nat) (f : RR)
  | rstw (l : Nat) (f : RR)
  | rstv (l : Nat) (f : RR)
  | rfence (l : Nat) (f : RR)
  | epost (l : Nat) (f : RR)
  | dpost (l : Nat) (f : RR)
  | dposth (l : Nat) (f : RR)
  | supplyRestored
  | refclkRestored
  | moduleRetrained (port : Nat) (mod : Nat) (ok : Bool) (lanes : Byte)
  | testAccessPort (op : TapOp)
  | mctpPacket (u : MctpUnit)
  deriving DecidableEq, Repr

end Sys2Proof
end

