-- ==== Sys2Proof/Decode.lean ====
section
/-! DEFINITION. Words and commands. The opcode table gives no row any bits, so no table word spells a command.
The leaf's instruction words follow R68, and `legalWord` says which of them are defined (R70 to R74, R93, R94). -/
namespace Sys2Proof

/-- The command that a word of the opcode table's bits spells: the table gives no row bits, so none. -/
def decodeTableWord (_nbits _w : Nat) : Option Instr := none

/-! ## Instruction words (R68), with the major opcode and the function written by each row's meaning -/

def wordHead (opc : Nat) (g : BitVec 4) : Nat := opc * 2 ^ 26 + g.toNat * 2 ^ 22

/-- RR format with FN in [6:0]. -/
def wRR (opc fn : Nat) (f : RR) : Nat :=
  wordHead opc f.g + f.d.toNat * 2 ^ 17 + f.a.toNat * 2 ^ 12 + f.b.toNat * 2 ^ 7 + fn

/-- RR format of a vector major: MK in [6:4], FN in [3:0]. -/
def wVV (opc fn : Nat) (f : RR) : Nat := wRR opc (f.msk.toNat * 16 + fn) f

def wRI (opc : Nat) (f : RI) : Nat :=
  wordHead opc f.g + f.d.toNat * 2 ^ 17 + f.a.toNat * 2 ^ 12 + f.imm.toNat

/-- Immediate shifts: IMM[11:10] selects the kind. -/
def wSH (kind : Nat) (f : SHf) : Nat :=
  wordHead 0x06 f.g + f.d.toNat * 2 ^ 17 + f.a.toNat * 2 ^ 12 + kind * 2 ^ 10 + f.rsv.toNat * 2 ^ 5 + f.amt.toNat

def wLI (h : Nat) (f : LIf) : Nat := wordHead 0x07 f.g + f.d.toNat * 2 ^ 17 + h * 2 ^ 16 + f.imm.toNat

/-- CMPI: D[4:3] selects the relation. -/
def wCMP (rel : Nat) (f : CMPf) : Nat :=
  wordHead 0x09 f.g + (rel * 8 + f.pd.toNat) * 2 ^ 17 + f.a.toNat * 2 ^ 12 + f.imm.toNat

def wBR (f : BRf) : Nat := wordHead 0x0B f.g + f.d.toNat * 2 ^ 17 + f.a.toNat * 2 ^ 12 + f.target.toNat

def wLP (f : LPf) : Nat :=
  wordHead 0x0C f.g + f.k.toNat * 2 ^ 20 + f.rsv.toNat * 2 ^ 17 + f.a.toNat * 2 ^ 12 + f.fin.toNat

def wLPI (f : LPIf) : Nat := wordHead 0x0D f.g + f.k.toNat * 2 ^ 20 + f.count.toNat * 2 ^ 12 + f.fin.toNat

/-- AG format with its V and S bits. -/
def wAG (v st : Nat) (f : AGf) : Nat :=
  wordHead 0x12 f.g + f.d.toNat * 2 ^ 17 + f.ag.toNat * 2 ^ 14 + st * 2 ^ 13 + f.msk.toNat * 2 ^ 10 + v * 2 ^ 9
    + f.rsv.toNat

def wAGS (f : AGSf) : Nat :=
  wordHead 0x0E f.g + f.ag.toNat * 2 ^ 19 + f.field.toNat * 2 ^ 17 + f.a.toNat * 2 ^ 12 + f.add.toNat * 2 ^ 11
    + f.rsv.toNat

def wS (fn : Nat) (f : Sf) : Nat :=
  wordHead 0x20 f.g + f.d.toNat * 2 ^ 17 + f.x.toNat * 2 ^ 12 + f.y.toNat * 2 ^ 7 + f.p.toNat * 2 ^ 3 + fn

def wW (opc : Nat) (f : Wf) : Nat :=
  wordHead opc f.g + f.d.toNat * 2 ^ 17 + f.a.toNat * 2 ^ 12 + f.b.toNat * 2 ^ 7 + f.pd.toNat * 2 ^ 4 + f.cn.toNat

/-! ## Legality -/

/-- The fields of a fetched word. -/
def wf (w lo n : Nat) : Nat := w / 2 ^ lo % 2 ^ n

/-- A vector source: v0–v15 or vq0–vq3 (R70). -/
def vSrc (n : Nat) : Bool := n < 20

/-- A vector destination: v0–v15, or a port, which needs MK = 0 (R70, R72). -/
def vDst (n mk : Nat) : Bool := n < 16 || ((n = 24 || n = 25) && mk = 0)

/-- Scalar ALU, system and predicate majors 0x00 to 0x0E. -/
def legalScalar (w : Nat) : Bool :=
  let opc := wf w 26 6
  let d := wf w 17 5
  let a := wf w 12 5
  let b := wf w 7 5
  let fn := wf w 0 7
  match opc with
  | 0x00 => fn < 7 && (fn ≠ 4 || b < 4)
  | 0x01 => fn < 19
  | 0x06 => wf w 10 2 < 3 && wf w 5 5 = 0
  | 0x08 => fn < 6 && d < 8
  | 0x0A => fn < 7 && d < 8 && (fn > 4 || a < 8) && (fn > 3 || b < 8)
  | 0x0C => wf w 17 3 = 0
  | 0x0E => wf w 0 11 = 0
  | _ => opc < 0x0F

/-- Scratchpad majors 0x10 to 0x15. -/
def legalMem (w : Nat) : Bool :=
  let d := wf w 17 5
  match wf w 26 6 with
  | 0x10 => true
  | 0x11 => true
  | 0x12 => wf w 0 9 = 0 && (wf w 9 1 = 0 || (if wf w 13 1 = 1 then vSrc d else vDst d (wf w 10 3)))
  | 0x13 => vDst d 0
  | 0x14 => vSrc d
  | _ => vSrc (wf w 7 5) && ((wf w 0 4 = 0 && vDst d (wf w 4 3)) || (wf w 0 4 = 1 && vSrc d))

/-- Vector majors 0x18 to 0x1D. -/
def legalVec (w : Nat) : Bool :=
  let d := wf w 17 5
  let a := wf w 12 5
  let b := wf w 7 5
  let mk := wf w 4 3
  let fn := wf w 0 4
  match wf w 26 6 with
  | 0x18 => vDst d mk && vSrc a && (fn > 13 || vSrc b)
  | 0x19 => fn < 12 && vSrc a && (fn = 8 || fn = 9 || fn = 11 || vSrc b)
      && (if 3 ≤ fn && fn ≤ 5 then d < 16 else vDst d mk)
  | 0x1A => (fn < 6 || (8 ≤ fn && fn < 13)) && d < 4 && vSrc a && vSrc b
  | 0x1B =>
    match fn with
    | 0 => vDst d mk && vSrc a && vSrc b
    | 1 => vDst d mk
    | 2 => vSrc a && b < 16
    | 3 => d < 16 && b < 16
    | 4 => vDst d mk && vSrc a && vSrc b
    | 10 => d < 4
    | 11 => a < 4
    | 12 => a < 4
    | _ => fn < 10 && vSrc a
  | 0x1C => fn < 12 && vDst d mk && vSrc a
  | _ => fn < 6 && vDst d mk && vSrc a

/-- Steering, queue, sync, wait, remote and post majors. -/
def legalNet (w : Nat) : Bool :=
  let d := wf w 17 5
  let a := wf w 12 5
  let b := wf w 7 5
  let fn := wf w 0 7
  match wf w 26 6 with
  | 0x20 =>
    let sf := wf w 0 3
    wf w 3 4 < 12 &&
    (match sf with
    | 0 => vSrc a && vDst d 0 && vDst b 0
    | 1 => vSrc a && vSrc b && vDst d 0
    | 2 => vSrc a && vDst d 0
    | 4 => a < 4 && (d = 4 || d = 5) && (b = 4 || b = 5)
    | 5 => a < 4 && b < 4 && (d = 4 || d = 5)
    | 6 => a < 4 && (d = 4 || d = 5)
    | _ => false)
  | 0x21 =>
    match fn with
    | 0 => b < 4
    | 1 => b < 4
    | 2 => d < 2
    | 3 => b < 4 && d < 8
    | 4 => b < 4 && d < 8
    | 5 => b < 2 && d < 8
    | 6 => b < 2 && d < 8
    | _ => false
  | 0x22 =>
    match fn with
    | 0 => b < 16
    | 1 => b < 16 && d % 2 = 0
    | 4 => a % 2 = 0 && d % 2 = 0
    | _ => fn < 6 && a % 2 = 0
  | 0x23 => d % 2 = 0 && a % 2 = 0
  | 0x24 => d % 2 = 0 && a % 2 = 0
  | 0x25 => fn < 4 && (fn = 3 || a % 2 = 0) && (fn ≠ 2 || vSrc b)
  | _ => fn < 3 && vSrc a

/-- The word is a defined instruction; every other one faults ILLEGAL_INSTR. -/
def legalWord (w : Nat) : Bool :=
  let opc := wf w 26 6
  if opc < 0x0F then legalScalar w
  else if 0x10 ≤ opc && opc ≤ 0x15 then legalMem w
  else if 0x18 ≤ opc && opc ≤ 0x1D then legalVec w
  else if 0x20 ≤ opc && opc ≤ 0x26 then legalNet w
  else false

end Sys2Proof
end

