-- ==== Sys2Proof/Config.lean ====
section
/-! DEFINITION. What the spec leaves open and what lies outside it: free values and uninterpreted functions.
None has a body, so no statement can rest on a particular value (log 7, 8, 9, 10). -/
namespace Sys2Proof.Config

/-- The approximate functions of R82 whose value is not exactly given. -/
inductive Vxf where
  | exp2
  | log2
  | tanh
  | sigm
  deriving DecidableEq, Repr

/-- VEXP2, VLOG2, VTANH and VSIGM of an ordinary input: deterministic, which encoding inside the bound is left open (R82; log 9). -/
opaque vxf : Vxf → Word → Word
/-- VRCP of an ordinary input: which encoding within 1 ulp of 1/x is returned (R82; log 9). -/
opaque rcpStep : Word → Fin 3
/-- VRSQ of an ordinary input: which encoding within 2 ulp of 1/√x is returned (R82; log 9). -/
opaque rsqStep : Word → Fin 5
/-- The quiet NaN that an approximate function returns for a NaN or a negative input (R82 does not give its bits; log 9). -/
opaque vxfNan : Word → Word
/-- A free value for the `n`-th draw (log 9). -/
opaque freeWord : Nat → Word
/-- A fresh 32-byte challenge (R654) for the `n`-th draw (log 9). -/
opaque challenge : Nat → List Byte
/-- RSASSA-PSS verification: modulus, message, signature (R637; log 8). -/
opaque rsaVerify : List Byte → List Byte → List Byte → Bool
/-- SLH-DSA-SHA2-128s verification: public key, message, signature (R637; log 8). -/
opaque slhVerify : List Byte → List Byte → List Byte → Bool
/-- Device RSASSA-PSS signature of a message (384 bytes; R649; log 8). -/
opaque rsaSign : List Byte → List Byte
/-- Device SLH-DSA-SHA2-128f signature of a message (17,088 bytes; R649; log 8). -/
opaque slhSign : List Byte → List Byte
/-- The vendor's key hashes in mask ROM: SHA-384 of the RSA modulus and of the SLH-DSA key (R631; log 8). -/
opaque vendorHashes : List Byte × List Byte

/-- The part's device keys: RSA-3072 modulus and SLH-DSA key, and the vendor's endorsement signatures (R634, R649; log 3). -/
opaque deviceRsa : List Byte
opaque deviceSlh : List Byte
opaque endorseRsa : List Byte
opaque endorseSlh : List Byte
/-- The bytes in which MRAM stores object values, image area or profile (R548, R550, R650 do not lay them out; log 9). -/
opaque storedBytes : List (Nat × List Byte) → List Byte

end Sys2Proof.Config
end

