-- ==== Sys2Proof/Machine/State.lean ====
section
/-! DEFINITION. The state of the chiplet as plain data, and its state right after reset: PORST_N low (R570, R585).
Field defaults are the reset values; the rule that gives each stands beside it, or the log entry that chose it. -/
namespace Sys2Proof.Machine

/-! ## Package, time, part -/

/-- ready_phase (R553), in the order of its encodings 0x00 to 0x0A. -/
inductive Phase where
  | romBoot | fwVerify | odAssembly | profileApply | calibration | memoryInit | startTest | gridBuild
  | compute | crownReset | crownDown
  deriving DecidableEq, Repr

/-- Pin levels (R676): `true` is high, or released for an open-drain output. `porst` is the chiplet's own reset: the
level of `porstPin`, held low while a rail or REFCLK is out (R673). -/
structure Pins where
  porst : Bool := false
  porstPin : Bool := false
  crownRst : Bool := true
  ready : Bool := false
  alert : Bool := true
  therm : Bool := true
  railsOk : Bool := true
  refOk : Bool := true
  deriving DecidableEq, Repr

/-- CCLK cycles since the release of PORST_N, and uptime in microseconds with its fraction (1/4,504,500 µs; log 1). -/
structure Clock where
  cclk : Nat := 0
  us : Nat := 0
  frac : Nat := 0
  deriving DecidableEq, Repr

/-- Test access port (R652): instruction (0 BYPASS, 1 IDCODE, 2 SAMPLE/PRELOAD, 3 EXTEST, 4 IEEE 1838,
5 start-test access, 6 MRAM), the bypass bit, the boundary cells and the bits last shifted out. -/
structure Tap where
  ir : Nat := 1
  bypass : Bool := false
  cells : List Bool := []
  out : List Bool := []
  deriving DecidableEq, Repr

/-- What differs from part to part (R4 to R6, R609, R628, R629). -/
structure Part where
  gradedWidth : Nat := 12
  ownerKeyable : Bool := false
  serial : BitVec 64 := 0
  tierIds : List (BitVec 64) := []
  vcrOffset : Nat := 0
  deriving DecidableEq, Repr

/-- eFuse state that transitions change (R630, R642, R645, R632). -/
structure Fuse where
  lifecycle : BitVec 8 := 2
  secVer : Nat := 0
  ownerKeyState : BitVec 8 := 2
  ownerRsaHash : List Byte := []
  ownerSlhHash : List Byte := []
  wrapDisabled : Bool := false
  deriving DecidableEq, Repr

/-- A defect-list entry (R578); INDEX is its place in the list. -/
structure Defect where
  kind : BitVec 8
  position : Word
  test : BitVec 8
  data : Word
  boot : Nat
  timeUs : Nat
  deriving DecidableEq, Repr

/-- An event-log entry (R559). -/
structure Event where
  seq : Nat
  code : Nat
  sev : Nat
  unit : Nat
  detail : Nat
  payload : BitVec 128
  timeUs : Nat
  prior : Bool
  deriving DecidableEq, Repr

/-- MRAM: what keeps through PORST_N (R548 to R550, R561, R578, R634, R639). `keys` says that the device identity keys and
their endorsement exist. -/
structure Mram where
  bootCount : Nat := 0
  fwSlots : SMap (List Byte) := []
  preferred : Nat := 0
  nvImage : SMap (List Byte) := []
  nvUsed : Nat := 0
  profiles : SMap (Option (SMap (List Byte))) := []
  defects : List Defect := []
  persisted : List Event := []
  commitCount : Nat := 0
  keys : Bool := true
  deriving DecidableEq, Repr

/-- Start-up and resets (R570 to R586). `held` says that start-up stopped at OD_ASSEMBLY (R35, R633, R641), `crownSeq` that
a crown reset is under way, `waitCrownRst` that CROWN_RST_N low holds the sequence. Defects: `clears` await removal,
`unlisted` found no room (R580), `hidden` are cleared but bind until PORST_N (R581). -/
structure Boot where
  phase : Phase := .romBoot
  slotId : BitVec 6 := 0
  profSel : BitVec 2 := 0
  held : Bool := false
  recovery : Bool := false
  fwSlot : Nat := 0
  fwVersion : Word := 0
  fwSvn : Nat := 0
  fwManifest : List Byte := []
  waitCrownRst : Bool := false
  crownSeq : Bool := false
  cause : Nat := 0
  crownResets : Nat := 0
  debugLocked : Bool := true
  width : Nat := 0
  boughMap : SMap Nat := []
  crownNeeds : Bool := false
  fencedLeaves : SMap Bool := []
  fencedBoughs : SMap Bool := []
  fencedColumns : SMap Bool := []
  fencedTrunks : SMap Bool := []
  failedColumns : SMap Bool := []
  clears : List Defect := []
  unlisted : List Defect := []
  hidden : List Defect := []
  deriving DecidableEq, Repr

/-! ## Governor -/

/-- A step change in progress (R616): target, old step, UNIT and DETAIL of its GOV_DECISION, its MEASURED and LIMIT,
and the stage (0 slewing up before the stop, 1 clock stopped and PLL relocking, 2 slewing down after the restart). -/
structure StepChange where
  target : Nat
  old : Nat
  unit : Nat
  cause : Nat
  measured : Word
  limit : Word
  stage : Nat
  deriving DecidableEq, Repr

/-- The governor (R604 to R627). Times are uptime in µs; `samples` holds the 100 µs samples of the last millisecond,
oldest first, and the readings after it are those of the last evaluation. -/
structure Gov where
  samples : List Readings := []
  step : Nat := 0
  vcrStep : Nat := 0
  change : Option StepChange := none
  decided : Option StepChange := none
  decidedAt : Nat := 0
  emergency : Bool := false
  afterChange : Bool := false
  crown : List Word := []
  hw : List Word := []
  bough : List Word := []
  rails : List Word := []
  stack : Word := 0
  coolSince : Option Nat := none
  powerSince : Option Nat := none
  calmSince : Option Nat := none
  lastChange : Option Nat := none
  floorAt : Option Nat := none
  tripped : Bool := false
  sparedAt : SMap (Option Nat) := []
  retraining : SMap Bool := []
  deriving DecidableEq, Repr

/-! ## Management -/

/-- A Conas response (R532, R534). -/
structure ConasRsp where
  code : BitVec 8
  seq : BitVec 16
  session : BitVec 4
  status : BitVec 8
  body : List Byte
  deriving DecidableEq, Repr

/-- The last quote built for a session (R649): its nonce and its bytes. -/
structure Quote where
  nonce : List Byte
  bytes : List Byte
  deriving DecidableEq, Repr

/-- An open session (R539). -/
structure Session where
  token : BitVec 64
  transport : Transport
  address : BitVec 17
  privileged : Bool
  lastSeq : BitVec 16 := 0xFFFF
  cached : Option ConasRsp := none
  viol : Nat := 0
  violSec : Nat := 0
  quote : Option Quote := none
  deriving DecidableEq, Repr

/-- Something the chiplet has sent on the sideband: a Conas response over MCTP, an in-band interrupt with its data, an MCTP
control response, its identity in address assignment (R523 to R527). -/
inductive MgmtOut where
  | rsp (address : BitVec 17) (tag : BitVec 15) (r : ConasRsp)
  | ibi (bytes : List Byte)
  | mctp (eid : Byte) (tag : BitVec 3) (bytes : List Byte)
  | daa (pid : BitVec 48) (bcr dcr : Byte)
  deriving DecidableEq, Repr

/-- A message being assembled (R524). -/
structure Assembly where
  srcEid : Byte
  tag : BitVec 3
  owner : Bool
  next : BitVec 2
  bytes : List Byte
  deriving DecidableEq, Repr

/-- A Conas request that has arrived and is not yet executed, and the root control clock cycle of its last byte (R531). -/
structure ConasMsg where
  h : ConasHdr
  code : Nat
  body : List Byte
  at_ : Nat := 0
  deriving DecidableEq, Repr

/-- A command that answered PENDING (R555, R556): subindex, session, SEQ, argument. -/
structure PendCmd where
  sub : Nat
  session : BitVec 4
  seq : BitVec 16
  arg : List Byte
  deriving DecidableEq, Repr

/-- The event log (R559 to R562). Keys of `counts` and `now` are event code × 256 + violation code. -/
structure EvLog where
  entries : List Event := []
  head : Nat := 0
  oldest : Nat := 0
  lost : Nat := 0
  second : Nat := 0
  counts : SMap Nat := []
  now : SMap Nat := []
  due : List (Nat × Nat) := []
  suppressed : SMap Nat := []
  deriving DecidableEq, Repr

/-- Object dictionary layers and the management port (R522 to R556). Objects are keyed index × 256 + subindex;
`nv` is the NV image as OD_ASSEMBLY read it, `overlay` the active profile's values (R546, R548). -/
structure Mgmt where
  rt : SMap (List Byte) := []
  nv : SMap (List Byte) := []
  overlay : SMap (List Byte) := []
  profileActive : Nat := 0
  profilePending : Nat := 0
  sessions : SMap (Option Session) := []
  quote0 : Option Quote := none
  violations : SMap Nat := []
  discards : Nat := 0
  dynAddr : Option (BitVec 7) := none
  eid : Byte := 0
  assembling : List Assembly := []
  inbox : List ConasMsg := []
  out : List MgmtOut := []
  cmdStatus : SMap (BitVec 32) := []
  pend : Option PendCmd := none
  fwStage : SMap Byte := []
  challenge : Option (List Byte) := none
  deriving DecidableEq, Repr

/-- A packet on its way from the canopy root to every leaf, or over the control network to one (R308, R595), and the CCLK cycle in
which its header can leave the root at the earliest. -/
structure BusPkt where
  leaf : Option Nat
  kind : BitVec 4
  p : Canopy
  at_ : Nat := 0
  deriving DecidableEq, Repr

/-- A GRAFT_LOAD in progress (R587 to R597): `endAt` is the uptime of its last END, `answered` the leaves that have
completed or reported since. -/
structure GraftLoad where
  off : Nat
  packets : Nat
  image : BitVec 16
  doneGc : Nat
  startValue : Nat
  round : Nat := 0
  endAt : Nat := 0
  targets : List Nat
  reports : List (Nat × Nat) := []
  answered : List Nat := []
  mismatch : List Nat := []
  digest : List Byte
  failed : Bool := false
  deriving DecidableEq, Repr

/-- Graft images loaded (R597, R651). `started` is the load whose image's leaves were the last to start for the first time, `seed`
and `roundDef` the objects of R199 as they then stood. -/
structure Graft where
  load : Option GraftLoad := none
  imageId : BitVec 16 := 0xFFFF
  chain : List Byte := List.replicate 48 0
  log : List (BitVec 16 × List Byte) := []
  grafts : Nat := 0
  started : Nat := 0
  seed : Option Word := none
  roundDef : Option Nat := none
  bus : List BusPkt := []
  deriving DecidableEq, Repr

/-! ## Leaf -/

/-- A token or ring marker: 16 words on the vector plane, one on the scalar plane, with tag and ring (R268, R326);
`bad` marks a refill of R350; `ready` is the cycle from which it can be taken (R89). -/
structure Tok where
  data : List Word
  tag : Byte := 0
  ring : BitVec 2 := 0
  marker : Bool := false
  bad : Bool := false
  ready : Nat := 0
  deriving DecidableEq, Repr

/-- An input queue: its entries, of which the first `ret` are popped but retained (R105). -/
structure Queue where
  toks : List Tok := []
  ret : Nat := 0
  deriving DecidableEq, Repr

/-- An active loop (R84); the innermost stands first in its list. -/
structure LoopRec where
  k : Nat
  count : Word
  start : Nat
  fin : Nat
  deriving DecidableEq, Repr

/-- An address generator (R62, R83). -/
structure AddrGen where
  base : Word := 0
  stride : Word := 0
  count : Word := 0
  index : Word := 0
  deriving DecidableEq, Repr

inductive RunState where
  | notStarted | running | halted | faulted
  deriving DecidableEq, Repr

/-- Why the leaf's next instruction did not issue when its command came (R75). -/
inductive Stall where
  | operand | gatherFull | queueEmpty | portFull | postFull | remoteFull | drain | writeBack | stepEnd
  | scoreboard | bank | rerun
  deriving DecidableEq, Repr

/-- A wait in progress (R95, R382 to R385). -/
structure Wait where
  loc : Bool
  n : Nat
  expected : BitVec 64
  deadline : Option Nat
  d : Nat
  pd : Nat
  cancelling : Bool := false
  deriving DecidableEq, Repr

/-- A remote operation not yet acknowledged (R96): RSTW and RSTV are writes; `wb` marks a cache write-back (R168). A cached
store that waits for its fill has no response timeout: it sent no request (R164); its `timeout` is 0. -/
structure RemOp where
  tag : BitVec 15
  chip : BitVec 17
  write : Bool
  wb : Bool := false
  sentAt : Nat
  timeout : Nat := 0
  addr : BitVec 64 := 0
  deriving DecidableEq, Repr

/-- An RLDW or GRD whose response has not arrived (R98): `pc` as fault_pc gives it (R67), `inStep` that its step is in progress
(R101), `dropped` once a re-run has discarded it (R102). -/
structure PendLoad where
  tag : BitVec 15
  pair : Bool
  d : Nat
  addr : BitVec 64
  sentAt : Nat
  timeout : Nat := 0
  pc : Nat
  inStep : Bool := false
  dropped : Bool := false
  deriving DecidableEq, Repr

/-- A message from a crown unit, sent and not yet served: a control-network request, an increment or a barrier arrival
for the sync network (R374). -/
inductive NetMsg where
  | req (op : BitVec 5) (r : Req)
  | inc (m : IncMsg)
  | bara (l : Nat) (gc : Nat) (tag : BitVec 15)
  deriving DecidableEq, Repr

/-- A send held at the leaf behind a GFINC (R378); `fence` names the GFINC's destination chiplet. -/
structure HeldSend where
  msg : NetMsg
  fence : Option (BitVec 17)
  deriving DecidableEq, Repr

/-- The shadow set of R100, with the index that R102 returns to. -/
structure Shadow where
  sregs : SMap Word
  vregs : SMap Lanes
  preds : BitVec 8
  masks : SMap (BitVec 16)
  loops : List LoopRec
  ags : SMap AddrGen
  rm : BitVec 3
  vstat : BitVec 5
  pc : Nat
  deriving DecidableEq, Repr

/-- The step in progress (R100 to R107, R301): `cycles` is the cycle of the first issue after STEP.BEGIN or of the
re-run's first issue, `recorded` the two counts of R301 with the group cycle of the error, `reached` the cycle in which the
first count was reached (R303), `loadAt` the cycle in which its last load returns its data (R101), `parity` that one of its
errors was a parity error (R103). -/
structure StepSt where
  shadow : Option Shadow := none
  seen : Nat := 0
  issued : Nat := 0
  posts : List Nat := []
  opseqs : List Nat := []
  postIx : Nat := 0
  insns : Nat := 0
  cycles : Nat := 0
  timedUse : Bool := false
  recorded : Option (Nat × Nat) := none
  reached : Nat := 0
  loadAt : Nat := 0
  parity : Bool := false
  deriving DecidableEq, Repr

/-- An error waiting for RE_RUN (R102, R103, R265, R411): `pc` as fault_pc gives it (R67), the CCLK cycle of its detection, and the
post whose operation met it. -/
structure ErrRec where
  poison : Bool
  pc : Nat
  at_ : Nat
  post : Option Nat := none
  deriving DecidableEq, Repr

/-- A write-gather buffer entry (R129): `bad` marks words with bad parity (R155), `want` is the CCLK cycle from which it requests
its drain (R131). -/
structure Gather where
  row : Nat
  valid : BitVec 16
  data : Lanes
  bad : BitVec 16 := 0
  want : Option Nat := none
  deriving DecidableEq, Repr

/-- A row of the canopy landing buffer (R128), and the counter its packet advances once its last row is written (R315). -/
structure Landing where
  row : Nat
  data : Lanes
  cnt : Option Nat
  deriving DecidableEq, Repr

/-- A timed or flow deposit, or a spill write, on its way to slot B (R125, R328): CCLK cycle of arrival, first word, words.
`settled` once its words stand in the bank order (R119), `written` once its slot-B write is made, kept until the end of its bank
cycle for R135. -/
structure Deposit where
  at_ : Nat
  word : Nat
  vals : List Word
  spill : Bool := false
  settled : Bool := false
  written : Bool := false
  deriving DecidableEq, Repr

/-- Row 0 as it stood before a write that is on its way to its bank (R144): the CCLK cycle from which it governs no more, its
words, their parity and poison, and the row's address parity. -/
structure WinRow where
  before : Nat
  words : Lanes
  bad : BitVec 16
  poison : BitVec 16
  badRow : Bool
  deriving DecidableEq, Repr

/-- The operation a scoreboard entry belongs to (R147): bough engine or column controller, the post's number, and which
replay of it (R107), 0 for none. -/
structure OpId where
  dma : Bool
  leaf : Nat
  post : Nat
  replay : Nat
  deriving DecidableEq, Repr

/-- A scoreboard entry (R147): words `lo` to `hi`, kind W or R; `rel` is the CCLK cycle of its release, known once the
operation's last access to the part is granted (R151), and `freed` says that it is released in this cycle, which it still
holds (R153). -/
structure SbEntry where
  lo : Nat
  hi : Nat
  w : Bool
  op : OpId
  rel : Option Nat := none
  freed : Bool := false
  deriving DecidableEq, Repr

/-- A cache line (R163): heartwood line number, data, and its damaged or poisoned words. -/
structure CLine where
  line : Nat
  dirty : Bool
  data : Lanes
  bad : BitVec 16 := 0
  poison : BitVec 16 := 0
  deriving DecidableEq, Repr

/-- A cache miss waiting for its fill (R164): a load of word `w` into register `d` (`pc` as fault_pc gives it, `inStep` that its
step is in progress), or a store of `val`. -/
structure CMiss where
  line : Nat
  w : Nat
  store : Option Word
  d : Nat
  tag : BitVec 15
  pc : Nat
  inStep : Bool := false
  deriving DecidableEq, Repr

/-- A leaf's private cache (R160 to R172): size in effect, lines with the most recently used first, misses. -/
structure Cache where
  size : BitVec 2 := 0
  lines : List CLine := []
  misses : List CMiss := []
  deriving DecidableEq, Repr

/-- A switch configuration slot with its route block (R275 to R278, R319). -/
structure Slot where
  hdr : BitVec 64 := 0
  dp0 : BitVec 64 := 0
  dp1 : BitVec 64 := 0
  ents : SMap (BitVec 64) := []
  vroute : BitVec 64 := 0
  sroute : BitVec 64 := 0
  spill : BitVec 64 := 0
  rsv : BitVec 64 := 0
  frozen : Bool := false
  deriving DecidableEq, Repr

/-- A bank of the scratchpad (R123): its rotating pointer (0 CORE, 1 GATHER, 2 ENGINE, 3 DMA, 4 REMOTE), the CCLK cycle after
its last grant, and the requests that lost: requester, write, first cycle, last cycle. -/
structure Bank where
  ptr : Nat := 0
  granted : Nat := 0
  waits : List (Nat × Bool × Nat × Nat) := []
  deriving DecidableEq, Repr

/-- A VLDX or VSTX whose later rows are still to be granted (R124): lanes with their words, the lanes read so far or those to
write, the destination with its selected lanes, the index of a fault, and that its step is in progress (R101). `pushed` says
that its token stands in its port, `dropped` that a re-run or a fault has discarded the instruction, whose push stands (R106,
R112). -/
structure IdxOp where
  store : Bool
  todo : List (Nat × Nat)
  vals : Lanes
  d : Nat := 0
  sel : BitVec 16 := 0
  pc : Nat
  inStep : Bool := false
  pushed : Bool := false
  dropped : Bool := false
  deriving DecidableEq, Repr

/-- A refill granted and on its way to its queue (R347): the CCLK cycle of its entry, the queue, the token. -/
structure Refill where
  at_ : Nat
  q : Nat
  tok : Tok
  deriving DecidableEq, Repr

/-- The switch of a leaf (R291 to R306, R324 to R346). Link inputs are keyed direction + 4 × plane, sinks 0–3 N E S W, 4–7
queues, 8 deposit path, plus 9 on the scalar plane; 18 more for a flip that follows the next one. `skid` holds slots with the
CCLK cycle of their arrival. `spent` counts credits in use, `returning` the cycles at which credits come back, `flags` the QUIET
(true) and CLEAR reports on their way to the hub with the cycles of their sending, `ringAt` and `flipAt` the cycles of the last
ring point and flip (R331, R334). Group cycle `v` falls in cycle `base + v` of the core; `lag` is how many CCLK cycles the core
has stood still with its member (R300), `advAt` the CCLK cycle after the last in which the member advanced. -/
structure Switch where
  cur : Slot := {}
  nxt : Slot := {}
  running : Bool := false
  base : Nat := 0
  v : Nat := 0
  v0 : Nat := 0
  lag : Nat := 0
  advAt : Nat := 0
  held : Bool := false
  stopped : Bool := false
  readySent : Bool := false
  skid : SMap (List (Nat × Option Tok)) := []
  lbuf : SMap (List Tok) := []
  spent : SMap Nat := []
  returning : SMap (List Nat) := []
  xferAt : Nat := 0
  flips : SMap Bool := []
  ringPoint : Bool := false
  markerDue : Bool := false
  ringAt : Nat := 0
  flipAt : Nat := 0
  spilling : SMap Bool := []
  spillRd : SMap Nat := []
  spillWr : SMap Nat := []
  refills : List Refill := []
  refillAt : Nat := 0
  moved : Bool := false
  quietFor : Nat := 0
  quietSent : Bool := false
  flags : List (Bool × Nat) := []
  joined : Option Nat := none
  joinDue : Bool := false
  leaveDue : Option Nat := none
  spillDue : Bool := false
  abortDue : Bool := false
  deriving DecidableEq, Repr

/-- What a leaf holds of a graft image (R590 to R597): current image, SEQs received, SEQs that targeted it (`mine`) and those
that it accepted as a target (`counted`), its record, the record's image and the number of its GRAFT_LOAD, and the counter and
value of its start condition. -/
structure Image where
  id : Option (BitVec 16) := none
  got : SMap Bool := []
  mine : SMap Bool := []
  counted : SMap Bool := []
  record : Option (BitVec 1024) := none
  recId : BitVec 16 := 0
  load : Nat := 0
  complete : Bool := false
  start : Option (Nat × Nat) := none
  waitGo : Bool := false
  deriving DecidableEq, Repr

/-- A message between a leaf and the sync hub (R383). -/
inductive SyncMsg where
  | watch (gc : Nat) (expected : BitVec 64)
  | cancel (gc : Nat)
  | satisfy (value : BitVec 64)
  | value (value : BitVec 64)
  deriving DecidableEq, Repr

/-- One leaf (R62 and the state named beside each field). -/
structure Leaf where
  sregs : SMap Word := []
  vregs : SMap Lanes := []
  preds : BitVec 8 := 0
  masks : SMap (BitVec 16) := []
  loops : List LoopRec := []
  ags : SMap AddrGen := []
  lcs : SMap (BitVec 64) := []
  lcOld : SMap (Option (BitVec 64)) := []
  queues : SMap Queue := []
  ports : SMap (List Tok) := []
  pc : Nat := 0
  task : Nat := 0
  resume : SMap Nat := []
  run : RunState := .notStarted
  rm : BitVec 3 := 0
  vstat : BitVec 5 := 0
  faultCode : BitVec 8 := 0
  faultPc : Word := 0
  reruns : Nat := 0
  rerunTotal : Nat := 0
  remRefused : Nat := 0
  remLast : BitVec 8 := 0
  ring : BitVec 2 := 0
  startCycle : Nat := 0
  tcode : SMap Word := []
  tdata : SMap Word := []
  nextIssue : Nat := 0
  readyAt : SMap Nat := []
  fpFree : Nat := 0
  wait : Option Wait := none
  rem : List RemOp := []
  heldSends : List HeldSend := []
  loads : List PendLoad := []
  nextTag : Nat := 0
  stall : Option Stall := none
  step : StepSt := {}
  errs : List ErrRec := []
  postNo : Nat := 0
  dposts : Nat := 0
  banks : SMap Bank := []
  coreReq : Nat := 0
  remoteAt : Nat := 0
  idx : Option IdxOp := none
  istore : SMap Word := []
  badWord : SMap Bool := []
  poisonWord : SMap Bool := []
  badRow : SMap Bool := []
  gather : List Gather := []
  landing : List Landing := []
  landAt : Nat := 0
  deposits : List Deposit := []
  winOld : List WinRow := []
  sb : List SbEntry := []
  cache : Cache := {}
  counters : SMap Nat := []
  netCounters : SMap Nat := []
  sw : Switch := {}
  image : Image := {}
  toHub : List SyncMsg := []
  fromHub : List SyncMsg := []
  watch : Option (Nat × BitVec 64) := none
  deriving DecidableEq, Repr

/-! ## Engines and columns -/

/-- An engine descriptor in the queue (R222, R226): the post's leaf and number, OPSEQ, which replay it is (R107), the CCLK
cycle of its issue (R150), its step and index as fault_pc gives it (R67), and the RESULT of a refusal. -/
structure EDesc where
  bits : BitVec 512
  leaf : Nat
  post : Nat
  opseq : Nat
  replay : Bool
  run : Nat := 0
  at_ : Nat := 0
  inStep : Bool
  pc : Nat
  refused : Option Nat
  deriving DecidableEq, Repr

/-- An engine operation in progress (R223, R240 to R256): the accumulated tiles with their sub-arrays, the load path's counts and
the saturations (R259), the errors met (R265), and the CCLK cycle in which its last operand row is checked (R264). -/
structure ERun where
  tiles : List (Nat × List (List Word)) := []
  nan : Nat := 0
  inf : Nat := 0
  flush : Nat := 0
  sats : Nat := 0
  par : Bool := false
  poi : Bool := false
  readBy : Nat := 0
  deriving DecidableEq, Repr

/-- A bough engine and its status block (R222, R259 to R261; R194, R195, R199): an operation is in progress while `run` holds
it. -/
structure Engine where
  queue : List EDesc := []
  opseq : Nat := 0
  last : Nat := 0
  run : Option ERun := none
  sr : Word := 0
  ring : SMap (BitVec 256) := []
  counters : SMap Nat := []
  counted : List (Nat × Nat) := []
  deriving DecidableEq, Repr

/-- Who posted a DMA descriptor (R412, R413): a leaf, its post number, which replay of it (R107), whether in a step, its index as
fault_pc gives it (R67) and its data window, or the control network for a bough leaf on behalf of a chiplet. -/
inductive Poster where
  | leaf (l : Nat) (post : Nat) (run : Nat) (inStep : Bool) (fpc : Nat) (tdata : Word)
  | net (origin : BitVec 17) (l : Nat)
  deriving DecidableEq, Repr

/-- A DMA descriptor at a column controller (R414): the CCLK cycle in which it can enter the queue (R412), progress (element,
byte offset, the element's far address), pieces outstanding, results, words that wait for the rest of their element (element,
scratchpad byte, data, poison), refused elements of non-home pieces, and the cycle of its last launch. -/
structure DDesc where
  bits : BitVec 256
  poster : Poster
  at_ : Nat := 0
  dseq : Nat := 0
  refused : Option Nat := none
  elem : Nat := 0
  off : Nat := 0
  far : Nat := 0
  begun : Bool := false
  lastAt : Option Nat := none
  remote : Bool := false
  held : List (Nat × Nat × List Byte × Bool) := []
  bad : List Nat := []
  allSent : Bool := false
  out : Nat := 0
  elemsRefused : Nat := 0
  firstCode : Nat := 0
  corrected : Nat := 0
  poisoned : Nat := 0
  srcErr : Bool := false
  errPoison : Bool := false
  poisonRes : Bool := false
  deriving DecidableEq, Repr

/-- A launched home line (R403): descriptor, column byte offset, bytes covered, scratchpad byte offset, direction, and the CCLK cycle
of its launch. -/
structure LineOp where
  dseq : Nat
  elem : Nat
  off : Nat
  len : Nat
  spad : Nat
  write : Bool
  src : List Byte := []
  srcBad : Bool := false
  at_ : Nat := 0
  deriving DecidableEq, Repr

/-- A non-home piece in flight (R420, R422). -/
structure PieceOp where
  tag : BitVec 15
  dseq : Nat
  elem : Nat
  spad : Nat
  len : Nat
  write : Bool
  sentAt : Nat
  timeout : Nat := 0
  addr : BitVec 64 := 0
  deriving DecidableEq, Repr

/-- A row being retired (R434): tier − 1, bank, row, spare, the lines copied, and the line read and not yet written, with whether it
was bad. -/
structure Retire where
  tier : Nat
  bank : Nat
  row : Nat
  spare : Nat
  copied : Nat
  errors : Nat
  got : Option (List Byte × Bool) := none
  deriving DecidableEq, Repr

/-- A column controller and its status block (R397 to R436). `slot` is the last slot committed, `banks` the recent slots
with the bank (tier − 1 + 16 × bank) that each uses, `refSlot` the reserved slot of the next refresh; refresh counts,
deferrals and forced refreshes are keyed tier − 1, spares used tier − 1 + 16 × bank. `maintSlot` is the reserved slot last
given to other maintenance, `served` the requests that wait for a data slot with the data slot in which they first did, `floorAt` the
data slot last taken under the floor (R423), `netAt` the CCLK cycle after the last control-network post (R414). `writeBacks` holds
lines with their bytes, `passAt` the uptime in µs at which the patrol pass began, `rows` rows with their corrected errors and
whether they have been reported (R433). `fast` is the accelerated patrol of
R621, `passes` its passes without a corrected error, `fastClean` says that the pass under way has met none so far. -/
structure Column where
  posts : List DDesc := []
  queue : List DDesc := []
  active : List DDesc := []
  dseq : Nat := 0
  counted : List (Nat × Nat) := []
  ring : SMap (BitVec 128) := []
  counters : SMap Nat := []
  tierCounters : SMap Nat := []
  lines : List LineOp := []
  pieces : List PieceOp := []
  nextTag : Nat := 0
  slot : Nat := 0
  banks : List (Nat × Nat) := []
  refSlot : Nat := 7
  maintSlot : Nat := 0
  served : List (Nat × BitVec 15 × Nat) := []
  floorAt : Option Nat := none
  netAt : Nat := 0
  refreshAt : SMap Nat := []
  deferred : SMap Nat := []
  forced : SMap Bool := []
  writeBacks : List (Nat × List Byte) := []
  patrol : Nat := 0
  passAt : Option Nat := none
  passes : Nat := 0
  fast : Bool := false
  fastClean : Bool := false
  rows : List (Nat × Nat × Bool) := []
  errTimes : List Nat := []
  retire : Option Retire := none
  retired : List Nat := []
  retireDue : List (Nat × Nat) := []
  spares : SMap Nat := []
  deriving DecidableEq, Repr

/-! ## Hub, networks, ports, collectives -/

/-- A timed-group table entry and its state (R287, R289, R318); `goAt` is the cycle of a go on its way (R291). -/
structure GroupE where
  goGc : Nat := 0
  goVal : BitVec 64 := 0
  members : Nat := 0
  arm : Bool := false
  ready : Nat := 0
  goAt : Option Nat := none
  stopped : Bool := false
  deriving DecidableEq, Repr

/-- A flow region at the hub (R336 to R341, R352): the members asked with SPILL, and their answers, 0 ACTIVE, 1 SPILLED,
2 CANNOT. -/
structure Region where
  active : List Nat := []
  quiet : List Nat := []
  window : Option Nat := none
  awaiting : Bool := false
  asked : List Nat := []
  answers : List (Nat × Nat) := []
  aborted : Bool := false
  spills : Nat := 0
  cancelled : Nat := 0
  deriving DecidableEq, Repr

/-- Arrivals waiting in a barrier combiner (R387): node, counter, sum, acknowledgements. -/
structure Comb where
  node : Nat
  gc : Nat
  sum : Nat
  acks : List (Nat × BitVec 15)
  deriving DecidableEq, Repr

/-- The sync hub (R371, R287, R336, R387). -/
structure Hub where
  gcs : SMap (BitVec 64) := []
  groups : SMap GroupE := []
  regions : SMap Region := []
  comb : List Comb := []
  deriving DecidableEq, Repr

/-- The control network (R353 to R370): requests and responses in flight, and its counters. `xtags` is the trunks' table of
requests sent over links, from the tag they carry there to endpoint and tag (log 12). `routes` is the logical width for which
the routers' route tables stand, 0 before they are loaded (R359, R582), `masks` the routers' fault masks (R360): bit 0 N, 1 E, 2
S, 3 W. -/
structure Net where
  msgs : List NetMsg := []
  resps : List (BitVec 5 × Resp) := []
  refusals : SMap Nat := []
  discards : Nat := 0
  xtags : SMap (Option (Nat × BitVec 15)) := []
  nextX : Nat := 0
  routes : Nat := 0
  masks : SMap (BitVec 4) := []
  deriving DecidableEq, Repr

/-- An edge port (R443 to R476): state of R466, armed (R467), whether its LINK_PARAM is sent and the partner's accepted,
the partner's held unchecked, modules in service; credits for sending, slots of ours in use, credits returned so far, by
class, and of those the credits that flits have carried; slots of unfinished packets and slots still to be dropped with their class, by
module; slots still to be sent, by module, headers marked; packets held until it opens; violations of
its current second; what CTL and SYNC have taken of their allowances, with the packet slots gone by at that time, and the
round of R454, by module. `since` is the uptime in µs of the entry to its state. -/
structure Port where
  state : Nat := 0
  armed : Bool := false
  lpSent : Bool := false
  lpOk : Bool := false
  lpRx : Option SPkt := none
  modules : BitVec 8 := 0
  absentRaised : Bool := false
  lastViol : Nat := 0
  credits : SMap Nat := []
  used : SMap Nat := []
  returned : SMap Nat := []
  carried : SMap Nat := []
  partials : SMap (List (BitVec 128)) := []
  dropping : SMap (Nat × Nat) := []
  outSlots : SMap (List (Bool × BitVec 128)) := []
  buf : List SPkt := []
  viol : Nat := 0
  violSec : Nat := 0
  since : Nat := 0
  tookCtl : SMap Nat := []
  tookSync : SMap Nat := []
  tookAt : SMap Nat := []
  rr : SMap Nat := []
  deriving DecidableEq, Repr

/-- The edge ports, ring router and link counters (R456 to R476). Inputs are ports 0–3 N E S W and 4 for the chiplet. `out` is
the packets sent, by port and module, `flits` the flits that carried them and the credits; `retryLog` the retries seen: module,
uptime in µs, number. -/
structure Links where
  ports : SMap Port := []
  router : List (Nat × SPkt) := []
  out : List (Nat × Nat × SPkt) := []
  flits : List (Nat × Nat × Flit) := []
  violations : SMap Nat := []
  discards : SMap Nat := []
  retries : SMap Nat := []
  lanes : SMap Byte := []
  retryLog : List (Nat × Nat × Nat) := []
  deriving DecidableEq, Repr

/-- A group of the collective unit (R478 to R480). -/
structure CGroup where
  members : List (BitVec 17) := []
  rank : Nat := 0
  nextSeq : Nat := 0
  crc : Word := 0
  deriving DecidableEq, Repr

/-- A collective in its slot (R484 to R518). States: 1 active, 2 DONE, 3 confirmed. Grants by rank (DST base, RECV base);
destinations served so far; CONTRIB and RESULT pieces received (rank, piece); SMALLs by rank; lengths of ALL_TO_ALL_V
parts by sender; own pieces reduced; RESULT pieces still to be sent (rank, piece). -/
structure CSlot where
  desc : BitVec 512
  group : Nat
  seq : Nat
  post : Nat
  state : Nat := 1
  small : Bool := false
  grants : SMap (Option (Nat × Nat)) := []
  sent : Nat := 0
  gotC : List (Nat × Nat) := []
  gotR : List (Nat × Nat) := []
  smalls : SMap (Option (List Byte)) := []
  sizes : SMap (Option Nat) := []
  reduced : List Nat := []
  resq : List (Nat × Nat) := []
  confirms : List Nat := []
  copied : Bool := false
  saturated : Nat := 0
  nans : Nat := 0
  infs : Nat := 0
  dropped : Nat := 0
  takenAt : Nat := 0
  confirmedAt : Nat := 0
  doneAdv : Bool := false
  crownReset : Bool := false
  deriving DecidableEq, Repr

/-- A record of the early store (R492). -/
structure Early where
  sender : BitVec 17
  group : Nat
  seq : Nat
  grant : Option CollMsg := none
  small : Option CollMsg := none
  confirm : Option CollMsg := none
  poison : Option CollMsg := none
  deriving DecidableEq, Repr

/-- The collective unit (R478 to R521). `waiting` holds messages, by kind, that wait for an access which is held at its target, `asks`
the held accesses (offset, bytes) while a step of the unit is tried. -/
structure Coll where
  slots : SMap (Option CSlot) := []
  groups : SMap CGroup := []
  early : List Early := []
  posts : Nat := 0
  counts : SMap Nat := []
  inbox : List SPkt := []
  waiting : List (Nat × CollMsg) := []
  asks : Option (List (Nat × Nat)) := none
  deriving DecidableEq, Repr

/-! ## The chiplet -/

/-- The whole chiplet, and the commands that wait, first in first out. `hwPoison` marks the heartwood lines stored
poisoned, by offset div 64 (R395). `free` numbers the draws of free values (log 9). -/
structure State where
  pending : List Instr := []
  pins : Pins := {}
  clk : Clock := {}
  tap : Tap := {}
  part : Part := {}
  fuse : Fuse := {}
  mram : Mram := {}
  boot : Boot := {}
  gov : Gov := {}
  mgmt : Mgmt := {}
  log : EvLog := {}
  graft : Graft := {}
  mem : List Host.Cell := []
  hwPoison : SMap Bool := []
  leaves : SMap Leaf := []
  engines : SMap Engine := []
  columns : SMap Column := []
  hub : Hub := {}
  net : Net := {}
  links : Links := {}
  coll : Coll := {}
  free : Nat := 0
  deriving DecidableEq, Repr

/-- The chiplet with PORST_N asserted, before its release (R570, R585). -/
def State.reset : State := {}

/-- No meaning of this model stops the machine: every outcome the spec gives is a next state. -/
inductive Fault where
  /-- Raised by nothing; it stands for a command with an operand outside its range, which WellFormed refuses. Safe. -/
  | illFormed
  deriving DecidableEq, Repr

inductive Refusal where
  /-- A command whose meaning the model does not hold, by its mnemonic. Safe. -/
  | notModelled (mnemonic : String)
  deriving DecidableEq, Repr

end Sys2Proof.Machine
end

