-- ==== Sys2Proof/Machine/Ops.lean ====
section
/-! DEFINITION. The named operations over sparse maps, memory, units, objects, events and counters. -/
namespace Sys2Proof.Machine

/-- What a meaning answers. -/
abbrev Out := Host.Outcome State Fault Refusal

/-! ## Sparse maps -/

/-- The value of key `k`, `d` where the map does not list it. -/
def mget {α : Type} (d : α) : SMap α → Nat → α
  | [], _ => d
  | (j, v) :: r, k => if j = k then v else mget d r k

/-- Insertion that keeps rising keys. -/
def minsert {α : Type} (k : Nat) (v : α) : SMap α → SMap α
  | [] => [(k, v)]
  | (j, w) :: r => if k < j then (k, v) :: (j, w) :: r else (j, w) :: minsert k v r

/-- `m` with key `k` reading `v`; an entry that reads as the default `d` is not listed. -/
def mset {α : Type} [DecidableEq α] (d : α) (m : SMap α) (k : Nat) (v : α) : SMap α :=
  if v = d then m.filter (fun p => decide (p.1 ≠ k)) else minsert k v (m.filter (fun p => decide (p.1 ≠ k)))

def mmod {α : Type} [DecidableEq α] (d : α) (m : SMap α) (k : Nat) (f : α → α) : SMap α :=
  mset d m k (f (mget d m k))

/-- Every listed value changed; entries that come to read as the default leave the list. -/
def mmap {α : Type} [DecidableEq α] (d : α) (m : SMap α) (f : Nat → α → α) : SMap α :=
  m.foldr (fun p r => mset d r p.1 (f p.1 p.2)) []

/-- Canonical form: keys strictly rising, no entry equal to the default. -/
def mwf {α : Type} [DecidableEq α] (d : α) : SMap α → Bool
  | [] => true
  | (k, v) :: r => decide (v ≠ d) && r.all (fun p => decide (k < p.1)) && mwf d r

/-! ## Bits and bytes -/

/-- Field of `w` bits from bit `lo`. -/
def fld (n lo w : Nat) : Nat := n / 2 ^ lo % 2 ^ w

def bit (n lo : Nat) : Bool := n / 2 ^ lo % 2 = 1

def b2n (b : Bool) : Nat := if b then 1 else 0

/-- Sign extension of a `w`-bit field. -/
def sext (n w : Nat) : Int := if n < 2 ^ (w - 1) then n else (n : Int) - 2 ^ w

/-- Saturating 32-bit and 16-bit counts. -/
def sat32 (n : Nat) : Nat := if n > 0xFFFFFFFF then 0xFFFFFFFF else n

def sat16 (n : Nat) : Nat := if n > 0xFFFF then 0xFFFF else n

/-- The `k` little-endian bytes of `n` (R13). -/
def leBytes : Nat → Nat → List Byte
  | _, 0 => []
  | n, k + 1 => BitVec.ofNat 8 n :: leBytes (n / 256) k

def ofLe : List Byte → Nat
  | [] => 0
  | b :: r => b.toNat + 256 * ofLe r

def bytesOfWords (ws : List Word) : List Byte := ws.flatMap (fun w => leBytes w.toNat 4)

/-- Groups of `k` elements; `fuel` bounds their number. -/
def chunks {α : Type} (k : Nat) : Nat → List α → List (List α)
  | 0, _ => []
  | fuel + 1, l => if l.isEmpty then [] else l.take k :: chunks k fuel (l.drop k)

def wordsOfBytes (bs : List Byte) : List Word :=
  (chunks 4 bs.length bs).map (fun c => BitVec.ofNat 32 (ofLe c))

def ofWords (ws : List Word) : Nat := ws.foldr (fun w acc => w.toNat + 2 ^ 32 * acc) 0

def toWords (n k : Nat) : List Word := (List.range k).map (fun i => BitVec.ofNat 32 (fld n (32 * i) 32))

/-! ## Memory (R45, R50, R116): bytes at local offsets; an unlisted byte reads as zero (log 2) -/

def spadBase : Nat := 0x100000000000

def readByte (m : List Host.Cell) (a : Nat) : Byte := mget 0 m a

def writeByte (m : List Host.Cell) (a : Nat) (b : Byte) : List Host.Cell := mset 0 m a b

def readBytes (m : List Host.Cell) (a n : Nat) : List Byte := (List.range n).map (fun i => readByte m (a + i))

def writeBytes (m : List Host.Cell) (a : Nat) : List Byte → List Host.Cell
  | [] => m
  | b :: r => writeBytes (writeByte m a b) (a + 1) r

/-- Every byte of offsets `lo` up to but not including `hi` becomes zero. -/
def zeroRange (m : List Host.Cell) (lo hi : Nat) : List Host.Cell :=
  m.filter (fun p => decide (p.1 < lo ∨ hi ≤ p.1))

/-- The memory's canonical form. -/
def memWf (m : List Host.Cell) : Bool := mwf 0 m

def mread (s : State) (a n : Nat) : List Byte := readBytes s.mem a n

def mwrite (s : State) (a : Nat) (bs : List Byte) : State := { s with mem := writeBytes s.mem a bs }

/-- Local offset of physical byte `b` of leaf `l`'s scratchpad (R116). -/
def spadOff (l b : Nat) : Nat := spadBase + l * 0x40000 + b

/-- Word `w` (0 to 65,535) of a leaf's scratchpad. -/
def spadWord (s : State) (l w : Nat) : Word := BitVec.ofNat 32 (ofLe (mread s (spadOff l (4 * w)) 4))

/-! ## Units -/

def leafOf (s : State) (l : Nat) : Leaf := mget {} s.leaves l

def setLeaf (s : State) (l : Nat) (x : Leaf) : State := { s with leaves := mset {} s.leaves l x }

def modLeaf (s : State) (l : Nat) (f : Leaf → Leaf) : State := setLeaf s l (f (leafOf s l))

def engOf (s : State) (b : Nat) : Engine := mget {} s.engines b

def setEng (s : State) (b : Nat) (x : Engine) : State := { s with engines := mset {} s.engines b x }

def modEng (s : State) (b : Nat) (f : Engine → Engine) : State := setEng s b (f (engOf s b))

def colOf (s : State) (c : Nat) : Column := mget {} s.columns c

def setCol (s : State) (c : Nat) (x : Column) : State := { s with columns := mset {} s.columns c x }

def modCol (s : State) (c : Nat) (f : Column → Column) : State := setCol s c (f (colOf s c))

def portOf (s : State) (p : Nat) : Port := mget {} s.links.ports p

def setPort (s : State) (p : Nat) (x : Port) : State :=
  { s with links := { s.links with ports := mset {} s.links.ports p x } }

def modPort (s : State) (p : Nat) (f : Port → Port) : State := setPort s p (f (portOf s p))

def groupOf (s : State) (g : Nat) : GroupE := mget {} s.hub.groups g

def setGroup (s : State) (g : Nat) (x : GroupE) : State :=
  { s with hub := { s.hub with groups := mset {} s.hub.groups g x } }

def regionOf (s : State) (g : Nat) : Region := mget {} s.hub.regions g

def setRegion (s : State) (g : Nat) (x : Region) : State :=
  { s with hub := { s.hub with regions := mset {} s.hub.regions g x } }

/-! ## Geometry (R8, R22, R23, R56, R57, R218) -/

def leafX (l : Nat) : Nat := l % 48

def leafY (l : Nat) : Nat := l / 48

/-- The leaf index names a leaf of the current shape (R8). -/
def leafOk (s : State) (l : Nat) : Bool := l < 2304 && leafX l < 4 * s.boot.width

def boughOf (l : Nat) : Nat := leafY l / 4 * 12 + leafX l / 4

def boughOk (s : State) (b : Nat) : Bool := b < 144 && b % 12 < s.boot.width

/-- Logical leaf index of bough leaf `j` (R218). -/
def boughLeaf (b j : Nat) : Nat := (4 * (b / 12) + j / 4) * 48 + 4 * (b % 12) + j % 4

/-- A leaf's number inside its bough. -/
def leafInBough (l : Nat) : Nat := leafY l % 4 * 4 + leafX l % 4

/-- Home column, which is the physical bough (R23, R52); 0xFFFF where the logical bough names none (R58). -/
def homeCol (s : State) (b : Nat) : Nat := mget 0xFFFF s.boot.boughMap b

/-- The logical bough whose home column is `c`. -/
def boughAt (s : State) (c : Nat) : Option Nat :=
  (s.boot.boughMap.find? (fun p => decide (p.2 = c))).map Prod.fst

def leafFenced (s : State) (l : Nat) : Bool := mget false s.boot.fencedLeaves l

def boughFenced (s : State) (b : Nat) : Bool := mget false s.boot.fencedBoughs b

def colFenced (s : State) (c : Nat) : Bool := mget false s.boot.fencedColumns c

/-- Every leaf of the current shape, in index order. -/
def allLeaves (s : State) : List Nat := (List.range 2304).filter (fun l => leafOk s l)

/-! ## Objects of the dictionary that can be written (R546) -/

/-- An RW or RW-NV object: its key, factory default, whether the NV image keeps it and whether it is profiled. -/
structure ObjDef where
  key : Nat
  dflt : List Byte
  nv : Bool
  prof : Bool
  deriving DecidableEq, Repr

def rwObjectsA : List ObjDef :=
  [ ⟨0x120003, leBytes 64 2, true, false⟩, ⟨0x130006, [2], true, false⟩, ⟨0x130007, leBytes 0 4, false, false⟩,
    ⟨0x210002, [0x0F], true, true⟩, ⟨0x210003, leBytes 460 2, false, false⟩, ⟨0x210004, leBytes 100 2, true, true⟩,
    ⟨0x210005, [2, 2, 2, 2, 2], true, true⟩, ⟨0x304001, leBytes 0x100000 4, true, true⟩,
    ⟨0x310001, leBytes 1 4, true, true⟩, ⟨0x310002, [1], true, true⟩, ⟨0x400101, leBytes 3600 4, true, true⟩,
    ⟨0x400102, [4], true, true⟩ ]

def rwObjectsB : List ObjDef :=
  [ ⟨0x500002, [32], true, true⟩, ⟨0x500003, leBytes 0x60604 4, true, true⟩, ⟨0x500004, leBytes 256 2, true, true⟩,
    ⟨0x510001, leBytes 0xFFFF 2, false, false⟩, ⟨0x510002, List.replicate 2048 0, false, false⟩,
    ⟨0x510004, leBytes 0 8, false, false⟩, ⟨0x600001, List.replicate 8 0xFF, false, false⟩,
    ⟨0x600002, leBytes 0xFFFF 2, false, false⟩, ⟨0x600003, leBytes 0xFFFF 2, false, false⟩,
    ⟨0x600004, leBytes 100000 4, true, true⟩, ⟨0x800004, [0], true, false⟩ ]

def rwObjects : List ObjDef := rwObjectsA ++ rwObjectsB

/-- The value of a writable object: run-time write, active profile, NV image, factory default (R546). -/
def odValue (s : State) (o : ObjDef) : List Byte :=
  let rt := mget [] s.mgmt.rt o.key
  let pv := if o.prof then mget [] s.mgmt.overlay o.key else []
  let nv := if o.nv then mget [] s.mgmt.nv o.key else []
  if rt ≠ [] then rt else if pv ≠ [] then pv else if nv ≠ [] then nv else o.dflt

/-- The encoded value of the writable object with this key. -/
def odBytes (s : State) (key : Nat) : List Byte :=
  match rwObjects.find? (fun o => decide (o.key = key)) with
  | some o => odValue s o
  | none => []

def odNat (s : State) (key : Nat) : Nat := ofLe (odBytes s key)

def groveId (s : State) : Nat := odNat s 0x510001

/-- The chiplet identifier (R38). -/
def chipId (s : State) : Nat := groveId s % 2048 * 64 + s.boot.slotId.toNat

/-- The identifier a local request carries (R355). -/
def originId (s : State) : BitVec 17 := BitVec.ofNat 17 (if groveId s = 0xFFFF then 0x1FFFF else chipId s)

/-- The identifier names this chiplet (R42, R44). -/
def isLocal (s : State) (c : Nat) : Bool := c = 0x1FFFF || (groveId s ≠ 0xFFFF && c = chipId s)

/-! ## Events (R559 to R562, R565, R527) -/

/-- Severity of an event code (R565). -/
def sevOf (code : Nat) : Nat :=
  if [0x01, 0x04, 0x07, 0x08, 0x09, 0x45, 0xA0, 0xE0].contains code then 0
  else if [0x02, 0x0A, 0x20, 0x23, 0x26, 0x40, 0x42, 0x43, 0x46, 0x80, 0x83, 0xA4, 0xC0, 0xC1, 0x101].contains code
  then 2
  else if [0x03, 0x0B, 0x0D, 0x84, 0xA2, 0xA3, 0xE1, 0x100].contains code then 3
  else 1

/-- The entry calls for ALERT_N (R527). -/
def alerting (s : State) (e : Event) : Bool :=
  odNat s 0x130006 ≤ e.sev && odNat s 0x130007 ≤ e.seq

/-- ALERT_N follows the log, alert_level and alert_ack_seq (R527). -/
def refreshAlert (s : State) : State :=
  { s with pins := { s.pins with alert := !(s.log.entries.any (alerting s)) } }

/-- An entry enters the ring (R559, R560), the persisted store when CRITICAL (R561), and alerts (R527). -/
def pushEvent (s : State) (code sev unit detail : Nat) (payload : BitVec 128) : State :=
  let e : Event := { seq := s.log.head, code := code, sev := sev, unit := unit, detail := detail,
                     payload := payload, timeUs := s.clk.us, prior := false }
  let full := s.log.entries.length ≥ 4096
  let n := b2n full
  let s1 : State := { s with
    log := { s.log with entries := s.log.entries.drop n ++ [e], head := s.log.head + 1,
                        oldest := s.log.oldest + n, lost := sat32 (s.log.lost + n) }
    mram := if sev = 3 then
        { s.mram with persisted := (s.mram.persisted ++ [e]).drop (s.mram.persisted.length + 1 - 256) }
      else s.mram }
  let s2 := if alerting s1 e then
      { s1 with mgmt := { s1.mgmt with out := s1.mgmt.out ++ [.ibi (0xE1 :: leBytes s1.log.head 4)] } }
    else s1
  refreshAlert s2

/-- A new second of uptime starts its counts afresh; what the last second suppressed falls due (R562). -/
def rollSecond (s : State) : State :=
  if s.clk.us / 1000000 = s.log.second then s
  else { s with log := { s.log with second := s.clk.us / 1000000, counts := [],
                                    due := s.log.due ++ s.log.now, now := [] } }

/-- EVENTS_SUPPRESSED entries that are due are written (R562). -/
def flushSuppressed (s : State) : State :=
  s.log.due.foldl (fun t p => pushEvent t 0x07 0 (p.1 / 256) (p.1 % 256) (BitVec.ofNat 128 p.2))
    { s with log := { s.log with due := [] } }

/-- An occurrence of an event: an entry, or a suppressed occurrence past the sixteenth of its second (R562). -/
def raise (s0 : State) (code unit detail payload : Nat) : State :=
  let s := flushSuppressed (rollSecond s0)
  let key := code * 256 + (if code = 0x05 || code = 0xA1 then detail else 0)
  let n := mget 0 s.log.counts key
  if n < 16 then
    pushEvent { s with log := { s.log with counts := mset 0 s.log.counts key (n + 1) } }
      code (sevOf code) unit detail (BitVec.ofNat 128 payload)
  else
    { s with log := { s.log with now := mmod 0 s.log.now key (fun k => k + 1)
                                 suppressed := mmod 0 s.log.suppressed code (fun k => sat32 (k + 1)) } }

/-- READY_PHASE carries the service level (R553, R565). -/
def phaseCode : Phase → Nat
  | .romBoot => 0
  | .fwVerify => 1
  | .odAssembly => 2
  | .profileApply => 3
  | .calibration => 4
  | .memoryInit => 5
  | .startTest => 6
  | .gridBuild => 7
  | .compute => 8
  | .crownReset => 9
  | .crownDown => 10

/-! ## Leaf and sync counters -/

/-- Adds to one of a leaf's scratchpad counters, by its word in the block of R173. -/
def bumpLeaf (s : State) (l k n : Nat) : State :=
  modLeaf s l (fun x => { x with counters := mmod 0 x.counters k (fun v => sat32 (v + n)) })

/-- Adds to one of a leaf's timed or canopy counters (R317: keys 1 to 9) or flow counters (R352: keys 17 to 22). -/
def bumpNet (s : State) (l k n : Nat) : State :=
  modLeaf s l (fun x => { x with netCounters := mmod 0 x.netCounters k (fun v => sat32 (v + n)) })

/-- 64-bit counter addition with saturation (R371, R373). -/
def incCounter (v : DWord) (n : Nat) : DWord × Bool :=
  if v.toNat + n < 2 ^ 64 then (BitVec.ofNat 64 (v.toNat + n), false) else (0xFFFFFFFFFFFFFFFF, true)

def lcGet (s : State) (l k : Nat) : DWord := mget 0 (leafOf s l).lcs k

/-- A local counter as LCRD and LCWAIT see it: an increment shows from the next cycle (R375). -/
def lcSeen (x : Leaf) (k : Nat) : DWord := (mget none x.lcOld k).getD (mget 0 x.lcs k)

/-- Adds to a local counter; an increment that saturates raises COUNTER_SATURATED (R373, R375). -/
def lcInc (s : State) (l k n : Nat) : State :=
  let r := incCounter (lcGet s l k) n
  let t := modLeaf s l (fun x => { x with
    lcs := mset 0 x.lcs k r.1, lcOld := mset none x.lcOld k (some (lcSeen x k)) })
  if r.2 then raise t 0x26 k 1 l else t

def gcGet (s : State) (n : Nat) : DWord := mget 0 s.hub.gcs n

/-- Adds to a global counter (R371, R373). -/
def gcInc (s : State) (g n : Nat) : State :=
  let r := incCounter (gcGet s g) n
  let t : State := { s with hub := { s.hub with gcs := mset 0 s.hub.gcs g r.1 } }
  if r.2 then raise t 0x26 g 0 0 else t

/-- Root control clock cycles of 2 ns since the release of PORST_N. -/
def rootCycle (s : State) : Nat := s.clk.us * 500 + s.clk.frac * 500 / 4504500

/-- A free value (log 9) and the state with the draw counted. -/
def draw (s : State) : Word × State := (Config.freeWord s.free, { s with free := s.free + 1 })

end Sys2Proof.Machine
end

