-- ==== Sys2Proof/Machine/Units.lean ====
section
/-! DEFINITION. Defects, fencing, leaf faults and the stopping of timed groups (R111 to R113, R578 to R580,
R598 to R602), with the fields of a switch slot's header (R276). -/
namespace Sys2Proof.Machine

/-! ## Slot header fields (R276) -/

def slotValid (x : Slot) : Bool := x.hdr.getLsbD 0
def slotVFlow (x : Slot) : Bool := x.hdr.getLsbD 1
def slotSFlow (x : Slot) : Bool := x.hdr.getLsbD 2
def slotChain (x : Slot) : Bool := x.hdr.getLsbD 3
def slotPeriod (x : Slot) : Nat := fld x.hdr.toNat 4 10 + 1
def slotGroup (x : Slot) : Nat := fld x.hdr.toNat 16 4
def slotRing (x : Slot) : BitVec 2 := BitVec.ofNat 2 (fld x.hdr.toNat 20 2)
def slotIters (x : Slot) : Nat := fld x.hdr.toNat 32 32

/-- The slot is a checked one with a timed plane (R286). -/
def slotTimed (x : Slot) : Bool := slotValid x && (!slotVFlow x || !slotSFlow x)

/-- The slot is a checked one with a flow plane. -/
def slotFlow (x : Slot) : Bool := slotValid x && (slotVFlow x || slotSFlow x)

/-- Flow region of a slot (R319). -/
def slotRegion (x : Slot) : Nat := fld x.spill.toNat 28 4

/-- The slots through which the leaf is a member of a timed group: its current one, and a next slot awaiting a go (R286). -/
def memberSlots (x : Leaf) : List Slot :=
  (x.sw.cur :: (if x.sw.running then [] else [x.sw.nxt])).filter slotTimed

def memberOf (x : Leaf) (g : Nat) : Bool := (memberSlots x).any (fun k => slotGroup k = g)

def memberAny (x : Leaf) : Bool := memberSlots x ≠ []

/-! ## Defects -/

/-- Physical leaf number of a logical leaf (R22, R57). -/
def physLeaf (s : State) (l : Nat) : Nat :=
  leafY l * 48 + 4 * (homeCol s (boughOf l) % 12) + leafX l % 4

/-- The first 16 bytes of a defect entry (R578). -/
def defectHead (d : Defect) (index : Nat) : Nat :=
  index + d.kind.toNat * 2 ^ 24 + d.position.toNat * 2 ^ 32 + d.test.toNat * 2 ^ 88 + d.data.toNat * 2 ^ 96

/-- The whole 32-byte entry (R578). -/
def defectEntry (d : Defect) (index : Nat) : List Byte :=
  leBytes (defectHead d index + d.timeUs % 2 ^ 48 * 2 ^ 176 + d.boot % 2 ^ 32 * 2 ^ 224) 32

/-- Every defect in force: listed, past the list's end (R580), or cleared but still in service terms (R581). -/
def effDefects (s : State) : List Defect := s.mram.defects ++ s.boot.unlisted ++ s.boot.hidden

def hasDefect (s : State) (kind pos : Nat) : Bool :=
  (effDefects s).any (fun d => d.kind.toNat = kind && d.position.toNat = pos)

/-- A new entry is appended and DEFECT_ADDED raised; past 8,192 entries it is kept unlisted until PORST_N (R580). -/
def addDefect (s : State) (x : Site) : State :=
  let d : Defect := { kind := x.kind, position := x.position, test := x.test, data := x.data,
                      boot := s.mram.bootCount, timeUs := s.clk.us }
  let n := s.mram.defects.length
  if n < 8192 then
    raise { s with mram := { s.mram with defects := s.mram.defects ++ [d] } } 0x0A n x.kind.toNat (defectHead d n)
  else
    raise { s with boot := { s.boot with unlisted := s.boot.unlisted ++ [d] } } 0x0A 0xFFFF x.kind.toNat
      (defectHead d 0xFFFF)

/-! ## Leaf faults and fences -/

/-- A timed group stops (R290, R304, R601): DETAIL 1, 2. -/
def stopGroup (s : State) (g detail l : Nat) : State :=
  raise (setGroup s g { groupOf s g with arm := false, goAt := none, stopped := true })
    0x42 g detail l

/-- The value of fault_pc for the instruction at the leaf's index: task in [31:30], index below (R67). -/
def pcOf (x : Leaf) : Nat := x.task * 2 ^ 30 + x.pc % 2 ^ 30

/-- A VLDX or VSTX under way whose instruction is discarded: its stores and its push stand (R106, R112). -/
def dropIdx (i : Option IdxOp) : Option IdxOp :=
  i.bind (fun o => if o.store || o.pushed then some { o with dropped := true } else none)

/-- FAULTED (R111, R112): no further issue, fault_code, fault_pc and LEAF_FAULT, whose address is 0 but for the faults of a scratchpad
address (DESIGN CHOICE, log 144: R111 does not say which are data faults); a flow member leaves its region
(R336); a fault inside a re-run stops the group (R304). -/
def faultCore (s : State) (l code fpc addr : Nat) : State :=
  let x := leafOf s l
  let s1 := setLeaf s l { x with
    run := .faulted, faultCode := BitVec.ofNat 8 code, faultPc := BitVec.ofNat 32 fpc, wait := none, stall := none,
    errs := [], idx := dropIdx x.idx,
    sw := { x.sw with leaveDue := if x.sw.joined = none then x.sw.leaveDue else x.sw.joined } }
  let s2 := raise s1 0x20 l code (fpc + addr % 2 ^ 32 * 2 ^ 32)
  if x.sw.held then stopGroup s2 (slotGroup x.sw.cur) 2 l else s2

/-- The leaf enters HALTED; a flow member leaves its region (R336). -/
def haltLeaf (x : Leaf) : Leaf :=
  { x with run := .halted, wait := none, stall := none
           sw := { x.sw with leaveDue := if x.sw.joined = none then x.sw.leaveDue else x.sw.joined } }

/-- A member of a timed group that a fence stops: it halts, or halts at its STEP.END (R601). -/
def haltMember (x : Leaf) : Leaf :=
  if memberAny x && x.run = .running then
    if x.step.shadow = none && !x.sw.held then haltLeaf x
    else { x with sw := { x.sw with stopped := true } }
  else x

/-- Fencing a leaf: it faults FENCED unless it has faulted (R600), and its timed groups stop (R601). -/
def fenceLeaf (s : State) (l : Nat) : State :=
  if leafFenced s l then s else
  let x := leafOf s l
  let s1 : State := { s with boot := { s.boot with fencedLeaves := mset false s.boot.fencedLeaves l true } }
  let s2 := if x.run = .faulted then s1 else faultCore s1 l 0x12 (pcOf x) 0
  let gs := (List.range 16).filter (fun g => memberOf x g && !(groupOf s2 g).stopped)
  gs.foldl (fun t g => stopGroup t g 2 l) s2

/-- Every member of a timed group outside the fence halts, at once or at its STEP.END (R601). -/
def haltMembers (s : State) (fenced : List Nat) : State :=
  s.leaves.foldl (fun t p => if fenced.contains p.1 then t else modLeaf t p.1 haltMember) s

def fenceLeaves (s : State) (ls : List Nat) : State := haltMembers (ls.foldl fenceLeaf s) ls

/-- The units a failure fences (R599), and UNIT_FENCED and the new defect (R598). -/
def failUnit (s : State) (x : Site) : State :=
  let pos := x.position.toNat
  let boughOfPhys (p : Nat) : List Nat := match boughAt s p with
    | some b => [b]
    | none => []
  let mark (t : State) : State :=
    match x.kind.toNat with
    | 1 =>
      let p := pos / 48 / 4 * 12 + pos % 48 / 4
      fenceLeaves t ((boughOfPhys p).map (fun b => boughLeaf b (pos / 48 % 4 * 4 + pos % 4)))
    | 2 =>
      let bs := boughOfPhys pos
      fenceLeaves { t with boot := { t.boot with fencedBoughs := bs.foldl (fun m b => mset false m b true) t.boot.fencedBoughs } }
        (bs.flatMap (fun b => (List.range 16).map (boughLeaf b)))
    | 3 =>
      let bs := boughOfPhys (pos % 256)
      fenceLeaves { t with boot := { t.boot with fencedBoughs := bs.foldl (fun m b => mset false m b true) t.boot.fencedBoughs } }
        (bs.flatMap (fun b => (List.range 16).map (boughLeaf b)))
    | 4 => { t with boot := { t.boot with fencedColumns := mset false t.boot.fencedColumns pos true } }
    | 5 => { t with boot := { t.boot with fencedTrunks := mset false t.boot.fencedTrunks pos true } }
    | _ => t
  addDefect (raise (mark s) 0x0B (pos % 65536) x.kind.toNat 0) x

/-- A leaf fault at fault_pc `fpc`; PARITY_LIMIT also fences the leaf and records it (R113, R599). -/
def leafFault (s : State) (l code fpc addr : Nat) : State :=
  let t := faultCore s l code fpc addr
  if code = 0x0C then
    failUnit t { kind := 1, position := BitVec.ofNat 32 (physLeaf s l), test := 0x0E,
                 data := (leafOf t l).faultPc }
  else t

end Sys2Proof.Machine
end

