-- ==== Sys2Proof/Machine/Operands.lean ====
section
/-! DEFINITION. The leaf's operands and the issue of an instruction: registers, guards, queues and ports, effects,
loops, special registers and the data window (R62 to R76, R84 to R94, R100 to R107). -/
namespace Sys2Proof.Machine

/-! ## Registers (R62) -/

def zeroLanes : Lanes := List.replicate 16 0

/-- s0 reads as zero (R62). -/
def sreg (x : Leaf) (n : Nat) : Word := if n = 0 then 0 else mget 0 x.sregs n

/-- A write of s0 is discarded (R62). -/
def setS (x : Leaf) (n : Nat) (v : Word) : Leaf := if n = 0 then x else { x with sregs := mset 0 x.sregs n v }

/-- Register pair: sn low, sn+1 high (R73). -/
def spair (x : Leaf) (n : Nat) : DWord := BitVec.ofNat 64 ((sreg x n).toNat + 2 ^ 32 * (sreg x (n + 1)).toNat)

def vreg (x : Leaf) (n : Nat) : Lanes := mget zeroLanes x.vregs n

def setV (x : Leaf) (n : Nat) (v : Lanes) : Leaf := { x with vregs := mset zeroLanes x.vregs n v }

def lane (v : Lanes) (i : Nat) : Word := v.getD i 0

def mkLanes (f : Nat → Word) : Lanes := (List.range 16).map f

def pget (x : Leaf) (n : Nat) : Bool := x.preds.getLsbD n

def setP (x : Leaf) (n : Nat) (b : Bool) : Leaf :=
  { x with preds := if b then x.preds ||| BitVec.ofNat 8 (2 ^ n) else x.preds &&& ~~~(BitVec.ofNat 8 (2 ^ n)) }

def vmask (x : Leaf) (n : Nat) : BitVec 16 := mget 0 x.masks n

def setM (x : Leaf) (n : Nat) (v : BitVec 16) : Leaf := { x with masks := mset 0 x.masks n v }

/-- Guard (R69). -/
def guardOn (x : Leaf) (g : BitVec 4) : Bool :=
  if g = 0 then true else pget x (g.toNat % 8) = g.getLsbD 3

/-- Lanes selected by MK (R72). -/
def selMask (x : Leaf) (mk : Nat) : BitVec 16 :=
  if mk = 0 then 0xFFFF else if mk < 4 then ~~~(vmask x mk) else vmask x (mk % 4)

/-- Selected lanes of `new`, other lanes of `old` (R72). -/
def mergeLanes (sel : BitVec 16) (new old : Lanes) : Lanes :=
  mkLanes (fun i => if sel.getLsbD i then lane new i else lane old i)

/-! ## Readiness (R75, R76): keys 0–31 scalar, 32–47 vector, 64–67 mask registers, 200–207 queue heads (R89) -/

def markReady (x : Leaf) (key t : Nat) : Leaf := { x with readyAt := mset 0 x.readyAt key t }

/-- Result of latency `lat` of an instruction issued in cycle `t`. -/
def writeS (x : Leaf) (n : Nat) (v : Word) (t lat : Nat) : Leaf :=
  if n = 0 then x else markReady (setS x n v) n (t + lat)

def writePair (x : Leaf) (n : Nat) (v : DWord) (t lat : Nat) : Leaf :=
  writeS (writeS x n (BitVec.ofNat 32 v.toNat) t lat) (n + 1) (BitVec.ofNat 32 (v.toNat / 2 ^ 32)) t lat

def writeV (x : Leaf) (n : Nat) (v : Lanes) (t lat : Nat) : Leaf := markReady (setV x n v) (32 + n) (t + lat)

def writeM (x : Leaf) (n : Nat) (v : BitVec 16) (t lat : Nat) : Leaf := markReady (setM x n v) (64 + n) (t + lat)

/-- Readiness keys of a vector operand field: a register or a queue's head. -/
def vkey (n : Nat) : List Nat := if n < 16 then [32 + n] else if n < 20 then [184 + n] else []

def mkey (mk : Nat) : List Nat := if mk = 0 then [] else [64 + mk % 4]

/-! ## Queues, ports and effects (R88 to R91, R105, R106) -/

/-- Queue ids 0–3 are vq, 4–7 sq; port ids 0–1 are vx, 2–3 sx. -/
def qcap (q : Nat) : Nat := if q < 4 then 8 else 16

def queueOf (x : Leaf) (q : Nat) : Queue := mget {} x.queues q

def setQueue (x : Leaf) (q : Nat) (v : Queue) : Leaf := { x with queues := mset {} x.queues q v }

def portToks (x : Leaf) (p : Nat) : List Tok := mget [] x.ports p

def setPortToks (x : Leaf) (p : Nat) (v : List Tok) : Leaf := { x with ports := mset [] x.ports p v }

def qFlow (x : Leaf) (q : Nat) : Bool := if q < 4 then slotVFlow x.sw.cur else slotSFlow x.sw.cur

def pFlow (x : Leaf) (p : Nat) : Bool := if p < 2 then slotVFlow x.sw.cur else slotSFlow x.sw.cur

def qHead (x : Leaf) (q : Nat) : Option Tok := let v := queueOf x q
  v.toks[v.ret]?

/-- The cycle from which a source is ready: a register's result (R76). A queue's head makes no instruction wait: `popBlock`
says what an instruction meets there (R88, R89). -/
def keyReady (x : Leaf) (k : Nat) : Nat := if k < 200 then mget 0 x.readyAt k else 0

/-- Tokens a port holds; markers use no entry (R331). -/
def pUsed (x : Leaf) (p : Nat) : Nat := ((portToks x p).filter (fun t => !t.marker)).length

def pSpace (x : Leaf) (p : Nat) : Bool := pUsed x p < 2

/-- Why an instruction does not complete. -/
inductive Block where
  | stall (w : Stall)
  | fault (code : Nat)
  deriving DecidableEq, Repr

/-- What stands in cycle `t` against popping queue `q` (R88, R89, R105, R350); `pops` is false for SQTAG. -/
def popBlock (x : Leaf) (t q : Nat) (pops : Bool) : Option Block :=
  let v := queueOf x q
  let empty : Option Block := if qFlow x q then some (.stall .queueEmpty) else some (.fault 0x05)
  if pops && x.step.shadow ≠ none && v.ret ≥ qcap q then some (.fault 0x08)
  else match qHead x q with
    | some k => if t < k.ready then empty else if pops && k.bad then some (.fault 0x11) else none
    | none => empty

/-- The next effect of the step is one that a re-run suppresses (R106). -/
def suppressed (x : Leaf) : Bool := x.step.shadow ≠ none && x.step.seen < x.step.issued

/-- What stands against a push to port `p` (R88); a push that a re-run suppresses asks nothing of the port (R106, R110). -/
def pushBlock (x : Leaf) (p : Nat) : Option Block :=
  if suppressed x || pSpace x p then none else if pFlow x p then some (.stall .portFull) else some (.fault 0x06)

def timedMark (x : Leaf) (flow : Bool) : Leaf :=
  if flow then x else { x with step := { x.step with timedUse := x.step.timedUse || x.step.shadow ≠ none } }

/-- Pops a queue that `popBlock` lets be popped: retained inside a step, removed outside (R105). -/
def popQ (x : Leaf) (q : Nat) : Leaf :=
  let v := queueOf x q
  timedMark (setQueue x q (if x.step.shadow ≠ none then { v with ret := v.ret + 1 } else { v with toks := v.toks.drop 1 }))
    (qFlow x q)

/-- Tokens leave a port in the order of their pushes: one that would be available sooner waits behind those ahead of it
(DESIGN CHOICE, log 120). -/
def pushP (x : Leaf) (p : Nat) (t : Tok) : Leaf :=
  timedMark (setPortToks x p (portToks x p ++ [{ t with ring := x.ring }])) (pFlow x p)

/-- One effect of the step in progress: whether it is performed, or suppressed in a re-run; none past 65,535 (R106). -/
def effect (x : Leaf) : Option (Bool × Leaf) :=
  if x.step.shadow = none then some (true, x)
  else
    let seen := x.step.seen + 1
    if seen > 65535 then none
    else if seen ≤ x.step.issued then some (false, { x with step := { x.step with seen := seen } })
    else some (true, { x with step := { x.step with seen := seen, issued := seen } })

/-! ## Loops (R84 to R87) -/

/-- After the instruction at `pc` issues: the sequencer's next index and loops (R85). -/
def seqNext (x : Leaf) (pc : Nat) : Nat × List LoopRec :=
  match x.loops with
  | r :: rest =>
    if pc = r.fin then
      if r.count.toNat ≤ 1 then (pc + 1, rest) else (r.start, { r with count := r.count - 1 } :: rest)
    else (pc + 1, x.loops)
  | [] => (pc + 1, [])

/-- A taken branch deactivates every loop whose body its target leaves, and those inside it (R87). -/
def keepLoops (loops : List LoopRec) (target : Nat) : List LoopRec :=
  (loops.foldr (fun r acc => if acc.2 && r.start ≤ target && target ≤ r.fin then (r :: acc.1, true)
                             else (acc.1, false)) (([] : List LoopRec), true)).1

/-! ## Time -/

/-- The core's cycle: CCLK cycles but those in which its timed member did not advance (R296, R300). -/
def leafNow (s : State) (x : Leaf) : Nat := s.clk.cclk - x.sw.lag

/-- The member has yet to perform its group cycle of this CCLK cycle, and the core with it (R296, R298, R300); during its own
re-run the core runs alone (R302). -/
def memberWaits (s : State) (x : Leaf) : Bool := x.sw.running && !x.sw.held && x.sw.advAt ≠ s.clk.cclk + 1

/-- The crown's leaves have their clock: COMPUTE, no trip, no step change with the clock stopped (R602, R616, R620). -/
def crownRuns (s : State) : Bool :=
  s.boot.phase = .compute && !s.gov.tripped && (match s.gov.change with
    | some c => c.stage ≠ 1
    | none => true)

/-- The leaf exists, runs, waits for nothing, is not fenced, and its ring point has placed its markers (R331). -/
def canIssue (s : State) (l : Nat) : Bool :=
  let x := leafOf s l
  crownRuns s && leafOk s l && !leafFenced s l && x.run = .running && x.wait = none
    && !(x.sw.markerDue && decide (x.sw.ringAt < s.clk.cclk))

/-- A held leaf that has issued as many instructions as it had at the error waits for its rejoin (R302). -/
def rejoinDue (x : Leaf) : Bool :=
  x.sw.held && (match x.step.recorded with
    | some r => x.step.insns ≥ r.1
    | none => false)

/-! ## Issue -/

/-- How an instruction's effect ends: the state with its effect, to which the sequencer is still to be applied; a state
in which it still waits; a jump; a stall; a fault with its task-relative address, in the old state or a new one. -/
inductive Res where
  | done (s : State)
  | hold (s : State) (w : Stall)
  | jump (s : State) (pc delay : Nat)
  | block (b : Block)
  | fault (code addr : Nat)
  | faultIn (s : State) (code : Nat)
  deriving DecidableEq, Repr

/-- The instruction has issued in cycle `t`: next index, next issue cycle, the step's instruction count and the cycle of
its first issue (R75, R301). -/
def retire (s : State) (l t pc : Nat) (loops : List LoopRec) (delay : Nat) (inStep : Bool) : State :=
  modLeaf s l (fun x => { x with
    pc := pc, loops := loops, nextIssue := t + delay, stall := none,
    step := if inStep && x.step.shadow ≠ none then
        { x.step with insns := x.step.insns + 1, cycles := if x.step.insns = 0 then t else x.step.cycles, reached := t + 1 }
      else x.step })

/-- Sequencer step after an instruction at `pc` that does not jump (R85). -/
def advance (s : State) (l t pc : Nat) (inStep : Bool) : State :=
  let n := seqNext (leafOf s l) pc
  retire s l t n.1 n.2 1 inStep

def stallLeaf (s : State) (l : Nat) (w : Stall) : State := modLeaf s l (fun x => { x with stall := some w })

def fetchWord (x : Leaf) : Nat :=
  (mget 0 x.istore (fld (mget 0 x.tcode x.task).toNat 0 12 + x.pc)).toNat

/-- Sources not yet returned by RLDW or GRD, by a cache fill, or by the rows of a VLDX still to be granted; and the scratchpad
path (96), which a VLDX or VSTX keeps until its last row is granted (R98, R124, R164). -/
def awaits (x : Leaf) (n : Nat) : Bool :=
  (n ≠ 0 && (x.loads.any (fun p => p.d = n || (p.pair && p.d + 1 = n))
    || x.cache.misses.any (fun m => m.store = none && m.d = n)))
  || x.idx.any (fun o => n = 96 || (!o.store && !o.dropped && o.d < 16 && 32 + o.d = n))

/-- The cycle in which the leaf's next instruction can issue: not before the last one's successor, its sources (`srcs`), and
for VFALU, VCVT and VXF (`fp`) the free unit (R75, R76). -/
def issueCycle (s : State) (x : Leaf) (srcs : List Nat) (fp : Bool) : Nat :=
  let ready := srcs.foldl (fun m k => max m (keyReady x k)) (max x.nextIssue (leafNow s x))
  if fp then max ready x.fpFree else ready

/-- An instruction command: the instruction that stands at the leaf's index issues when it is the command's own and the
leaf can issue it (R63, R69, R74 to R76); one whose cycle has not come stalls until it has. `srcs` are its readiness keys; `fp`
marks VFALU, VCVT and VXF. -/
def issue (s : State) (l word : Nat) (g : BitVec 4) (srcs : List Nat) (fp : Bool) (body : State → Nat → Res) : State :=
  let x := leafOf s l
  if !canIssue s l then s
  else if x.nextIssue > leafNow s x || memberWaits s x then stallLeaf s l .operand
  else if x.pc ≥ fld (mget 0 x.tcode x.task).toNat 16 13 then leafFault s l 0x02 (pcOf x) 0
  else if !legalWord (fetchWord x) then leafFault s l 0x01 (pcOf x) 0
  else if fetchWord x ≠ word then s
  else
    let on := guardOn x g
    let inStep := decide (x.step.shadow ≠ none)
    let t := issueCycle s x (if on then srcs else []) (on && fp)
    if x.errs.any (fun e => e.at_ ≤ s.clk.cclk) || rejoinDue x then stallLeaf s l .rerun
    else if t > leafNow s x then stallLeaf s l .operand
    else if !on then advance s l t x.pc inStep
    else if srcs.any (awaits x) then stallLeaf s l .operand
    else
      match body s t with
      | .done s1 => advance s1 l t x.pc inStep
      | .hold s1 w => stallLeaf s1 l w
      | .jump s1 pc delay => retire s1 l t pc (leafOf s1 l).loops delay inStep
      | .block (.stall w) => stallLeaf s l w
      | .block (.fault c) => leafFault (if c = 0x11 then bumpNet s l 22 1 else s) l c (pcOf x) 0
      | .fault c a => leafFault s l c (pcOf x) a
      | .faultIn s1 c => leafFault s1 l c (pcOf x) 0

/-- A body that changes only the leaf's own registers. -/
def regBody (l : Nat) (f : Leaf → Nat → Leaf) : State → Nat → Res :=
  fun s t => .done (modLeaf s l (fun x => f x t))

/-! ## Vector operands (R70, R71, R90) -/

/-- Queues that the vector source fields name, each once. -/
def vqs (fields : List Nat) : List Nat := (fields.filter (fun n => 16 ≤ n)).map (fun n => n - 16) |>.eraseDups

/-- First obstacle among pops and pushes (R90). The pops stand before the pushes, each in the order of the fields: where one
obstacle would stall and another fault, the first decides (DESIGN CHOICE, log 121). -/
def firstBlock (bs : List (Option Block)) : Option Block := bs.findSome? id

/-- Value of a vector source: the register, or the queue's head token (R71). -/
def vval (x : Leaf) (n : Nat) : Lanes :=
  if n < 16 then vreg x n else match qHead x (n - 16) with
    | some t => t.data
    | none => zeroLanes

/-- Pops every queue named, each once. -/
def popAll (x : Leaf) (qs : List Nat) : Leaf := qs.foldl popQ x

/-- Writes a vector result of latency `lat` under `sel`: a register, or a port push, which is an effect (R72, R89, R106). -/
def putV (x : Leaf) (d : Nat) (sel : BitVec 16) (v : Lanes) (t lat : Nat) : Option Leaf :=
  if d < 16 then some (writeV x d (mergeLanes sel v (vreg x d)) t lat)
  else match effect x with
    | none => none
    | some (true, y) => some (pushP y (d - 24) { data := v, ready := t + lat })
    | some (false, y) => some y

/-- Obstacles in cycle `t` of an instruction with vector sources `srcs` and vector destination `d`. -/
def vBlock (x : Leaf) (t : Nat) (srcs : List Nat) (d : Nat) : Option Block :=
  firstBlock ((vqs srcs).map (fun q => popBlock x t q true) ++ (if d ≥ 24 then [pushBlock x (d - 24)] else []))

/-- A vector instruction: sources popped, a result for the destination. -/
def vecBody (l : Nat) (srcs : List Nat) (d : Nat) (f : Leaf → Nat → Leaf × BitVec 16 × Lanes × Nat) : State → Nat → Res :=
  fun s t =>
    let x := leafOf s l
    match vBlock x t srcs d with
    | some b => .block b
    | none =>
      let r := f x t
      match putV (popAll r.1 (vqs srcs)) d r.2.1 r.2.2.1 t r.2.2.2 with
      | some y => .done (setLeaf s l y)
      | none => .fault 0x08 0

/-! ## Data window (R64) -/

/-- Physical byte of a task-relative access of `n` bytes, or the fault. -/
def dataAddr (x : Leaf) (o n : Nat) : Except Nat Nat :=
  let td := (mget 0 x.tdata x.task).toNat
  if o % n ≠ 0 then .error 0x04
  else if o + n > fld td 16 13 * 64 then .error 0x03
  else .ok (fld td 0 12 * 64 + o)

/-! ## Special registers (R65, R67) -/

/-- Rows below the cache (R160, R161). -/
def rowsUnder (size : BitVec 2) : Nat :=
  match size.toNat with
  | 0 => 4096
  | 1 => 3072
  | _ => 2048

/-- Rows of a leaf that are not its cache's. -/
def usableRows (x : Leaf) : Nat := rowsUnder x.cache.size

/-- What MFSR reads in core cycle `t` (R67); SR 13 and 14 count CCLK cycles since the leaf's start, those of a hold too. -/
def srRead (l : Nat) (x : Leaf) (t n : Nat) : Option Word :=
  let cyc := t + x.sw.lag - x.startCycle
  if n = 0 then some (BitVec.ofNat 32 x.pc)
  else if n = 1 then some (BitVec.ofNat 32 x.task)
  else if n = 2 then some (x.rm.setWidth 32)
  else if n = 3 then some (x.vstat.setWidth 32)
  else if n = 4 then some (BitVec.ofNat 32 l)
  else if n = 5 then some (x.faultCode.setWidth 32)
  else if n = 6 then some x.faultPc
  else if n = 7 then some (BitVec.ofNat 32 x.reruns)
  else if n = 8 then some (BitVec.ofNat 32 x.rerunTotal)
  else if n = 9 then some (BitVec.ofNat 32 x.remRefused)
  else if n = 10 then some (x.remLast.setWidth 32)
  else if n = 11 then some (BitVec.ofNat 32 x.rem.length)
  else if n = 12 then some (x.ring.setWidth 32)
  else if n = 13 then some (BitVec.ofNat 32 cyc)
  else if n = 14 then some (BitVec.ofNat 32 (cyc / 2 ^ 32))
  else if 16 ≤ n && n ≤ 19 then some (mget 0 x.tcode (n - 16))
  else if 20 ≤ n && n ≤ 23 then some (mget 0 x.tdata (n - 20))
  else if 24 ≤ n && n ≤ 27 then
    match x.loops.find? (fun r => r.k = n - 24) with
    | some r => some r.count
    | none => some 0
  else none

/-- A window value fits its store (R65, R161). -/
def windowOk (v lim : Nat) : Bool := fld v 29 3 = 0 && fld v 12 4 = 0 && fld v 0 12 + fld v 16 13 ≤ lim

/-- MTSR: the leaf with the register written, or the fault code (R65, R67, R161). A value that does not fit faults SR_VALUE also
where the window is the executing task's, which would fault TASK_STATE (DESIGN CHOICE, log 122). -/
def srWrite (x : Leaf) (n : Nat) (v : Word) : Except Nat Leaf :=
  if n = 2 then if v.toNat ≤ 4 then .ok { x with rm := v.setWidth 3 } else .error 0x0B
  else if n = 3 then if v.toNat < 32 then .ok { x with vstat := v.setWidth 5 } else .error 0x0B
  else if 16 ≤ n && n ≤ 19 then
    if !windowOk v.toNat 4096 then .error 0x0B
    else if n - 16 = x.task then .error 0x0A
    else .ok { x with tcode := mset 0 x.tcode (n - 16) v }
  else if 20 ≤ n && n ≤ 23 then
    if !windowOk v.toNat (usableRows x) then .error 0x0B
    else if n - 20 = x.task then .error 0x0A
    else .ok { x with tdata := mset 0 x.tdata (n - 20) v }
  else .error 0x0B

/-- Sticky IEEE flags (R67, R80). -/
def raiseFlags (x : Leaf) (fl : Nat) : Leaf := { x with vstat := x.vstat ||| BitVec.ofNat 5 fl }

/-- Flags of the selected lanes, joined. -/
def laneFlags (sel : BitVec 16) (fs : List Nat) : Nat :=
  (List.range 16).foldl (fun acc i => if sel.getLsbD i then acc ||| fs.getD i 0 else acc) 0

/-- Address generator: the task-relative offset it stands at, and its advance (R83). -/
def agAddr (a : AddrGen) : Nat := (a.base + a.index * a.stride).toNat

def agStep (a : AddrGen) : AddrGen :=
  let i := a.index + 1
  { a with index := if a.count ≠ 0 && i = a.count then 0 else i }

def agOf (x : Leaf) (n : Nat) : AddrGen := mget {} x.ags n

def setAg (x : Leaf) (n : Nat) (a : AddrGen) : Leaf := { x with ags := mset {} x.ags n a }

/-- A wait completes: pair D, predicate PD, next issue in the following cycle (R95, R382). -/
def endWait (x : Leaf) (w : Wait) (v : DWord) (ok : Bool) (u : Nat) : Leaf :=
  { setP (writePair x w.d v u 1) w.pd ok with wait := none, nextIssue := u + 1 }

end Sys2Proof.Machine
end

