-- ==== Sys2Proof/Machine/Spad.lean ====
section
/-! DEFINITION. The scratchpad as its requesters see it: stored words with parity and poison, the banks' arbitration, the
write-gather buffer, deposits on their way, the scoreboard, remote windows (R114 to R159). -/
namespace Sys2Proof.Machine

/-! ## Storage (R115, R154) -/

/-- Words of one row written under `mask`, those of `pm` with poison: parity, poison and address parity follow (R154). -/
def putRow (s : State) (l row : Nat) (mask pm : BitVec 16) (v : Lanes) : State :=
  let ws := (List.range 16).filter (fun i => mask.getLsbD i)
  let x := leafOf s l
  let s1 := ws.foldl (fun t i => mwrite t (spadOff l (row * 64 + 4 * i)) (leBytes (lane v i).toNat 4)) s
  if ws = [] then s else
  setLeaf s1 l { x with
    badWord := ws.foldl (fun m i => mset false m (row * 16 + i) false) x.badWord
    poisonWord := ws.foldl (fun m i => mset false m (row * 16 + i) (pm.getLsbD i)) x.poisonWord
    badRow := mset false x.badRow row false }

/-- Physical bytes written word by word (R175: the range is word aligned). -/
def putBytes (s : State) (l b : Nat) (bs : List Byte) (poison : Bool) : State :=
  let ws := (List.range (bs.length / 4)).map (fun i => b / 4 + i)
  let x := leafOf s l
  setLeaf (mwrite s (spadOff l b) bs) l { x with
    badWord := ws.foldl (fun m w => mset false m w false) x.badWord
    poisonWord := ws.foldl (fun m w => mset false m w poison) x.poisonWord
    badRow := ws.foldl (fun m w => mset false m (w / 16) false) x.badRow }

/-- Words of a byte range. -/
def wordsOf (b n : Nat) : List Nat := (List.range ((b + n + 3) / 4 - b / 4)).map (fun i => b / 4 + i)

/-- Rows of a byte range (R114). -/
def rowsOf (b n : Nat) : List Nat := (List.range ((b + n + 63) / 64 - b / 64)).map (fun i => b / 64 + i)

/-- The bits of `m` among the words of a row, for a map of marked words. -/
def rowBits (m : SMap Bool) (row : Nat) : BitVec 16 :=
  BitVec.ofNat 16 ((List.range 16).foldl (fun n i => n + b2n (mget false m (row * 16 + i)) * 2 ^ i) 0)

/-! ## Bank arbitration (R119 to R123): requesters CORE 0, GATHER 1, ENGINE 2, DMA 3, REMOTE 4 -/

def bankOf (x : Leaf) (b : Nat) : Bank := mget {} x.banks b

def setBank (x : Leaf) (b : Nat) (k : Bank) : Leaf := { x with banks := mset {} x.banks b k }

/-- The first cycle of requester `q`'s request, which it has repeated in every cycle since, else this cycle (R123). -/
def askedSince (k : Bank) (now q : Nat) : Nat :=
  match k.waits.find? (fun w => w.1 = q && w.2.2.2 + 1 ≥ now) with
  | some w => w.2.2.1
  | none => now

/-- The next row that a VLDX or VSTX under way wants of bank `b`, unless the bank served it in this cycle (R124). -/
def idxRow (x : Leaf) (now b : Nat) : Option (Bool × Nat) :=
  if (bankOf x b).granted = now + 1 && (bankOf x b).ptr = 1 then none
  else x.idx.bind (fun o => ((o.todo.map (fun p => p.2 / 16)).filter (fun r => r % 16 = b)).min?.map (fun r => (o.store, r)))

/-- The requests that stand for bank `b` in cycle `now`: requester, write, first cycle. -/
def bankReqs (x : Leaf) (now b : Nat) : List (Nat × Bool × Nat) :=
  ((bankOf x b).waits.filter (fun w => w.2.2.2 + 1 ≥ now)).map (fun w => (w.1, w.2.1, w.2.2.1))
    ++ (x.gather.filter (fun g => g.row % 16 = b)).filterMap (fun g => match g.want with
        | some w => if w ≤ now then some (1, true, w) else none
        | none => none)
    ++ ((idxRow x now b).map (fun r => (0, r.1, askedSince (bankOf x b) now 0))).toList

/-- Rank of a request: the oldest first, a read before a write, then from the bank's pointer on (R123). -/
def bankRank (ptr : Nat) (r : Nat × Bool × Nat) : Nat := r.2.2 * 16 + b2n r.2.1 * 8 + (r.1 + 5 - ptr) % 5

/-- Requester `q`'s request of bank `b`, made since `since`, is the one granted (R119, R123). -/
def bankWins (x : Leaf) (now b q : Nat) (write : Bool) (since : Nat) : Bool :=
  let k := bankOf x b
  decide (k.granted ≠ now + 1)
    && (bankReqs x now b).all (fun r => decide (bankRank k.ptr (q, write, since) ≤ bankRank k.ptr r) || r.1 = q)

/-- The grant: no other in this cycle, and the pointer moves on, whatever decided (R119, R123; DEDUCED, log 125). -/
def bankGrant (x : Leaf) (now q b : Nat) : Leaf :=
  let k := bankOf x b
  setBank x b { ptr := (q + 1) % 5, granted := now + 1, waits := k.waits.filter (fun w => w.1 ≠ q) }

/-- A lost request keeps its age and asks again in the next cycle (R123). -/
def bankLose (write : Bool) (x : Leaf) (now q b : Nat) : Leaf :=
  let k := bankOf x b
  setBank x b { k with waits := k.waits.filter (fun w => w.1 ≠ q && w.2.2.2 + 1 ≥ now) ++ [(q, write, askedSince k now q, now)] }

/-- Requester `q` asks for the banks of `rows`: all are granted, or each keeps its request. -/
def askBanks (x : Leaf) (now q : Nat) (rows : List Nat) (write : Bool) : Bool × Leaf :=
  let bs := (rows.map (fun r => r % 16)).eraseDups
  if bs.all (fun b => bankWins x now b q write (askedSince (bankOf x b) now q)) then
    (true, bs.foldl (fun y b => bankGrant y now q b) x)
  else (false, bs.foldl (fun y b => bankLose write y now q b) x)

/-! ## Write-gather buffer (R129 to R136) -/

def gatherOf (x : Leaf) (row : Nat) : Option Gather := x.gather.find? (fun g => g.row = row)

/-- The entry requests its drain from cycle `c` at the latest (R131). -/
def wantFrom (c : Nat) (g : Gather) : Gather :=
  { g with want := some (match g.want with
      | some w => min w c
      | none => c) }

/-- Words of a row whose slot-B write stands in the bank order but has its bank cycle still to come: a store cannot enter
them (R135). -/
def depositMask (x : Leaf) (row : Nat) : BitVec 16 :=
  x.deposits.foldl (fun m d => if d.settled && d.word / 16 = row then
    m ||| BitVec.ofNat 16 ((2 ^ d.vals.length - 1) * 2 ^ (d.word % 16)) else m) 0

/-- A store enters the buffer in cycle `now`: merged, or in a free entry; none when all eight are in use. A full entry requests
its drain at once, that of row 0 in the next cycle (R129 to R131, R135). -/
def gatherPut (x : Leaf) (now row : Nat) (mask : BitVec 16) (v : Lanes) : Option Leaf :=
  let m := mask &&& ~~~(depositMask x row)
  let put (g : Gather) : Gather :=
    let h : Gather := { g with valid := g.valid ||| m, data := mergeLanes m v g.data, bad := g.bad &&& ~~~m }
    if (g.valid ||| mask) = 0xFFFF then wantFrom now h else if row = 0 then wantFrom (now + 1) h else h
  match gatherOf x row with
  | some _ => some { x with gather := x.gather.map (fun g => if g.row = row then put g else g) }
  | none =>
    if x.gather.length < 8 then
      some { x with gather := x.gather ++ [put { row := row, valid := 0, data := zeroLanes }] }
    else none

/-- The oldest entry requests its drain (R131). -/
def wantOldest (x : Leaf) (now : Nat) : Leaf :=
  match x.gather with
  | g :: r => { x with gather := wantFrom now g :: r }
  | [] => x

/-- Another requester wants these rows: their entries request their drains (R131, R133). -/
def wantRows (x : Leaf) (now : Nat) (rows : List Nat) : Leaf :=
  { x with gather := x.gather.map (fun g => if rows.contains g.row then wantFrom now g else g) }

def buffered (x : Leaf) (rows : List Nat) : Bool := x.gather.any (fun g => rows.contains g.row)

/-! ## Slot B (R119, R125, R135) -/

/-- A slot-B write takes the valid bits of its words out of a buffer entry (R135). -/
def slotB (s : State) (l word : Nat) (vals : List Word) : State :=
  let row := word / 16
  let mask : BitVec 16 := BitVec.ofNat 16 ((2 ^ vals.length - 1) * 2 ^ (word % 16))
  let v := mkLanes (fun i => if word % 16 ≤ i then vals.getD (i - word % 16) 0 else 0)
  modLeaf (putRow s l row mask 0 v) l (fun x =>
    { x with gather := x.gather.map (fun g => if g.row = row then { g with valid := g.valid &&& ~~~mask } else g) })

/-- A deposit that stands in its bank before an access granted in cycle `now`: both take two cycles to the bank, and in one cycle
the slot-A access comes first (R119, R121, R125). -/
def depositDue (now : Nat) (rows : List Nat) (d : Deposit) : Bool :=
  !d.settled && d.at_ < now && rows.contains (d.word / 16)

/-- The deposits that come before an access of these rows in this cycle take their place in the bank order. -/
def settle (s : State) (l : Nat) (rows : List Nat) : State :=
  let now := s.clk.cclk
  let t := ((leafOf s l).deposits.filter (depositDue now rows)).foldl (fun u d => slotB u l d.word d.vals) s
  modLeaf t l (fun x => { x with deposits := x.deposits.map (fun d => if depositDue now rows d then { d with settled := true } else d) })

/-! ## Slot-A writes (R121, R144) -/

/-- Row 0 as it stands. -/
def rowZero (s : State) (l : Nat) : WinRow :=
  let x := leafOf s l
  { before := 0, words := mkLanes (fun i => spadWord s l i), bad := rowBits x.badWord 0, poison := rowBits x.poisonWord 0,
    badRow := mget false x.badRow 0 }

/-- A write of row 0 governs remote accesses granted from the cycle after it reaches the bank (R144). -/
def keepWindows (s : State) (l : Nat) (rows : List Nat) : State :=
  if rows.contains 0 then
    let w := rowZero s l
    modLeaf s l (fun x => { x with winOld := x.winOld ++ [{ w with before := s.clk.cclk + 3 }] })
  else s

/-- The window change of an earlier store is still to take effect (R144). -/
def windowsLate (s : State) (l : Nat) : Bool :=
  let x := leafOf s l
  (gatherOf x 0).isSome || x.winOld.any (fun w => s.clk.cclk < w.before)

/-- Physical bytes written by a granted slot-A access, here in the step of the grant (log 133). -/
def slotAWrite (s : State) (l b : Nat) (bs : List Byte) (poison : Bool) : State :=
  let rows := rowsOf b bs.length
  putBytes (keepWindows (settle s l rows) l rows) l b bs poison

/-- A granted drain writes the valid words and frees the entry (R131). -/
def drainRow (s : State) (l row : Nat) : State :=
  let s1 := settle s l [row]
  match gatherOf (leafOf s1 l) row with
  | some g =>
    modLeaf (putRow (keepWindows s1 l [row]) l row g.valid 0 g.data) l (fun x =>
      { x with gather := x.gather.filter (fun h => h.row ≠ row) })
  | none => s1

/-- GATHER asks for the drain of a row that requests it (R123, R131). -/
def drainAsk (s : State) (l row : Nat) : State :=
  let x := leafOf s l
  let now := s.clk.cclk
  match gatherOf x row with
  | some g => match g.want with
    | some w => if w ≤ now && bankWins x now (row % 16) 1 true w then drainRow (setLeaf s l (bankGrant x now 1 (row % 16))) l row else s
    | none => s
  | none => s

/-- ENGINE's, DMA's or REMOTE's request of rows is granted in this cycle: none of them is held in the buffer, and their banks are
its own (R123, R133). -/
def slotAWins (s : State) (l q : Nat) (rows : List Nat) (write : Bool) : Bool :=
  !buffered (leafOf s l) rows && (askBanks (leafOf s l) s.clk.cclk q rows write).1

def slotAGrant (s : State) (l q : Nat) (rows : List Nat) : State :=
  setLeaf s l ((rows.map (fun r => r % 16)).eraseDups.foldl (fun y b => bankGrant y s.clk.cclk q b) (leafOf s l))

/-- The request stands, and the buffer's entries of its rows request their drains (R123, R131, R133). -/
def slotALose (s : State) (l q : Nat) (rows : List Nat) (write : Bool) : State :=
  setLeaf s l (wantRows ((rows.map (fun r => r % 16)).eraseDups.foldl (fun y b => bankLose write y s.clk.cclk q b) (leafOf s l))
    s.clk.cclk rows)

/-- One such request of one leaf. -/
def slotAAsk (s : State) (l q : Nat) (rows : List Nat) (write : Bool) : Bool × State :=
  if slotAWins s l q rows write then (true, slotAGrant s l q rows) else (false, slotALose s l q rows write)

/-! ## Core reads (R126, R134, R155, R156) -/

/-- The buffer entry from which a core load takes a word (R134). -/
def forwards (x : Leaf) (w : Nat) : Option Gather :=
  x.gather.find? (fun g => g.row = w / 16 && g.valid.getLsbD (w % 16))

/-- A word as a core load granted now reads it, once the deposits before it are settled, with its parity and poison errors. -/
def coreWord (s : State) (l w : Nat) : Word × Bool × Bool :=
  let x := leafOf s l
  match forwards x w with
  | some g => (lane g.data (w % 16), g.bad.getLsbD (w % 16), false)
  | none => (spadWord s l w, mget false x.badWord w || mget false x.badRow (w / 16), mget false x.poisonWord w)

/-- What a load takes from words: those with an error arrive as free values (log 103). -/
def loadWords (s : State) (l : Nat) (ws : List Nat) : State × Lanes :=
  ws.foldl (fun r w =>
    let c := coreWord s l w
    if c.2 = (false, false) then (r.1, r.2 ++ [c.1])
    else
      let d := draw r.1
      (d.2, r.2 ++ [d.1])) (s, [])

/-- Errors of one row's slot-A read granted now are counted (R156) and wait for RE_RUN; the check comes three cycles after the
grant (R121, R155). -/
def rowErrors (s : State) (l fpc : Nat) (live : Bool) (ws : List Nat) : State :=
  let x := leafOf s l
  let own := ws.filter (fun w => (forwards x w).isNone)
  let words := (own.filter (fun w => mget false x.badWord w)).length
    + (ws.filter (fun w => (forwards x w).isSome && (coreWord s l w).2.1)).length
  let rows := (own.map (fun w => w / 16)).eraseDups.filter (fun r => mget false x.badRow r)
  let poi := own.any (fun w => mget false x.poisonWord w)
  if words = 0 && rows = [] && !poi then s else
  let s1 := bumpLeaf (bumpLeaf (bumpLeaf s l 1 words) l 3 rows.length) l 4 (b2n poi)
  if live then
    modLeaf s1 l (fun y => { y with
      errs := y.errs ++ [{ poison := words = 0 && rows = [], pc := fpc, at_ := s.clk.cclk + 3 }] })
  else s1

/-! ## Scoreboard (R147 to R153) -/

/-- A later core access to these words is held (R152). -/
def sbHolds (x : Leaf) (ws : List Nat) (write : Bool) : Bool :=
  x.sb.any (fun e => (e.w || write) && ws.any (fun w => e.lo ≤ w && w ≤ e.hi))

def sbFree (x : Leaf) : Nat := 8 - (x.sb.filter (fun e => !e.freed)).length

/-- Words of `b` that lie in an entry of another operation posted before operation `op` (R152). -/
def sbBefore (x : Leaf) (op : OpId) (lo hi : Nat) (write : Bool) : Bool :=
  (x.sb.takeWhile (fun e => e.op ≠ op)).any (fun e => (e.w || write) && e.lo ≤ hi && lo ≤ e.hi)

/-- The operation's entries that `part` selects are released in cycle `c` (R151). -/
def sbDone (x : Leaf) (op : OpId) (part : SbEntry → Bool) (c : Nat) : Leaf :=
  { x with sb := x.sb.map (fun e => if e.op = op && part e && e.rel = none then { e with rel := some c } else e) }

/-- The entries whose release falls in or before cycle `now` are released; what they hold proceeds in the next cycle (R151,
R153). -/
def sbFreeDue (x : Leaf) (now : Nat) : Leaf :=
  { x with sb := x.sb.map (fun e => if e.rel.any (fun c => c ≤ now) then { e with freed := true } else e) }

/-- A refused operation releases its entries in the cycle of the refusal (R151). -/
def sbRelease (x : Leaf) (op : OpId) (now : Nat) : Leaf := sbFreeDue (sbDone x op (fun _ => true) now) now

/-! ## Remote windows (R137 to R144) -/

/-- Row 0 as it governs remote accesses granted in this cycle (R144). -/
def winRow (s : State) (l : Nat) : WinRow :=
  ((leafOf s l).winOld.find? (fun w => s.clk.cclk < w.before)).getD (rowZero s l)

/-- The eight windows of row 0. -/
def windowVal (w : WinRow) (i : Nat) : Nat := (lane w.words (2 * i)).toNat + 2 ^ 32 * (lane w.words (2 * i + 1)).toNat

/-- Window `i` covers the rows of bytes `b` to `b + n − 1` by its BASE and SIZE. -/
def windowCovers (v b n : Nat) : Bool :=
  fld v 0 12 * 64 ≤ b && b + n ≤ (fld v 0 12 + fld v 16 13) * 64

def windowBad (w : WinRow) (i : Nat) : Bool := w.bad.getLsbD (2 * i) || w.bad.getLsbD (2 * i + 1)

def windowPoisoned (w : WinRow) (i : Nat) : Bool := w.poison.getLsbD (2 * i) || w.poison.getLsbD (2 * i + 1)

/-- A word of the window, or row 0, is damaged (R138). -/
def windowDamaged (w : WinRow) (i : Nat) : Bool := w.badRow || windowBad w i || windowPoisoned w i

/-- Window `i` is treated as disabled for a reason other than damage (R138). -/
def windowOff (x : Leaf) (v : Nat) : Bool :=
  !bit v 63 || fld v 61 2 = 3 || fld v 16 13 = 0 || fld v 0 12 = 0 || fld v 0 12 + fld v 16 13 > usableRows x
    || fld v 29 30 ≠ 0 || fld v 12 4 ≠ 0

/-- SCOPE admits the requester's chiplet; the alias counts as this chiplet (R137, R355). -/
def scopeAdmits (s : State) (v : Nat) (origin : BitVec 17) : Bool :=
  let o := origin.toNat
  match fld v 61 2 with
  | 0 => true
  | 1 => isLocal s o || (groveId s ≠ 0xFFFF && o / 64 = groveId s)
  | _ => isLocal s o

/-- The damaged window in which a refused access would fall, if any (R138). -/
def damagedWindow (s : State) (l b n : Nat) : Option Nat :=
  let w := winRow s l
  (List.range 8).find? (fun i =>
    !windowOff (leafOf s l) (windowVal w i) && windowDamaged w i && windowCovers (windowVal w i) b n)

/-- Some enabled window admits the access, and it falls in no damaged one (R138, R139). -/
def windowAdmits (s : State) (l b n : Nat) (write : Bool) (origin : BitVec 17) : Bool :=
  let w := winRow s l
  damagedWindow s l b n = none && (List.range 8).any (fun i =>
    let v := windowVal w i
    !windowOff (leafOf s l) v && !windowDamaged w i && windowCovers v b n
      && bit v (if write then 60 else 59) && scopeAdmits s v origin)

/-- A refusal under R139: dropped or refused, counted, reported (R138, R141 to R143). A damaged window counts once: bad address
parity of row 0 before a bad word, and that before poison (DESIGN CHOICE, logs 23, 123). -/
def windowRefuse (s : State) (l b n : Nat) (write : Bool) (origin : BitVec 17) : State :=
  let s1 := bumpLeaf s l (if write then 5 else 6) 1
  let s2 := match damagedWindow s l b n with
    | some i =>
      let w := winRow s l
      if w.badRow then bumpLeaf s1 l 3 1 else if windowBad w i then bumpLeaf s1 l 2 1 else bumpLeaf s1 l 4 1
    | none => s1
  raise s2 0x21 l 0 (origin.toNat + b * 2 ^ 32)

/-! ## Reads by the engine, a column controller or a remote requester (R155, R157, R158) -/

/-- Bytes read by a granted slot-A access, with their parity and poison errors; each row is a read of its own. -/
def slotARead (s : State) (l b n : Nat) : State × List Byte × Bool × Bool :=
  let s1 := settle s l (rowsOf b n)
  let x := leafOf s1 l
  let ws := wordsOf b n
  let addr := (rowsOf b n).filter (fun r => mget false x.badRow r)
  let par := (ws.filter (fun w => mget false x.badWord w)).length
  let poi := ((ws.filter (fun w => mget false x.poisonWord w)).map (fun w => w / 16)).eraseDups.length
  let s2 := if par = 0 && addr = [] && poi = 0 then s1
    else bumpLeaf (bumpLeaf (bumpLeaf s1 l 2 par) l 3 addr.length) l 4 poi
  (s2, mread s1 (spadOff l b) n, par ≠ 0 || addr ≠ [], poi ≠ 0)

end Sys2Proof.Machine
end

