-- ==== Sys2Proof/Machine/Heart.lean ====
section
/-! DEFINITION. Heartwood lines: where a byte lies, reads with their check, writes with poison, and what a controller
counts and reports of them (R391 to R396, R408, R409, R421, R431, R433, R436). -/
namespace Sys2Proof.Machine

/-! ## Where a line lies (R391): `line` is the column offset divided by 64 -/

def lineTier (line : Nat) : Nat := line % 16
def lineBank (line : Nat) : Nat := line / 16 % 8
def linePos (line : Nat) : Nat := line / 128 % 32
def lineRow (line : Nat) : Nat := line / 4096 % 8192

/-- A row of a column in one number: tier − 1, bank, row. -/
def rowKey (line : Nat) : Nat := line % 128 + 128 * lineRow line

/-- Local offset of a line of column `c`. -/
def lineOff (c line : Nat) : Nat := c * 0x80000000 + line * 64

/-- The line's number in the whole heartwood. -/
def lineNo (c line : Nat) : Nat := c * 0x2000000 + line

/-! ## Counters (R436): words 0x008 to 0x028 of the status block are keys 0 to 8; tier counters are 0–15 CORRECTED,
16–31 UNCORRECTABLE, 32–47 POISON_READS -/

def bumpCol (s : State) (c k n : Nat) : State :=
  modCol s c (fun x => { x with counters := mmod 0 x.counters k (fun v => sat32 (v + n)) })

def bumpTier (s : State) (c k : Nat) : State :=
  modCol s c (fun x => { x with tierCounters := mmod 0 x.tierCounters k (fun v => sat32 (v + 1)) })

/-- PAYLOAD of the heartwood events (R565). -/
def rowPayload (line : Nat) : Nat := lineRow line + lineBank line * 2 ^ 16

/-! ## Reads -/

inductive LineRead where
  | clean | corrected | uncorrectable | poisoned
  deriving DecidableEq, Repr

/-- What a read of a line delivers, from the check stage's finding and the poison mark (R393, R395). -/
def lineRead (s : State) (c line : Nat) (check : LineCheck) : LineRead :=
  match check with
  | .uncorrectable => .uncorrectable
  | .oneSymbol => if mget false s.hwPoison (lineNo c line) then .poisoned else .corrected
  | .clean => if mget false s.hwPoison (lineNo c line) then .poisoned else .clean
  | .wrong corrected _ => if corrected then .corrected else .clean

/-- The 64 bytes that the check stage takes the line to hold (R393). -/
def lineData (s : State) (c line : Nat) (check : LineCheck) : List Byte :=
  match check with
  | .wrong _ d => leBytes d.toNat 64
  | _ => mread s (lineOff c line) 64

/-- A free value as the check stage's finding, for a line read by a step whose command does not carry it (log 137). -/
def drawCheck (s : State) : LineCheck × State :=
  let f := draw s
  let d := (List.range 16).foldl (fun (r : Nat × State) _ => let w := draw r.2
    (r.1 * 2 ^ 32 + w.1.toNat, w.2)) (0, f.2)
  (match f.1.toNat % 5 with
    | 0 => .clean
    | 1 => .oneSymbol
    | 2 => .uncorrectable
    | k => .wrong (k = 3) (BitVec.ofNat 512 d.1), d.2)

/-- A corrected error: counted, its write-back queued with the line as corrected where one of eight entries is free, its row tracked
among 64, and the row reported once it has reached the threshold (R408, R431, R433, R622). -/
def correctedError (s : State) (c line : Nat) (data : List Byte) : State :=
  let s1 := bumpTier s c (lineTier line)
  let key := rowKey line
  let old := ((colOf s1 c).rows.find? (fun r => r.1 = key)).map Prod.snd |>.getD (0, false)
  let n := old.1 + 1
  let due : Bool := !old.2 && odNat s 0x400102 ≤ n
  let s2 := modCol s1 c (fun x => { x with
    writeBacks := if x.writeBacks.length < 8 then x.writeBacks ++ [(line, data)] else x.writeBacks
    rows := ((key, n, old.2 || due) :: x.rows.filter (fun r => r.1 ≠ key)).take 64
    errTimes := x.errTimes ++ [s.clk.us]
    fastClean := false
    retireDue := if due then x.retireDue ++ [(key, n)] else x.retireDue })
  if due then raise s2 0x81 c (lineTier line + 1) (rowPayload line) else s2

/-- A controller counts and reports what a read of a line found (R395, R408, R409). -/
def noteRead (s : State) (c line : Nat) (check : LineCheck) : State :=
  match lineRead s c line check with
  | .clean => s
  | .corrected => correctedError s c line (lineData s c line check)
  | .uncorrectable =>
    raise (bumpTier s c (16 + lineTier line)) 0x80 c (lineTier line + 1) (rowPayload line + linePos line * 2 ^ 24)
  | .poisoned => bumpTier s c (32 + lineTier line)

def badRead (r : LineRead) : Bool := r = .uncorrectable || r = .poisoned

/-! ## Writes -/

def setPoison (s : State) (c line : Nat) (p : Bool) : State :=
  { s with hwPoison := mset false s.hwPoison (lineNo c line) p }

/-- A write to a line cancels a correction write-back queued for it; it is dropped and counted (R428). -/
def dropWriteBack (s : State) (c line : Nat) : State :=
  if (colOf s c).writeBacks.any (fun w => w.1 = line) then
    bumpCol (modCol s c (fun x => { x with writeBacks := x.writeBacks.filter (fun w => w.1 ≠ line) })) c 7 1
  else s

/-- A write to a line whose copy into a spare row is between its read and its write: that line's copy is repeated (R428). -/
def repeatCopy (s : State) (c line : Nat) : State :=
  modCol s c (fun x => { x with retire := x.retire.map (fun r =>
    if rowKey line = r.tier + 16 * r.bank + 128 * r.row && linePos line = r.copied then { r with got := none } else r) })

/-- Bytes `o` to `o + bs.length − 1` of one line written: a whole line with fresh check bits, a part of it by
read-modify-write, which merges them with the line as read, and stores it poisoned when its read half finds it bad or the written
words carry poison (R396, R421). The Bool says that the line was stored poisoned. -/
def lineWrite (s : State) (c line o : Nat) (bs : List Byte) (poison : Bool) (check : LineCheck) : State × Bool :=
  let whole : Bool := o = 0 && bs.length = 64
  let s1 := if whole then s else bumpCol (noteRead s c line check) c 2 1
  let bad : Bool := poison || (!whole && badRead (lineRead s c line check))
  let s2 := repeatCopy (dropWriteBack s1 c line) c line
  let s3 := match check with
    | .wrong _ _ => if whole then s2 else mwrite s2 (lineOff c line) (lineData s c line check)
    | _ => s2
  (setPoison (mwrite (bumpCol s3 c 1 1) (lineOff c line + o) bs) c line bad, bad)

/-- A line read: counted, checked; its bytes with whether they are delivered poisoned. -/
def lineFetch (s : State) (c line : Nat) (check : LineCheck) : State × List Byte × LineRead :=
  let r := lineRead s c line check
  (noteRead (bumpCol s c 0 1) c line check, lineData s c line check, r)

/-! ## Issue slots (R397 to R402): two HCLK cycles each; slot 7 of every frame of 8 is reserved -/

/-- The issue slot that HCLK now stands in: 2 ns each. -/
def slotNow (s : State) : Nat := rootCycle s

/-- The slot that the controller commits now: eight before it begins (R401). -/
def openSlot (s : State) : Nat := slotNow s + 8

/-- The slot to be committed now is a data slot, and nothing is committed to it. -/
def slotFree (s : State) (x : Column) : Bool :=
  let r := openSlot s
  decide (r % 8 ≠ 7) && decide (x.slot < r) && !x.banks.any (fun b => b.1 = r)

/-- Data slots before slot `r`. -/
def dataSlotsTo (r : Nat) : Nat := r / 8 * 7 + min (r % 8) 7

def bankKey (line : Nat) : Nat := line % 128

/-- Bank that a forced refresh of tier `t` takes (R402). -/
def dueBank (x : Column) (t : Nat) : Nat := mget 0 x.refreshAt t % 8

/-- The bank is kept for a forced refresh near slot `r`. -/
def keptBank (x : Column) (r key : Nat) : Bool :=
  mget false x.forced (key % 16) && key / 16 = dueBank x (key % 16) && x.refSlot ≤ r + 7 && r ≤ x.refSlot + 7

/-- A line or maintenance operation of the seven slots before `r` uses the bank (R400). -/
def bankBusy (x : Column) (r key : Nat) : Bool := x.banks.any (fun b => b.1 < r && r ≤ b.1 + 7 && b.2 = key) || keptBank x r key

/-- A line is committed to slot `r`; the write half of a read-modify-write to the slot eight later (R400, R421). -/
def commitLine (x : Column) (r key : Nat) (rmw : Bool) : Column :=
  { x with slot := r
           banks := (x.banks ++ [(r, key)] ++ (if rmw then [(r + 8, key)] else [])).filter (fun b => r ≤ b.1 + 32) }

/-- The slot stays empty because a line that wants it waits for its bank (R400). -/
def emptySlot (s : State) (c : Nat) : State := bumpCol (modCol s c (fun x => { x with slot := openSlot s })) c 4 1

/-! ## Maintenance slots (R398, R401, R431, R432, R434) -/

/-- Seconds of a patrol pass, and of an accelerated one (R432, R621). -/
def scrubPeriod (s : State) : Nat := odNat s 0x400101

def fastPeriod (s : State) : Nat := max 60 (scrubPeriod s / 8)

/-- Every data slot up to this one is committed, or its time to be has passed. -/
def committedTo (s : State) (x : Column) : Nat := max x.slot (openSlot s - 1)

/-- The last reserved slot whose seven following data slots are committed, where refresh does not use it and no other maintenance
does. -/
def maintAt (s : State) (x : Column) : Option Nat :=
  let k := (committedTo s x - 14) / 8
  if 14 ≤ committedTo s x && x.maintSlot < 8 * k + 7 && k % 4 ≠ 0 then some (8 * k + 7) else none

/-- No line of the seven slots to either side uses the line's bank (R401). -/
def maintFree (x : Column) (r line : Nat) : Bool := !x.banks.any (fun b => b.1 ≤ r + 7 && r ≤ b.1 + 7 && b.2 = bankKey line)

/-- The reserved slot in which a maintenance operation on the line can go now. -/
def maintSlotFor (s : State) (x : Column) (line : Nat) : Option Nat :=
  (maintAt s x).bind (fun r => if maintFree x r line then some r else none)

end Sys2Proof.Machine
end

