-- ==== Sys2Proof/Machine/Routes.lean ====
section
/-! DEFINITION. Clock regions and trunks (R21, R22, R24), and the control network's routers: route tables, fault masks and the way
a packet takes (R359 to R361). -/
namespace Sys2Proof.Machine

/-! ## Clock regions and trunks -/

/-- Clock region of a physical bough (R22). -/
def clockRegion (p : Nat) : Nat := p / 12 / 3 * 4 + p % 12 / 3

/-- Physical bough (x, y) through which trunk `t` enters the crown (R24). -/
def trunkEntry (t : Nat) : Nat × Nat := (3 * (t % 4) + 1, 3 * (t / 4) + 1)

/-- Trunks not in the defect list and not fenced. -/
def trunkOk (s : State) (t : Nat) : Bool := !hasDefect s 5 t && !mget false s.boot.fencedTrunks t

/-- Bough steps between the entries of two trunks. DESIGN CHOICE, log 134: R21 does not say how near is measured. -/
def trunkDist (t u : Nat) : Nat :=
  let a := trunkEntry t
  let b := trunkEntry u
  (a.1 - b.1) + (b.1 - a.1) + (a.2 - b.2) + (b.2 - a.2)

/-- The trunk that serves a clock region: its own, or the nearest that works, the lower number on a tie (R21). -/
def trunkFor (s : State) (region : Nat) : Nat :=
  let near (best : Option Nat) (t : Nat) : Option Nat :=
    if !trunkOk s t then best
    else match best with
      | some b => if trunkDist region t < trunkDist region b then some t else best
      | none => some t
  if trunkOk s region then region else ((List.range 16).foldl near none).getD region

/-- Clock region of an endpoint (R22, R357). The hub lies where regions 5, 6, 9 and 10 meet, and takes the trunk of the first
(log 134); the management controller is reached through trunk 5. -/
def endpointRegion (s : State) (ep : Nat) : Nat :=
  if ep < 0x900 then clockRegion (homeCol s (boughOf ep)) % 16
  else if ep < 0x990 then clockRegion (ep - 0x900)
  else if 0xA10 ≤ ep && ep < 0xA20 then ep - 0xA10
  else if 0xB00 ≤ ep then clockRegion (homeCol s (ep - 0xB00)) % 16
  else 5

/-- The trunk endpoint that serves an endpoint's traffic with the I/O ring (R21, R358). -/
def trunkEp (s : State) (ep : Nat) : Nat := 0xA10 + trunkFor s (endpointRegion s ep)

/-! ## Routers (R359, R360): one at each leaf, in logical coordinates; outputs 0 N, 1 E, 2 S, 3 W -/

def facing (d : Nat) : Nat := (d + 2) % 4

/-- The neighbour of router `r` in a grid of `w` boughs a row. -/
def routerNext (w r d : Nat) : Option Nat :=
  match d with
  | 0 => if leafY r = 0 then none else some (r - 48)
  | 1 => if leafX r + 1 < 4 * w then some (r + 1) else none
  | 2 => if leafY r + 1 < 48 then some (r + 48) else none
  | _ => if leafX r = 0 then none else some (r - 1)

/-- The router at which the routes of an endpoint end: its leaf's; for another endpoint one of its bough's. DESIGN CHOICE, log 135:
the spec does not say which. -/
def routerOf (s : State) (ep : Nat) : Nat :=
  let inBough (p : Nat) : Nat := boughLeaf ((boughAt s p).getD (p / 12 * 12 + min (p % 12) (s.net.routes - 1))) 5
  let trunk (t : Nat) : Nat := inBough ((trunkEntry t).2 * 12 + (trunkEntry t).1)
  if ep < 0x900 then ep
  else if ep < 0x990 then inBough (ep - 0x900)
  else if 0xA10 ≤ ep && ep < 0xA20 then trunk (ep - 0xA10)
  else if ep = 0xA20 then trunk (trunkFor s 5)
  else if 0xB00 ≤ ep then boughLeaf (ep - 0xB00) 5
  else 24 * 48 + 2 * s.net.routes

/-- A packet for the endpoint has arrived at router `r`. -/
def routedTo (s : State) (ep r : Nat) : Bool := if ep < 0x900 then r = ep else boughOf r = boughOf (routerOf s ep)

/-- Primary output of router `r` for a packet to router `d`: first in x, then in y (R359). -/
def primaryOut (r d : Nat) : Nat :=
  if leafX r < leafX d then 1 else if leafX d < leafX r then 3 else if leafY r < leafY d then 2 else 0

/-- Alternate output (R359, R361): across the primary's direction, toward the destination where that is a choice. DESIGN CHOICE, log
135. -/
def alternateOut (w r d : Nat) : Nat :=
  let across : List Nat := if primaryOut r d % 2 = 1 then
      (if leafY r < leafY d then [2, 0] else if leafY d < leafY r then [0, 2] else [2, 0])
    else [1, 3]
  (across.find? (fun o => (routerNext w r o).isSome)).getD 0

/-- The neighbour at an output is marked dead in the router's fault mask, or there is none (R360). -/
def outDead (s : State) (r o : Nat) : Bool := (routerNext s.net.routes r o).isNone || (mget 0 s.net.masks r).getLsbD o

/-- A leaf's router has failed: its neighbours have marked it (R361). -/
def routerDead (s : State) (l : Nat) : Bool :=
  (List.range 4).any (fun d => match routerNext s.net.routes l d with
    | some q => (mget 0 s.net.masks q).getLsbD (facing d)
    | none => false)

/-- The routers that a packet passes from router `r`, and whether it arrives. After an alternate it goes on past the dead neighbour in
the direction of the primary output. -/
def routeWalk (s : State) (ep d : Nat) : Nat → Nat → Option Nat → List Nat × Bool
  | 0, _, _ => ([], false)
  | fuel + 1, r, past =>
    if routedTo s ep r then ([r], true)
    else
      let p := past.getD (primaryOut r d)
      let a := alternateOut s.net.routes r d
      let out : Option (Nat × Option Nat) :=
        if !outDead s r p then some (p, none)
        else if past = none && !outDead s r a then some (a, some p) else none
      match out with
      | some (o, next) =>
        let w := routeWalk s ep d fuel ((routerNext s.net.routes r o).getD r) next
        (r :: w.1, w.2)
      | none => ([r], false)

/-- The way of a packet from one endpoint to another. -/
def routePath (s : State) (src dst : Nat) : List Nat × Bool := routeWalk s dst (routerOf s dst) 256 (routerOf s src) none

/-- What the routers answer instead of the target: UNIT_FENCED for the leaf of a failed router, NO_ROUTE where both neighbours are
dead (R360, R361). -/
def routeCode (s : State) (src dst : Nat) : Option Nat :=
  if s.net.masks = [] then none
  else if dst < 0x900 && routerDead s dst then some 7
  else if (routePath s src dst).2 then none else some 0x0B

/-- A packet between these endpoints passes the router. -/
def passes (s : State) (src dst r : Nat) : Bool := (routePath s src dst).1.contains r || src = r || dst = r

/-- Packets that a failing router holds are lost: which of those that pass it, is open (R361; log 136). -/
def loseAt (s : State) (lost : Nat → Nat → Bool) : State :=
  let s1 := s.net.msgs.foldl (fun t m => match m with
    | .req _ r =>
      if lost r.src r.dst then
        let d := draw t
        if d.1.getLsbD 0 then { d.2 with net := { d.2.net with msgs := d.2.net.msgs.erase m } } else d.2
      else t
    | _ => t) s
  s.net.resps.foldl (fun t m =>
    if lost m.2.src m.2.ep then
      let d := draw t
      if d.1.getLsbD 0 then { d.2 with net := { d.2.net with resps := d.2.net.resps.erase m } } else d.2
    else t) s1

/-- A leaf's router fails: packets in it are lost, and its neighbours mark it, here in the cycle of the detection (R361; log 136). -/
def failRouter (s : State) (l : Nat) : State :=
  let t := loseAt s (fun a b => passes s a b l)
  let mark (m : SMap (BitVec 4)) (d : Nat) : SMap (BitVec 4) :=
    match routerNext t.net.routes l d with
    | some q => mmod 0 m q (fun v => v ||| BitVec.ofNat 4 (2 ^ facing d))
    | none => m
  { t with net := { t.net with masks := (List.range 4).foldl mark t.net.masks } }

/-- A trunk fails: requests in flight on it are lost and time out (R599). -/
def failTrunk (s : State) (t : Nat) : State :=
  let own (ep : Nat) : Bool := trunkEp s ep = 0xA10 + t
  let stays (m : NetMsg) : Bool :=
    match m with
    | .req _ r => r.src ≠ 0xA10 + t
    | _ => true
  let kept (p : Nat × Option (Nat × BitVec 15)) : Bool := (p.2.map (fun e => !own e.1)).getD true
  { s with net := { s.net with msgs := s.net.msgs.filter stays, xtags := s.net.xtags.filter kept } }

end Sys2Proof.Machine
end

