-- ==== Sys2Proof/Machine/Objects.lean ====
section
/-! DEFINITION. The object dictionary as it reads: every object's type, access and value (R34, R58, R317, R318, R352,
R367, R437, R476, R521, R535, R536, R552, R641), the service level (R583, R584) and the slot table (R458). -/
namespace Sys2Proof.Machine

/-! ## Service level -/

/-- A port with no module in service, or not trained, does not count for TRANSIT (R583). -/
def portsUp (s : State) : Nat :=
  ((List.range 4).filter (fun p => (portOf s p).state = 3 || (portOf s p).state = 4)).length

/-- The management controller runs verified firmware (R583, R641). -/
def identityOk (s : State) : Bool := s.boot.fwManifest ≠ [] && !s.boot.recovery && s.pins.porst

/-- The crown's needs of R583 and R584 as they stand now, for a logical width `n`. -/
def crownNeedsNow (s : State) (n : Nat) : Bool :=
  identityOk s && s.boot.slotId.toNat < 40 && (List.range 16).any (trunkOk s)
    && (List.range 5).all (fun k => !hasDefect s 9 k) && !hasDefect s 6 0 && 1 ≤ n && !s.gov.tripped

/-- service_level (R584): the crown's needs as last evaluated, the ports' as they stand. -/
def serviceLevel (s : State) : Nat :=
  if !identityOk s then 0
  else if !(s.boot.slotId.toNat < 40 && !hasDefect s 10 0 && 2 ≤ portsUp s) then 1
  else if s.boot.crownNeeds then 3
  else 2

/-- ready_phase changes: READY follows COMPUTE and READY_PHASE is raised (R553, R571). -/
def setPhase (s : State) (p : Phase) : State :=
  let t : State := { s with boot := { s.boot with phase := p }, pins := { s.pins with ready := p = .compute } }
  raise t 0x01 0 (phaseCode p) (serviceLevel t)

/-! ## Routing tables (R457, R458) -/

/-- The slot table of own slot `own` for destination slot `d`: 0x00 NONE, 0x40 LOCAL, 0x80–0x83 N E S W. -/
def slotEntry (own unreachable d : Nat) : Nat :=
  if own ≥ 40 || d ≥ 40 || bit unreachable d then 0
  else if d % 8 > own % 8 then 0x81
  else if d % 8 < own % 8 then 0x83
  else if d / 8 > own / 8 then 0x82
  else if d / 8 < own / 8 then 0x80
  else 0x40

def slotTable (s : State) (d : Nat) : Nat := slotEntry s.boot.slotId.toNat (odNat s 0x510004) d

def groveTable (s : State) (g : Nat) : Nat := ((odBytes s 0x510002).getD g 0).toNat

/-! ## Objects -/

/-- An object as the dictionary shows it: type and access codes (R535, R536), encoded value. -/
structure Obj where
  ty : Nat
  acc : Nat
  val : List Byte
  deriving DecidableEq, Repr

def ro (ty : Nat) (val : List Byte) : Option Obj := some { ty := ty, acc := 1, val := val }

def roNat (ty k n : Nat) : Option Obj := ro ty (leBytes n k)

/-- An ARRAY of `n` elements of `k` bytes. -/
def roArr (elem k n : Nat) (f : Nat → Nat) : Option Obj :=
  ro (0x80 + elem) ((List.range n).flatMap (fun i => leBytes (f i) k))

def ascii (t : String) : List Byte := t.toList.map (fun c => BitVec.ofNat 8 c.toNat)

/-- A grade: A and the logical bough count in three digits (R4, R7). -/
def gradeName (boughs : Nat) : List Byte :=
  [0x41, BitVec.ofNat 8 (0x30 + boughs / 100), BitVec.ofNat 8 (0x30 + boughs / 10 % 10), BitVec.ofNat 8 (0x30 + boughs % 10)]

/-- Kind of a tier's die: 0 root, 1 heartwood, 2 crown (R14). -/
def tierKind (t : Nat) : Nat := if t = 0 then 0 else if t ≤ 16 then 1 else 2

/-- Identifier of tier `t`: bits [63:20] of its own die, those of the root tier in serial_number, with kind and number (R14,
R629). -/
def tierId (s : State) (t : Nat) : Nat :=
  let die := if t = 0 then s.part.serial else s.part.tierIds.getD t 0
  die.toNat / 2 ^ 20 * 2 ^ 20 + tierKind t * 2 ^ 18 + t * 2 ^ 13

def identityObj (s : State) (sub : Nat) : Option Obj :=
  match sub with
  | 0x01 => ro 8 (ascii "YMB-C288-" ++ gradeName (12 * s.part.gradedWidth) ++ ascii (if s.part.ownerKeyable then "-O" else "-V"))
  | 0x02 => roNat 5 8 s.part.serial.toNat
  | 0x03 => roArr 5 8 18 (tierId s)
  | 0x04 => roNat 4 4 s.boot.fwVersion.toNat
  | 0x05 => roNat 2 1 s.boot.fwSlot
  | 0x06 => roNat 3 2 0x0100
  | 0x07 => roNat 2 1 1
  | 0x08 => roNat 4 4 s.mram.bootCount
  | 0x09 => roNat 2 1 s.mgmt.eid.toNat
  | 0x0A => roNat 4 4 0x0003E1A5
  | 0x0B => roNat 3 2 0x6E41
  | 0x0C => roNat 3 2 0x07F3
  | _ => none

def statusObj (s : State) (sub : Nat) : Option Obj :=
  match sub with
  | 1 => roNat 2 1 (phaseCode s.boot.phase)
  | 2 => roNat 2 1 (serviceLevel s)
  | 3 => roNat 5 8 s.clk.us
  | 4 => roNat 2 1 s.boot.cause
  | _ => none

/-- session_state of session `k`. -/
def sessionState (s : State) (k : Nat) : Nat :=
  match mget none s.mgmt.sessions k with
  | some x => x.lastSeq.toNat * 2 ^ 48 + x.address.toNat * 2 ^ 23 + b2n x.privileged * 4
      + b2n (x.transport = .sapline) * 2 + 1
  | none => 0xFFFF000000000000

def sessionObj (s : State) (sub : Nat) : Option Obj :=
  match sub with
  | 1 => roArr 5 8 8 (sessionState s)
  | 2 => roArr 4 4 7 (fun c => mget 0 s.mgmt.violations c)
  | 4 => roNat 4 4 s.mgmt.discards
  | _ => none

def eventObj (s : State) (sub : Nat) : Option Obj :=
  match sub with
  | 1 => roNat 4 4 s.log.head
  | 2 => roNat 4 4 s.log.oldest
  | 3 => roNat 4 4 s.log.lost
  | 4 => roArr 4 4 512 (fun c => mget 0 s.log.suppressed c)
  | 5 => roNat 3 2 s.mram.persisted.length
  | _ => none

def profileObj (s : State) (sub : Nat) : Option Obj :=
  match sub with
  | 1 => roNat 2 1 s.mgmt.profileActive
  | 2 => roNat 2 1 s.mgmt.profilePending
  | 3 => roNat 2 1 ((List.range 4).foldl (fun a p => a + b2n (mget none s.mram.profiles p).isSome * 2 ^ p) 0)
  | 4 => roNat 4 4 s.mram.commitCount
  | 5 => roNat 4 4 s.mram.nvUsed
  | _ => none

def wordAt (ws : List Word) (i : Nat) : Nat := (ws.getD i 0).toNat

def readingObj (s : State) (sub : Nat) : Option Obj :=
  match sub with
  | 1 => roNat 7 4 s.gov.stack.toNat
  | 2 => roArr 7 4 144 (wordAt s.gov.bough)
  | 3 => roArr 7 4 144 (wordAt s.gov.crown)
  | 4 => roArr 7 4 64 (wordAt s.gov.hw)
  | 5 => roArr 7 4 14 (wordAt s.gov.rails)
  | _ => none

/-- The crown configuration objects (R7). DESIGN CHOICE, log 140: before the first GRID_BUILD no shape stands, and logical_width
reads 0 and current_grade A000. -/
def crownObj (s : State) (sub : Nat) : Option Obj :=
  match sub with
  | 1 => roNat 2 1 s.boot.width
  | 2 => ro 8 (gradeName (12 * s.boot.width))
  | 3 => ro 8 (gradeName (12 * s.part.gradedWidth))
  | 4 => roNat 4 4 s.boot.crownResets
  | 5 => roNat 3 2 s.graft.imageId.toNat
  | _ => none

/-- The member does not advance: its re-run or its fence holds it, or the last cycle that could has passed without its advance (R298,
R301, R601). -/
def memberHolds (s : State) (l : Nat) (x : Leaf) : Bool :=
  let ran := slotIters x.sw.cur ≠ 0 && x.sw.v - x.sw.v0 ≥ slotIters x.sw.cur * slotPeriod x.sw.cur
  !ran && (x.sw.held || leafFenced s l || decide (x.sw.advAt < s.clk.cclk))

/-- timed_group_state (R318). -/
def groupState (s : State) (g : Nat) : Nat :=
  let e := groupOf s g
  let runs := s.leaves.filter (fun p => p.2.sw.running && slotTimed p.2.sw.cur && slotGroup p.2.sw.cur = g)
  let held := runs.any (fun p => memberHolds s p.1 p.2)
  let st := if e.stopped then 3 else if runs ≠ [] then 2 else if e.arm then 1 else 0
  e.ready * 2 ^ 20 + e.members * 256 + b2n held * 4 + st

/-- flow_region_state (R352). -/
def regionState (s : State) (g : Nat) : Nat :=
  let r := regionOf s g
  let st := if r.aborted then 4 else if r.awaiting then 3 else if r.window ≠ none then 2 else if r.active ≠ [] then 1 else 0
  r.active.length * 2 ^ 20 + r.quiet.length * 256 + st

/-- A per-leaf counter array (R317, R352): elements by logical leaf index. -/
def leafArr (s : State) (k : Nat) : Option Obj :=
  roArr 4 4 2304 (fun l => mget 0 (leafOf s l).netCounters k)

def fabricObj (s : State) (ix sub : Nat) : Option Obj :=
  match ix with
  | 0x3002 =>
    if sub = 0 then roNat 2 1 144
    else if sub ≤ 0x90 then roNat 3 2 (mget 0xFFFF s.boot.boughMap (sub - 1)) else none
  | 0x3010 => if 1 ≤ sub && sub ≤ 16 then roNat 4 4 (groupState s (sub - 1)) else none
  | 0x3020 => if 1 ≤ sub && sub ≤ 9 then leafArr s sub else none
  | 0x3030 => if 1 ≤ sub && sub ≤ 6 then leafArr s (16 + sub) else none
  | 0x3031 => if 1 ≤ sub && sub ≤ 16 then roNat 4 4 (regionState s (sub - 1)) else none
  | 0x3032 => if 1 ≤ sub && sub ≤ 16 then roNat 4 4 (regionOf s (sub - 1)).spills else none
  | 0x3033 => if 1 ≤ sub && sub ≤ 16 then roNat 4 4 (regionOf s (sub - 1)).cancelled else none
  | 0x3040 =>
    if sub = 2 then roArr 4 4 13 (fun c => mget 0 s.net.refusals c)
    else if sub = 3 then roNat 4 4 s.net.discards else none
  | _ => none

/-- One tier counter summed over the columns (R437). -/
def tierSum (s : State) (k : Nat) : Nat :=
  sat32 ((List.range 144).foldl (fun a c => a + mget 0 (colOf s c).tierCounters k) 0)

/-- Spare rows left in the bank of column `c` with the fewest (R392, R437). -/
def sparesFree (s : State) (c : Nat) : Nat := (colOf s c).spares.foldl (fun m p => min m (32 - p.2)) 32

def heartObj (s : State) (sub : Nat) : Option Obj :=
  match sub with
  | 1 => roArr 4 4 16 (tierSum s)
  | 2 => roArr 4 4 16 (fun t => tierSum s (16 + t))
  | 3 => roArr 4 4 16 (fun t => tierSum s (32 + t))
  | 4 => roNat 4 4 (s.mram.defects.filter (fun d => d.kind.toNat = 8)).length
  | 5 => roArr 3 2 144 (sparesFree s)
  | _ => none

def linkObj (s : State) (sub : Nat) : Option Obj :=
  match sub with
  | 1 => roArr 4 4 4 (fun p => (portOf s p).lastViol * 2 ^ 16 + (portOf s p).modules.toNat * 256 + (portOf s p).state)
  | 5 => roArr 4 4 64 (fun k => mget 0 s.links.violations k)
  | 6 => roArr 4 4 4 (fun p => mget 0 s.links.discards p)
  | 7 => roArr 4 4 32 (fun m => mget 0 s.links.retries m)
  | 8 => roArr 2 1 32 (fun m => (mget 0 s.links.lanes m).toNat)
  | _ => none

/-- coll_slot_state (R521); a failure takes place in one step, so none is ever in progress. -/
def collSlotState (s : State) (k : Nat) : Nat :=
  match mget none s.coll.slots k with
  | some x => (x.group * 2 ^ 24 + x.seq) * 2 ^ 32 + fld x.desc.toNat 0 4 * 2 ^ 20 + x.state
  | none => 0

def collGroupState (s : State) (g : Nat) : Nat :=
  let x : CGroup := mget {} s.coll.groups g
  x.nextSeq * 2 ^ 40 + x.members.length * 2 ^ 27 + x.rank * 2 ^ 15

def collObj (s : State) (sub : Nat) : Option Obj :=
  match sub with
  | 5 => roArr 5 8 16 (collSlotState s)
  | 6 => roArr 5 8 256 (collGroupState s)
  | 7 => roArr 4 4 256 (fun g => (mget {} s.coll.groups g : CGroup).crc.toNat)
  | 8 => roArr 4 4 12 (fun k => mget 0 s.coll.counts k)
  | _ => none

/-- defect_list (R578). -/
def defectBytes (s : State) : List Byte := s.mram.defects.zipIdx.flatMap (fun p => defectEntry p.1 p.2)

def defectObj (s : State) (sub : Nat) : Option Obj :=
  match sub with
  | 1 => roNat 3 2 s.mram.defects.length
  | 2 => ro 9 (defectBytes s)
  | 3 => ro 9 (sha384 (defectBytes s))
  | _ => none

def securityObj (s : State) (sub : Nat) : Option Obj :=
  match sub with
  | 1 => roNat 2 1 s.fuse.lifecycle.toNat
  | 2 => roNat 2 1 s.fuse.secVer
  | 3 => roNat 2 1 s.fuse.ownerKeyState.toNat
  | 5 => roNat 1 1 (b2n s.boot.debugLocked)
  | 6 => some { ty := 9, acc := 3, val := List.replicate 0x100000 0 }
  | _ => none

/-- Bytes of a command's argument (R557). -/
def cmdLen (sub : Nat) : Nat := if sub = 0x0A then 12 else if sub = 0x0C then 16 else if sub = 0x0D then 2 else 1

def commandObj (sub : Nat) : Option Obj :=
  if 1 ≤ sub && sub ≤ 0x0E then
    some { ty := if cmdLen sub = 1 then 2 else if cmdLen sub = 2 then 3 else 9, acc := 5, val := List.replicate (cmdLen sub) 0 }
  else none

/-- A writable object with its value under R546. -/
def writableObj (s : State) (key : Nat) : Option Obj :=
  match rwObjects.find? (fun o => decide (o.key = key)) with
  | some o =>
    let n := o.dflt.length
    some { ty := if key = 0x800004 then 1 else if key = 0x210005 || key = 0x510002 then 0x82
                 else if n = 1 then 2 else if n = 2 then 3 else if n = 4 then 4 else 5
           acc := if o.nv then 4 else 2, val := odValue s o }
  | none => none

/-- Objects that no write reaches. -/
def fixedObj (s : State) (ix sub : Nat) : Option Obj :=
  match ix with
  | 0x1000 => identityObj s sub
  | 0x1100 => statusObj s sub
  | 0x1200 => sessionObj s sub
  | 0x1300 => eventObj s sub
  | 0x2000 => profileObj s sub
  | 0x2100 => if sub = 1 then roNat 2 1 s.gov.step else none
  | 0x2200 => readingObj s sub
  | 0x3000 => crownObj s sub
  | 0x4000 => heartObj s sub
  | 0x5000 => linkObj s sub
  | 0x5100 => if sub = 3 then roArr 2 1 64 (slotTable s) else none
  | 0x6000 => collObj s sub
  | 0x7000 => defectObj s sub
  | 0x8000 => securityObj s sub
  | 0xF000 => commandObj sub
  | 0xF001 => if sub = 1 then roArr 4 4 15 (fun k => (mget 0 s.mgmt.cmdStatus k).toNat) else none
  | _ => fabricObj s ix sub

/-- What the recovery dictionary serves (R641). -/
def recoveryServes (ix sub : Nat) : Bool :=
  ix = 0x1000 || ix = 0x1100 || ix = 0x1300 || ix = 0x8000 || (ix = 0xF000 && sub = 0x0E) || ix = 0xF001

/-- The object that index:subindex names (R552). -/
def objOf (s : State) (ix sub : Nat) : Option Obj :=
  if s.boot.recovery && !recoveryServes ix sub then none
  else match writableObj s (ix * 256 + sub) with
    | some o => some o
    | none => fixedObj s ix sub

end Sys2Proof.Machine
end

