-- ==== Sys2Proof/Machine/Posts.lean ====
section
/-! DEFINITION. Engine and DMA descriptors: fields, the scratchpad ranges they touch, the engine's refusal rules and the
scoreboard entries a post takes (R146 to R153, R174, R207, R209, R218, R226 to R239, R257, R262, R412, R416 to R419). -/
namespace Sys2Proof.Machine

/-! ## Number formats by code (R174) -/

def fmtBits (c : Nat) : Nat :=
  match c with
  | 0 => 32
  | 1 => 16
  | 2 => 16
  | 3 => 8
  | 4 => 8
  | 5 => 6
  | 6 => 6
  | 7 => 4
  | 8 => 8
  | 9 => 8
  | 10 => 4
  | _ => 32

def fmtBlock (c : Nat) : Bool := 5 ≤ c && c ≤ 7

def fmtInt (c : Nat) : Bool := 9 ≤ c && c ≤ 11

/-- Stored and operand formats of the load path (R207). -/
def loadPair (st op : Nat) : Bool :=
  st = op || [(0, 2), (0, 1), (1, 0), (2, 0), (3, 2), (3, 1), (4, 2), (4, 1), (7, 6), (10, 9)].contains (st, op)

/-- Accumulator and destination formats of the store path (R209). -/
def storePair (accInt : Bool) (c : Nat) : Bool := if accInt then c = 0 || c = 9 || c = 10 || c = 11 else c ≤ 11

/-! ## Engine descriptor (R226) -/

def eF (d : BitVec 512) (lo w : Nat) : Nat := fld d.toNat lo w

def eOp (d : BitVec 512) : Nat := eF d 0 4
def eASt (d : BitVec 512) : Nat := eF d 4 4
def eAOp (d : BitVec 512) : Nat := eF d 8 4
def eBSt (d : BitVec 512) : Nat := eF d 12 4
def eBOp (d : BitVec 512) : Nat := eF d 16 4
def eCFmt (d : BitVec 512) : Nat := eF d 20 4
def ePasses (d : BitVec 512) : Nat := eF d 24 2
def eRound (d : BitVec 512) : Nat := eF d 26 2
def eInf (d : BitVec 512) : Bool := bit d.toNat 28
def eBlk (d : BitVec 512) : Nat := if bit d.toNat 29 then 32 else 16
def eAcc (d : BitVec 512) : Nat := eF d 30 2
def eShift (d : BitVec 512) : Nat := eF d 32 5
def eEpi (d : BitVec 512) : Nat := eF d 37 3
def eCntLeaf (d : BitVec 512) : Nat := eF d 40 4
def eCnt (d : BitVec 512) : Nat := eF d 44 4
def eStatEn (d : BitVec 512) : Bool := bit d.toNat 48
def eStatLeaf (d : BitVec 512) : Nat := eF d 49 4
def eStatHalf (d : BitVec 512) : Nat := eF d 53 1
def eK16 (d : BitVec 512) : Nat := eF d 64 12
def eSub (d : BitVec 512) : Nat := eF d 80 16
def eScalar (d : BitVec 512) : Nat := eF d 96 32
def eARow (d : BitVec 512) : Nat := eF d 128 12
def eALeaf (d : BitVec 512) : Nat := eF d 140 4
def eALeaves (d : BitVec 512) : Nat := eF d 144 3
def eAsRow (d : BitVec 512) : Nat := eF d 148 12
def eBRow (d : BitVec 512) : Nat := eF d 160 12
def eBLeaf (d : BitVec 512) : Nat := eF d 172 4
def eBLeaves (d : BitVec 512) : Nat := eF d 176 3
def eBsRow (d : BitVec 512) : Nat := eF d 180 12
def eCRow (d : BitVec 512) : Nat := eF d 192 12
def eCLeaf (d : BitVec 512) : Nat := eF d 204 4
def eCLeaves (d : BitVec 512) : Nat := eF d 208 3
def eCLayout (d : BitVec 512) : Bool := bit d.toNat 211
def eCsRow (d : BitVec 512) : Nat := eF d 212 12
def eStatRow (d : BitVec 512) : Nat := eF d 224 12

/-- K-steps. -/
def eK (d : BitVec 512) : Nat := 16 * (eK16 d + 1)

def eSplit (d : BitVec 512) : Bool := eOp d = 1

/-- The operation multiplies (MM_FULL, MM_SPLIT). -/
def eMM (d : BitVec 512) : Bool := eOp d < 2

def eAccInt (d : BitVec 512) : Bool := fmtInt (eAOp d)

/-! ## Panels (R229 to R235) -/

/-- Rows of one leaf that a stream of `n` rows over 2^c leaves from `leaf0` occupies (R230): first and last. -/
def stripe (leaf0 c row n j : Nat) : List (Nat × Nat) :=
  if j < leaf0 || j - leaf0 ≥ 2 ^ c || n ≤ j - leaf0 then []
  else [(row, row + (n - (j - leaf0) + 2 ^ c - 1) / 2 ^ c - 1)]

/-- Row intervals of an operand in bough leaf `j`, its scale panel with it. -/
def operandRows (d : BitVec 512) (st row leaf0 c srow j : Nat) : List (Nat × Nat) :=
  if eSplit d then
    if bit (eSub d) j then [(row, row + eK d * 16 * fmtBits st / 8 / 64 - 1)] else []
  else if eMM d then
    stripe leaf0 c row (eK d * 64 * fmtBits st / 8 / 64) j
      ++ (if fmtBlock st then stripe leaf0 c srow (eK d / eBlk d) j else [])
  else stripe leaf0 c row 256 j

def rowsA (d : BitVec 512) (j : Nat) : List (Nat × Nat) :=
  operandRows d (eASt d) (eARow d) (eALeaf d) (eALeaves d) (eAsRow d) j

/-- TCVT reads no B (R221). -/
def rowsB (d : BitVec 512) (j : Nat) : List (Nat × Nat) :=
  if eOp d = 3 then [] else operandRows d (eBSt d) (eBRow d) (eBLeaf d) (eBLeaves d) (eBsRow d) j

/-- Row intervals of the result, its scales with it. -/
def rowsC (d : BitVec 512) (j : Nat) : List (Nat × Nat) :=
  if eSplit d then
    if bit (eSub d) j then
      (eCRow d, eCRow d + (16 * 16 * fmtBits (eCFmt d) / 8 + 63) / 64 - 1)
        :: (if fmtBlock (eCFmt d) then [(eCsRow d, eCsRow d + (16 + eBlk d - 1) / eBlk d - 1)] else [])
    else []
  else
    stripe (eCLeaf d) (eCLeaves d) (eCRow d) (8 * fmtBits (eCFmt d)) j
      ++ (if fmtBlock (eCFmt d) then stripe (eCLeaf d) (eCLeaves d) (eCsRow d) (64 / eBlk d) j else [])

/-- The status record's row. -/
def rowsS (d : BitVec 512) (j : Nat) : List (Nat × Nat) :=
  if eStatEn d && eStatLeaf d = j then [(eStatRow d, eStatRow d)] else []

/-- Lowest and highest word of row intervals. -/
def hullWords (rs : List (Nat × Nat)) : List (Nat × Nat) :=
  match rs with
  | [] => []
  | r :: t => [(t.foldl (fun m q => min m (q.1 * 16)) (r.1 * 16), t.foldl (fun m q => max m (q.2 * 16 + 15)) (r.2 * 16 + 15))]

/-- Word range of the result part: the result's rows and the status half-row (R148, R260). -/
def partC (d : BitVec 512) (j : Nat) : List (Nat × Nat) :=
  let st : List (Nat × Nat) :=
    if eStatEn d && eStatLeaf d = j then
      [(eStatRow d * 16 + 8 * eStatHalf d, eStatRow d * 16 + 8 * eStatHalf d + 7)]
    else []
  match hullWords (rowsC d j) ++ st with
  | [] => []
  | r :: t => [(t.foldl (fun m q => min m q.1) r.1, t.foldl (fun m q => max m q.2) r.2)]

/-- The scoreboard entries of an engine operation in bough leaf `j` (R148). -/
def engineEntries (d : BitVec 512) (op : OpId) (j : Nat) : List SbEntry :=
  (hullWords (rowsA d j)).map (fun p => { lo := p.1, hi := p.2, w := false, op := op })
    ++ (hullWords (rowsB d j)).map (fun p => { lo := p.1, hi := p.2, w := false, op := op })
    ++ (partC d j).map (fun p => { lo := p.1, hi := p.2, w := true, op := op })

/-! ## Engine refusal (R262) -/

/-- REFUSED_FIELD: reserved fields and values, R227, R228, and the fields R226 requires to be zero. -/
def engineBadField (d : BitVec 512) : Bool :=
  eF d 256 256 ≠ 0 || eF d 236 20 ≠ 0 || bit d.toNat 179 || bit d.toNat 147 || eF d 76 4 ≠ 0 || eF d 54 10 ≠ 0
    || eOp d > 3 || [eASt d, eAOp d, eBSt d, eBOp d, eCFmt d].any (fun c => c > 11)
    || eAcc d > 1 || ePasses d = 0 || eEpi d > 3
    || (!eMM d && eK16 d ≠ 0)
    || eALeaves d > 4 || eALeaf d + 2 ^ eALeaves d > 16 || eBLeaves d > 4 || eBLeaf d + 2 ^ eBLeaves d > 16
    || eCLeaves d > 4 || eCLeaf d + 2 ^ eCLeaves d > 16
    || (if eSplit d then
          eALeaf d ≠ 0 || eALeaves d ≠ 0 || eBLeaf d ≠ 0 || eBLeaves d ≠ 0 || eCLeaf d ≠ 0 || eCLeaves d ≠ 0
            || eAsRow d ≠ 0 || eBsRow d ≠ 0 || eCsRow d ≠ 0 || eCLayout d || eSub d = 0
        else eSub d ≠ 0)

/-- Operand formats, configurations and passes of R238. -/
def operandOk (d : BitVec 512) : Bool :=
  let f := eAOp d
  let p := ePasses d
  let cfg : Bool := if eSplit d then f < 5 || f = 8 || f = 9 else f < 8 || f = 9 || f = 10
  let pass : Bool := if f = 0 then true else if f = 1 then p ≤ 2 else p = 1
  cfg && pass

/-- REFUSED_FORMAT; `rdef` is store_round_default in effect (R198, R199). -/
def engineBadFormat (d : BitVec 512) (rdef : Nat) : Bool :=
  let sr : Bool := eRound d = 3 || (eRound d = 0 && rdef = 3)
  let blk : Bool := fmtBlock (eAOp d)
  (sr && eCFmt d = 8)
    || eAOp d ≠ eBOp d || !loadPair (eASt d) (eAOp d) || !loadPair (eBSt d) (eBOp d) || !storePair (eAccInt d) (eCFmt d)
    || (eMM d && !operandOk d)
    || (eBlk d = 32 && !(blk || fmtBlock (eCFmt d))) || (eBlk d = 32 && eMM d && blk && eK16 d % 2 = 0)
    || (eAccInt d && eEpi d ≠ 0)
    || (!eMM d && (eASt d ≠ eAOp d || !(eAOp d = 0 || eAOp d = 11)))
    || (eOp d = 2 && (eBSt d ≠ eBOp d || eBOp d ≠ eAOp d))
    || (eAcc d = 1 && eCFmt d ≠ (if eAccInt d then 11 else 0))

/-- Every row that the operation touches, with its bough leaf. -/
def engineRows (d : BitVec 512) : List (Nat × Nat × Nat) :=
  (List.range 16).flatMap (fun j => (rowsA d j ++ rowsB d j ++ rowsC d j ++ rowsS d j).map (fun r => (j, r.1, r.2)))

/-- store_round_default in effect (R191, R199). -/
def roundDefault (s : State) : Nat :=
  match s.graft.roundDef with
  | some r => r
  | none => odNat s 0x310002

/-- RESULT of a refused descriptor, or none (R262). -/
def engineRefusal (s : State) (b : Nat) (d : BitVec 512) : Option Nat :=
  let rdef := roundDefault s
  if engineBadField d then some 0x8
  else if engineBadFormat d rdef then some 0x9
  else if (engineRows d).any (fun r => r.2.1 = 0 || r.2.2 ≥ usableRows (leafOf s (boughLeaf b r.1))) then some 0xA
  else if (engineRows d).any (fun r => leafFenced s (boughLeaf b r.1)) then some 0xB
  else none

/-! ## DMA descriptor (R416, R417) -/

def dF (d : BitVec 256) (lo w : Nat) : Nat := fld d.toNat lo w

def dKind (d : BitVec 256) : Nat := dF d 0 2
def dDir (d : BitVec 256) : Bool := bit d.toNat 2
def dCnt (d : BitVec 256) : Nat := dF d 34 4
def dCntEn (d : BitVec 256) : Bool := bit d.toNat 38
def dAcctEn (d : BitVec 256) : Bool := bit d.toNat 39
def dAcctGc (d : BitVec 256) : Nat := dF d 40 12
def dSpLeaf (d : BitVec 256) : Nat := dF d 52 4
def dSpOff (d : BitVec 256) : Nat := dF d 56 18
def dElem (d : BitVec 256) : Nat := (dF d 74 10 + 1) * 4
def dN1 (d : BitVec 256) : Nat := dF d 84 12 + 1
def dN2 (d : BitVec 256) : Nat := dF d 96 12 + 1
def dN3 (d : BitVec 256) : Nat := dF d 108 12 + 1
def dIdxOff (d : BitVec 256) : Nat := dF d 120 18
def dFs (d : BitVec 256) (k : Nat) : Int := sext (dF d (120 + 24 * k) 24) 24
def dGaddr (d : BitVec 256) : Nat := dF d 192 64
def dIndexed (d : BitVec 256) : Bool := dKind d ≥ 2

/-- Number of elements. -/
def dCount (d : BitVec 256) : Nat := if dKind d = 1 then dN1 d * dN2 d * dN3 d else dN1 d

/-- Physical base byte of a leaf post's scratchpad side: its task's window (R146); 0 for a control-network post (R418). -/
def dBase (p : Poster) : Nat :=
  match p with
  | .leaf _ _ _ _ _ td => fld td.toNat 0 12 * 64
  | .net _ _ => 0

/-- The leaf on whose scratchpad the descriptor works. -/
def dLeaf (p : Poster) : Nat :=
  match p with
  | .leaf l _ _ _ _ _ => l
  | .net _ l => l

/-- The operation's name in the scoreboard: control-network posts are named by their DSEQ. -/
def dOpId (p : Poster) (dseq : Nat) : OpId :=
  match p with
  | .leaf l n r _ _ _ => { dma := true, leaf := l, post := n, replay := r }
  | .net _ l => { dma := true, leaf := 0x10000 + l, post := dseq, replay := 0 }

/-- The scoreboard entries of a DMA operation (R148, R419). -/
def dmaEntries (d : BitVec 256) (base : Nat) (op : OpId) : List SbEntry :=
  let lo := base + dSpOff d
  let ix := base + dIdxOff d
  { lo := lo / 4, hi := (lo + dCount d * dElem d - 1) / 4, w := !dDir d, op := op }
    :: (if dIndexed d then [{ lo := ix / 4, hi := (ix + 4 * dN1 d - 1) / 4, w := false, op := op }] else [])

/-! ## Posting (R99, R107, R149, R150, R412) -/

/-- A post's number, and whether it replays one of the step in progress (R107). -/
def postNumber (x : Leaf) : Nat × Bool :=
  if x.step.shadow = none then (x.postNo, false)
  else match x.step.posts[x.step.postIx]? with
    | some n => (n, true)
    | none => (x.postNo, false)

/-- The leaf's count of posts moves on; a fresh post of a step is remembered with its OPSEQ (R196). -/
def countPost (x : Leaf) (opseq : Nat) : Leaf :=
  let n := postNumber x
  let y := if n.2 then x else { x with postNo := x.postNo + 1 }
  if x.step.shadow = none then y
  else { y with step := { y.step with
      postIx := y.step.postIx + 1
      posts := if n.2 then y.step.posts else y.step.posts ++ [n.1]
      opseqs := if n.2 then y.step.opseqs else y.step.opseqs ++ [opseq] } }

def addSb (s : State) (l : Nat) (es : List SbEntry) : State :=
  if es = [] then s else modLeaf s l (fun x => { x with sb := x.sb ++ es })

/-- Which replay a post is: the re-run that repeats it, 0 for an original (R107). -/
def replayNo (x : Leaf) (n : Nat × Bool) : Nat := if n.2 then x.reruns else 0

/-- The scoreboard's name for an engine descriptor's execution. -/
def eOpId (q : EDesc) : OpId := { dma := false, leaf := q.leaf, post := q.post, replay := q.run }

/-- An entry that issued in the same cycle from a bough leaf of a higher index counts as posted later (R150). -/
def postedAfter (now l : Nat) (q : EDesc) : Bool := q.at_ = now && l < q.leaf

/-- The OPSEQ of a post moves up by one: in its queue entry and in its leaf's step (R150, R195). -/
def bumpOpseq (s : State) (q : EDesc) : State :=
  if q.replay then s
  else modLeaf s q.leaf (fun x => if x.step.posts.contains q.post then
      { x with step := { x.step with opseqs := x.step.opseqs.map (fun o => if o = q.opseq then o + 1 else o) } }
    else x)

/-- A descriptor takes its place in the queue: behind those posted before it (R150, R222). -/
def enqueue (now : Nat) (q : EDesc) (qs : List EDesc) : List EDesc :=
  let later := qs.filter (postedAfter now q.leaf)
  qs.filter (fun k => !postedAfter now q.leaf k) ++ [q]
    ++ later.map (fun k => if q.replay || k.replay then k else { k with opseq := k.opseq + 1 })

/-- The OPSEQ that a fresh post from leaf `l` takes: that of the first fresh post that it comes before, else the next (R150,
R195). -/
def freshOpseq (now l : Nat) (e : Engine) : Nat :=
  match (e.queue.filter (fun k => postedAfter now l k && !k.replay)).head? with
  | some k => k.opseq
  | none => e.opseq

/-- EPOST's effect: the descriptor is checked and enters the queue with its scoreboard entries, which a refused one gives up at
once (R149, R151, R222, R262, R263; log 127), or the leaf stalls. -/
def epostBody (l : Nat) (d : BitVec 512) (s : State) (fin : Leaf → Leaf) : Res :=
  let b := boughOf l
  let e := engOf s b
  let x := leafOf s l
  let n := postNumber x
  let now := s.clk.cclk
  let refusal := engineRefusal s b d
  let q : EDesc :=
    { bits := d, leaf := l, post := n.1, replay := n.2, run := replayNo x n, at_ := now,
      opseq := if n.2 then x.step.opseqs.getD x.step.postIx 0 else freshOpseq now l e,
      inStep := x.step.shadow ≠ none, pc := pcOf x, refused := refusal }
  let entries (j : Nat) : List SbEntry := (engineEntries d (eOpId q) j).map (fun k =>
    if refusal = none then k else { k with rel := some now, freed := true })
  if e.queue.length ≥ 4 || (List.range 16).any (fun j => sbFree (leafOf s (boughLeaf b j)) < (entries j).length)
  then .block (.stall .postFull)
  else
    let s1 := if n.2 then s else (e.queue.filter (postedAfter now l)).foldl bumpOpseq s
    let s2 := (List.range 16).foldl (fun t j => addSb t (boughLeaf b j) (entries j)) s1
    let s3 := modEng s2 b (fun y => { y with
      queue := enqueue now q y.queue, opseq := if n.2 then y.opseq else y.opseq + 1
      counters := if refusal = none then y.counters else mmod 0 y.counters 1 (fun v => sat32 (v + 1)) })
    .done (modLeaf s3 l (fun y => fin (countPost y q.opseq)))

/-- DPOST's effect: the descriptor leaves for the home column with its scoreboard entries, and can enter its queue two cycles later
(R412), or the leaf stalls. -/
def dpostBody (l : Nat) (d : BitVec 256) (s : State) (fin : Leaf → Leaf) : Res :=
  let x := leafOf s l
  let n := postNumber x
  let p : Poster := .leaf l n.1 (replayNo x n) (x.step.shadow ≠ none) (pcOf x) (mget 0 x.tdata x.task)
  let es := dmaEntries d (dBase p) (dOpId p 0)
  if x.dposts ≥ 4 || sbFree x < es.length then .block (.stall .postFull)
  else
    let t := modCol s (homeCol s (boughOf l)) (fun c => { c with
      posts := c.posts ++ [{ bits := d, poster := p, at_ := s.clk.cclk + 2 }] })
    .done (modLeaf (addSb t l es) l (fun y => fin (countPost { y with dposts := y.dposts + 1 } 0)))

end Sys2Proof.Machine
end

