-- ==== Sys2Proof/Machine/Packets.lean ====
section
/-! DEFINITION. Sapline packets and flits: header layout, slots, operations (R442 to R447), and the ring router's
address fields (R44, R446). -/
namespace Sys2Proof.Machine

/-! ## Addresses (R44) -/

def chipOf (a : BitVec 64) : Nat := a.toNat / 2 ^ 47

def offOf (a : BitVec 64) : Nat := a.toNat % 2 ^ 47

def gaddr (chip off : Nat) : BitVec 64 := BitVec.ofNat 64 (chip * 2 ^ 47 + off)

/-- A request is refused at its source with UNKNOWN_DESTINATION (R43). -/
def sourceRefused (s : State) (chip : Nat) : Bool :=
  chip ≠ 0x1FFFF && (chip % 64 ≥ 40 || (groveId s = 0xFFFF && chip / 64 ≠ 0x7FF))

/-- One name for each destination chiplet: its own identifier and the alias are one (R378). -/
def chipName (s : State) (chip : Nat) : BitVec 17 := BitVec.ofNat 17 (if isLocal s chip then 0x1FFFF else chip)

/-! ## Header slot (R446) -/

def pAddr (p : SPkt) : Nat := fld p.hdr.toNat 64 64
def pDest (p : SPkt) : Nat := fld p.hdr.toNat 111 17
def pCode (p : SPkt) : Nat := fld p.hdr.toNat 64 8
def pSrc (p : SPkt) : Nat := fld p.hdr.toNat 47 17
def pTag (p : SPkt) : Nat := fld p.hdr.toNat 32 15
def pAcctGc (p : SPkt) : Nat := fld p.hdr.toNat 20 12
def pAcctEn (p : SPkt) : Bool := bit p.hdr.toNat 19
def pLen (p : SPkt) : Nat := fld p.hdr.toNat 14 5
def pOp (p : SPkt) : Nat := fld p.hdr.toNat 9 5
def pVc (p : SPkt) : Nat := fld p.hdr.toNat 6 3
def pHops (p : SPkt) : Nat := fld p.hdr.toNat 0 6

/-- Operations 0x10 and above are responses (R447). -/
def opRsp (op : Nat) : Bool := op ≥ 0x10

/-- VC class (R445). -/
def pClass (p : SPkt) : Nat := 2 * pVc p + b2n (opRsp (pOp p))

def setHops (p : SPkt) (h : Nat) : SPkt := { p with hdr := BitVec.ofNat 128 (p.hdr.toNat / 64 * 64 + h) }

def setVc (p : SPkt) (v : Nat) : SPkt :=
  { p with hdr := BitVec.ofNat 128 (p.hdr.toNat / 512 * 512 + v * 64 + p.hdr.toNat % 64) }

/-- Four words to a slot, the last slot filled with zero. -/
def slotsOf (ws : List Word) : List (BitVec 128) :=
  (chunks 4 ws.length ws).map (fun c => BitVec.ofNat 128 (ofWords c))

def wordsOfSlots (ds : List (BitVec 128)) : List Word := ds.flatMap (fun d => toWords d.toNat 4)

def bytesOfSlots (ds : List (BitVec 128)) : List Byte := ds.flatMap (fun d => leBytes d.toNat 16)

/-- Sixteen bytes to a slot, the last slot filled with zero. -/
def slotsOfBytes (bs : List Byte) : List (BitVec 128) :=
  (chunks 16 bs.length bs).map (fun c => BitVec.ofNat 128 (ofLe c))

/-- A packet; HOPS stays for the origin's ring router (R462). -/
def mkPkt (addr src tag acctGc : Nat) (acctEn : Bool) (op vc : Nat) (data : List (BitVec 128)) : SPkt :=
  { hdr := BitVec.ofNat 128 (addr % 2 ^ 64 * 2 ^ 64 + src % 2 ^ 17 * 2 ^ 47 + tag % 2 ^ 15 * 2 ^ 32
      + acctGc % 2 ^ 12 * 2 ^ 20 + b2n acctEn * 2 ^ 19 + data.length % 32 * 2 ^ 14 + op % 32 * 2 ^ 9 + vc % 8 * 2 ^ 6)
    data := data }

/-- The VC a request travels on from its origin (R447). -/
def opVc (op : Nat) : Nat := if op = 4 || op = 5 then 1 else if op = 9 then 3 else if op = 0xA || op = 0xB then 0 else 4

/-- The VC of a received request at its origin: R460 leaves an ESC packet nothing but its OP, and a COLL packet its KIND, to
tell it by, and no response to another grove could cross this one on ESC (R447, R460, R502). DEDUCED, log 109. -/
def originVc (p : SPkt) : Nat :=
  if pVc p ≠ 2 then pVc p
  else if pOp p = 9 && fld (p.data.headD 0).toNat 44 4 = 2 then 1
  else opVc (pOp p)

/-- A response to chiplet `dest` on the VC of its request (R446, R447). -/
def rspPkt (s : State) (dest tag op code vc : Nat) (data : List (BitVec 128)) : SPkt :=
  mkPkt (dest % 2 ^ 17 * 2 ^ 47 + code % 256) (originId s).toNat tag 0 false op vc data

/-- LEN of an operation under R447: whether `n` data slots are what it takes. -/
def lenOk (op n : Nat) : Bool :=
  match op with
  | 0x02 => n = 1
  | 0x03 => n = 4
  | 0x05 => n = 1
  | 0x06 => n = 2
  | 0x08 => n = 16
  | 0x09 => 1 ≤ n && n ≤ 16
  | 0x0A => 1 ≤ n && n ≤ 16
  | 0x0B => n = 1
  | 0x11 => n = 1 || n = 4 || n = 16
  | 0x13 => 1 ≤ n && n ≤ 16
  | 0x14 => n ≤ 16
  | _ => n = 0

/-- The operation is one of R447's. -/
def opKnown (op : Nat) : Bool := op ≤ 0x0B || (0x10 ≤ op && op ≤ 0x14)

/-- The VC is one the table gives the operation, or ESC (R447); a response travels as its request did. -/
def vcOk (op vc : Nat) : Bool :=
  vc = 2 || match op with
  | 0x09 => vc = 3 || vc = 1
  | 0x0A => vc = 0
  | 0x0B => vc = 0
  | 0x13 => vc = 0
  | 0x14 => vc = 3 || vc = 1
  | 0x10 => vc = 4 || vc = 1
  | 0x11 => vc = 4 || vc = 1
  | 0x12 => vc < 5
  | _ => vc = opVc op

/-- Slots of a packet in its class's credits (R450). -/
def pSlots (p : SPkt) : Nat := p.data.length + 1

/-! ## Sending inside the chiplet and out of it -/

/-- A packet enters the ring router from inside the chiplet (R456). -/
def toRouter (s : State) (p : SPkt) : State := { s with links := { s.links with router := s.links.router ++ [(4, p)] } }

/-- A control-network request's header flit (R354): ADDR carries the target chiplet on the way to a trunk, and the origin where the
request is delivered (R355). -/
def reqFlit (op : BitVec 5) (r : Req) (chip : BitVec 17) : BitVec 128 :=
  BitVec.ofNat 128 ((gaddr chip.toNat (offOf r.addr)).toNat * 2 ^ 64 + r.tag.toNat % 2 ^ 8 * 2 ^ 56 + r.dst % 2 ^ 12 * 2 ^ 44
    + r.src % 2 ^ 12 * 2 ^ 32 + r.acctGc.toNat * 2 ^ 20 + b2n r.acctEn * 2 ^ 19 + r.len % 8 * 2 ^ 16 + op.toNat * 2 ^ 11
    + r.vc % 4 * 2 ^ 9)

/-- A response's header flit (R354): ADDR is zero, VC is RSP. -/
def rspFlit (op : Nat) (r : Resp) : BitVec 128 :=
  BitVec.ofNat 128 (r.tag.toNat % 2 ^ 8 * 2 ^ 56 + r.ep % 2 ^ 12 * 2 ^ 44 + r.src % 2 ^ 12 * 2 ^ 32 + r.len % 8 * 2 ^ 16
    + op % 32 * 2 ^ 11 + 2 ^ 9 + r.code.toNat)

/-- A refusal counted and reported where it is made (R369); ADDR as it stands there (R355). -/
def noteRefusal (s : State) (src code : Nat) (addr : BitVec 64) (origin : BitVec 17) : State :=
  let t : State := { s with net := { s.net with refusals := mmod 0 s.net.refusals code (fun n => sat32 (n + 1)) } }
  raise t 0x27 src code (addr.toNat + origin.toNat * 2 ^ 64)

/-- A response on its way over the control network. -/
def sendResp (s : State) (op : Nat) (r : Resp) : State :=
  { s with net := { s.net with resps := s.net.resps ++ [(BitVec.ofNat 5 op, { r with hdr := rspFlit op r })] } }

/-- A message leaves its source: to the crown's networks, or through a trunk, which gives a request for another chiplet a
tag of its own (R44, R358, R374; log 12); where no route leads to its trunk a router answers (R360). -/
def launch (s : State) (m : NetMsg) : State :=
  match m with
  | .req op r =>
    if isLocal s (chipOf r.addr) then
      { s with net := { s.net with msgs := s.net.msgs ++ [.req op { r with hdr := reqFlit op r r.origin }] } }
    else if (routeCode s r.src r.dst).isSome then
      sendResp (noteRefusal s r.src 0x0B r.addr r.origin) 0x12
        { ep := r.src, via := none, tag := r.tag, code := 0x0B, len := 0, rsv := false, data := [], src := r.dst }
    else
      let x := s.net.nextX
      let t : State := { s with net := { s.net with
        xtags := mset none s.net.xtags x (some (r.src, r.tag)), nextX := (x + 1) % 2 ^ 15 } }
      toRouter t (mkPkt r.addr.toNat (originId s).toNat x r.acctGc.toNat r.acctEn op.toNat (opVc op.toNat)
        (slotsOf r.data))
  | .inc _ => { s with net := { s.net with msgs := s.net.msgs ++ [m] } }
  | .bara _ _ _ => { s with net := { s.net with msgs := s.net.msgs ++ [m] } }

end Sys2Proof.Machine
end

