-- ==== Sys2Proof/Machine/Remote.lean ====
section
/-! DEFINITION. The leaf's remote operations and its cache in front of them (R42 to R47, R96 to R98, R160 to R171, R357, R358, R374
to R378). -/
namespace Sys2Proof.Machine

/-! ## Regions of the local address map (R45) -/

inductive Place where
  | heartwood (c : Nat)
  | spad (l : Nat)
  | gc (n : Nat)
  | lc (l k : Nat)
  | engine (b : Nat)
  | column (c : Nat)
  | mirror (key : Nat)
  | reserved
  deriving DecidableEq, Repr

def placeOf (off : Nat) : Place :=
  if off < 0x4800000000 then .heartwood (off / 0x80000000)
  else if 0x100000000000 ≤ off && off < 0x100024000000 then .spad ((off - 0x100000000000) / 0x40000)
  else if 0x200000000000 ≤ off && off < 0x200000008000 then .gc ((off - 0x200000000000) / 8)
  else if 0x200001000000 ≤ off && off < 0x200001048000 then
    .lc ((off - 0x200001000000) / 0x80) ((off - 0x200001000000) % 0x80 / 8)
  else if 0x300000000000 ≤ off && off < 0x300000090000 then .engine ((off - 0x300000000000) / 0x1000)
  else if 0x300001000000 ≤ off && off < 0x300001090000 then .column ((off - 0x300001000000) / 0x1000)
  else if 0x400000000000 ≤ off && off < 0x401000000000 then .mirror ((off - 0x400000000000) / 0x1000)
  else .reserved

/-- The endpoint that serves an offset (R49, R357); a reserved offset goes to the source's own column, which refuses it. -/
def endpointOf (off : Nat) : Nat :=
  match placeOf off with
  | .heartwood c => 0x900 + c
  | .spad l => l
  | .gc _ => 0xA00
  | .lc l _ => l
  | .engine b => 0xB00 + b
  | .column c => 0x900 + c
  | .mirror _ => 0xA20
  | .reserved => 0xFFF

/-! ## Remote operations (R96 to R98, R378) -/

/-- A leaf's operation that was refused: counted, its code kept (R96). -/
def remRefuse (x : Leaf) (code : Nat) : Leaf :=
  { x with remRefused := sat32 (x.remRefused + 1), remLast := BitVec.ofNat 8 code }

/-- An earlier RSTW or RSTV to the same chiplet is not yet acknowledged (R378). -/
def fenceHolds (x : Leaf) (chip : BitVec 17) (before : BitVec 15) : Bool :=
  (x.rem.takeWhile (fun r => r.tag ≠ before)).any (fun r => r.write && r.chip = chip)

def msgTag (m : NetMsg) : BitVec 15 :=
  match m with
  | .req _ r => r.tag
  | .inc i => ((i.acks.map Prod.snd).head?).getD 0
  | .bara _ _ t => t

/-- An increment or a barrier arrival. -/
def isIncr (m : NetMsg) : Bool :=
  match m with
  | .req op _ => op = 5
  | _ => true

/-- A tag of eight bits that none of `used` is (R354), from the next in turn on. -/
def tagFrom (used : List (BitVec 15)) (next : Nat) : BitVec 15 :=
  BitVec.ofNat 15 ((((List.range 256).map (fun i => (next + i) % 256)).find? (fun t => !used.contains (BitVec.ofNat 15 t))).getD 0)

/-- A tag that no outstanding operation of the leaf carries. -/
def freshTag (x : Leaf) : BitVec 15 := tagFrom (x.rem.map (fun r => r.tag) ++ x.loads.map (fun p => p.tag)) x.nextTag

/-- The remote operation takes its tag and its place in rem_out and leaves the leaf, unless a GFINC holds it there, or it is an
increment behind a window change that is still to take effect (R96, R144, R367, R368, R378). -/
def sendRemote (s : State) (l : Nat) (addr : BitVec 64) (chip : BitVec 17) (write fence : Bool) (msg : BitVec 15 → NetMsg) : State :=
  let x := leafOf s l
  let tag := freshTag x
  let held : Bool := x.heldSends ≠ [] || (fence && x.rem.any (fun r => r.write && r.chip = chip))
    || (isIncr (msg tag) && windowsLate s l)
  let y : Leaf := { x with
    nextTag := (x.nextTag + 1) % 2 ^ 14
    rem := x.rem ++ [{ tag := tag, chip := chip, write := write, addr := addr, sentAt := s.clk.cclk,
                       timeout := odNat s 0x304001 }]
    heldSends := if held then x.heldSends ++ [{ msg := msg tag, fence := if fence then some chip else none }]
                 else x.heldSends }
  if held then setLeaf s l y else launch (setLeaf s l y) (msg tag)

/-- RSTW, RSTV, GINC, GFINC and BARA: a place among 16, one effect, the source's check, the send (R43, R96, R97, R106). -/
def remoteBody (s : State) (l : Nat) (addr : BitVec 64) (write fence : Bool) (fin : Leaf → Leaf)
    (msg : BitVec 15 → NetMsg) : Res :=
  let x := leafOf s l
  if x.rem.length ≥ 16 then .block (.stall .remoteFull)
  else match effect x with
    | none => .fault 0x08 0
    | some (false, y) => .done (setLeaf s l (fin y))
    | some (true, y) =>
      if sourceRefused s (chipOf addr) then .done (setLeaf s l (remRefuse (fin y) 0x02))
      else .done (sendRemote (setLeaf s l (fin y)) l addr (chipName s (chipOf addr)) write fence msg)

/-- A request of leaf `l` as it leaves (R354, R355, R358). -/
def leafReq (s : State) (l : Nat) (addr : BitVec 64) (len : Nat) (data : List Word) (tag : BitVec 15) : Req :=
  { origin := originId s, src := l,
    dst := if isLocal s (chipOf addr) then endpointOf (offOf addr) else trunkEp s l,
    tag := tag, addr := addr, acctEn := false, acctGc := 0, len := len, vc := 0, rsv := false, via := none, data := data }

/-- The global counter of this chiplet that an address names (R45, R374). -/
def localGc (s : State) (addr : BitVec 64) : Option Nat :=
  if !isLocal s (chipOf addr) || offOf addr % 8 ≠ 0 then none
  else match placeOf (offOf addr) with
    | .gc n => some n
    | _ => none

/-- RLDW and GRD: the read leaves and its destination waits for the response (R98). -/
def readBody (s : State) (l : Nat) (addr : BitVec 64) (op : BitVec 5) (pair : Bool) (d : Nat) : Res :=
  let x := leafOf s l
  if sourceRefused s (chipOf addr) then .fault 0x0F 0
  else
    let tag := freshTag x
    let y : Leaf := { x with
      nextTag := (x.nextTag + 1) % 2 ^ 14
      loads := x.loads ++ [{ tag := tag, pair := pair, d := d, addr := addr, sentAt := s.clk.cclk,
                             timeout := odNat s 0x304001, pc := pcOf x,
                             inStep := decide (x.step.shadow ≠ none) }] }
    let m : NetMsg := .req op (leafReq s l addr 0 [] tag)
    if x.heldSends ≠ [] then .done (setLeaf s l { y with heldSends := y.heldSends ++ [{ msg := m, fence := none }] })
    else .done (launch (setLeaf s l y) m)

/-! ## The cache (R160 to R172) -/

/-- The cache serves the address: this chiplet's heartwood, in cache mode (R162). -/
def cached (s : State) (l : Nat) (addr : BitVec 64) : Bool :=
  (leafOf s l).cache.size ≠ 0 && isLocal s (chipOf addr) && match placeOf (offOf addr) with
    | .heartwood _ => true
    | _ => false

/-- Set of a line (R163). -/
def lineSet (x : Leaf) (line : Nat) : Nat := if x.cache.size = 1 then line % 256 else line % 512

def findLine (x : Leaf) (line : Nat) : Option CLine := x.cache.lines.find? (fun c => c.line = line)

/-- The line becomes the most recently used. -/
def touchLine (x : Leaf) (c : CLine) : Leaf :=
  { x with cache := { x.cache with lines := c :: x.cache.lines.filter (fun d => d.line ≠ c.line) } }

def bumpCtr (x : Leaf) (k n : Nat) : Leaf := { x with counters := mmod 0 x.counters k (fun v => sat32 (v + n)) }

/-- Words with bad parity in a line that is read: PARITY_CORE (1) of an RLDW, PARITY_OTHER (2) of a write-back; and poison (R155,
R158; log 132). -/
def countLine (x : Leaf) (k : Nat) (c : CLine) : Leaf :=
  bumpCtr (bumpCtr x k ((List.range 16).filter (fun i => c.bad.getLsbD i)).length) 4 (b2n (c.poison ≠ 0))

/-- A dirty line goes back to its column, read as a DMA access: its bad words poisoned, counted and reported (R158, R166, R168,
R171). The request carries the mask of poisoned words after its sixteen words, and a tag beyond those of the control network. -/
def cacheWriteBack (s : State) (l : Nat) (c : CLine) (event : Bool) : State :=
  let x := leafOf s l
  let tag := x.nextTag
  let r := leafReq s l (gaddr 0x1FFFF (c.line * 64)) 4 (c.data ++ [BitVec.setWidth 32 (c.bad ||| c.poison)])
    (BitVec.ofNat 15 (2 ^ 14 + tag))
  let y := bumpCtr (countLine { x with
    nextTag := (tag + 1) % 2 ^ 14
    rem := x.rem ++ [{ tag := BitVec.ofNat 15 (2 ^ 14 + tag), chip := 0x1FFFF, write := false, wb := true, sentAt := s.clk.cclk,
                       timeout := odNat s 0x304001, addr := r.addr }] } 2 c) 13 1
  let s1 := launch (setLeaf s l (bumpCtr y 14 (b2n ((c.bad ||| c.poison) ≠ 0)))) (.req 3 r)
  if event && c.bad ≠ 0 then raise s1 0x23 l 0 (c.line * 64) else s1

/-- Dirty lines start on their way back; their lines become clean. -/
def writeBackAll (s : State) (l : Nat) : State :=
  let s1 := ((leafOf s l).cache.lines.filter (fun c => c.dirty)).foldl (fun t c => cacheWriteBack t l c true) s
  modLeaf s1 l (fun x => { x with cache := { x.cache with lines := x.cache.lines.map (fun c => { c with dirty := false }) } })

/-- Room for a line in its set: the least recently used of four leaves, written back when dirty (R163, R164, R171). -/
def evictFor (s : State) (l line : Nat) : State :=
  let x := leafOf s l
  let ways := x.cache.lines.filter (fun c => lineSet x c.line = lineSet x line)
  if ways.length < 4 then s
  else match ways.getLast? with
    | some v =>
      let t := modLeaf s l (fun y => { y with cache := { y.cache with lines := y.cache.lines.filter (fun c => c.line ≠ v.line) } })
      if v.dirty then cacheWriteBack t l v true else t
    | none => s

/-- Bits of `m` at position `w`. -/
def bitAt (w : Nat) : BitVec 16 := BitVec.ofNat 16 (2 ^ w)

/-- One word stored into a line: it is whole again. -/
def storeWord (c : CLine) (w : Nat) (v : Word) : CLine :=
  { c with dirty := true, data := mkLanes (fun i => if i = w then v else lane c.data i),
           bad := c.bad &&& ~~~(bitAt w), poison := c.poison &&& ~~~(bitAt w) }

/-- An RLDW that meets its line (R155, R167, R169, R170): the word; a re-run, with a clean line that holds a bad or poisoned word
invalidated; or a fault after the write-back of a dirty line that holds a bad one. -/
def loadHit (s : State) (l t d w : Nat) (c : CLine) : Res :=
  let s1 := modLeaf s l (fun x => countLine (touchLine (bumpCtr x 11 1) c) 1 c)
  let erring (u : State) (poison : Bool) : State :=
    let f := draw u
    modLeaf f.2 l (fun x => { writeS x d f.1 t 6 with
      errs := x.errs ++ [{ poison := poison, pc := pcOf x, at_ := s.clk.cclk + 3 }] })
  if c.dirty && c.bad ≠ 0 then
    let s2 := cacheWriteBack s1 l c false
    .faultIn (modLeaf s2 l (fun x => touchLine x { c with dirty := false, bad := 0, poison := c.bad ||| c.poison })) 0x0E
  else if !c.dirty && (c.bad ||| c.poison) ≠ 0 then
    .done (modLeaf (erring s1 (c.bad = 0)) l (fun x => { x with
      cache := { x.cache with lines := x.cache.lines.filter (fun e => e.line ≠ c.line) } }))
  else if c.poison.getLsbD w then .done (erring s1 true)
  else .done (modLeaf s1 l (fun x => writeS x d (lane c.data w) t 6))

/-- RLDW in cache mode (R162 to R164, R167, R169, R170): a hit, or a miss that waits for its fill. -/
def cachedLoad (s : State) (l t d off : Nat) : Res :=
  let x := leafOf s l
  let line := off / 64
  let w := off / 4 % 16
  match findLine x line with
  | some c => loadHit s l t d w c
  | none =>
    .done (setLeaf s l (bumpCtr { x with cache := { x.cache with
      misses := x.cache.misses ++ [{ line := line, w := w, store := none, d := d, tag := 0, pc := pcOf x,
                                     inStep := decide (x.step.shadow ≠ none) }] } } 12 1))

/-- RSTW in cache mode: merged into its line, or waiting for the line's fill in rem_out (R164, R165). -/
def cachedStore (s : State) (l off : Nat) (v : Word) : State :=
  let x := leafOf s l
  let line := off / 64
  let w := off / 4 % 16
  match findLine x line with
  | some c => setLeaf s l (touchLine (bumpCtr x 11 1) (storeWord c w v))
  | none =>
    let tag := freshTag x
    setLeaf s l (bumpCtr { x with
      nextTag := (x.nextTag + 1) % 2 ^ 14
      rem := x.rem ++ [{ tag := tag, chip := 0x1FFFF, write := true, sentAt := s.clk.cclk }]
      cache := { x.cache with
        misses := x.cache.misses ++ [{ line := line, w := w, store := some v, d := 0, tag := tag, pc := pcOf x }] } } 12 1)

/-- RSTV in cache mode: the whole line, allocated without a fill on a miss (R164, R165). -/
def cachedLine (s : State) (l off : Nat) (v : Lanes) : State :=
  let line := off / 64
  let hit := (findLine (leafOf s l) line).isSome
  let s1 := if hit then s else evictFor s l line
  modLeaf s1 l (fun x => touchLine (bumpCtr x (if hit then 11 else 12) 1) { line := line, dirty := true, data := v })

/-- RSTW and RSTV in cache mode: a place among the 16, one effect, the line (R96, R97, R106). -/
def cachedWrite (s : State) (l : Nat) (fin : Leaf → Leaf) (put : State → State) : Res :=
  let x := leafOf s l
  if x.rem.length ≥ 16 then .block (.stall .remoteFull)
  else match effect x with
    | none => .fault 0x08 0
    | some (false, y) => .done (setLeaf s l (fin y))
    | some (true, y) => .done (put (setLeaf s l (fin y)))

end Sys2Proof.Machine
end

