-- ==== Sys2Proof/Machine/Net.lean ====
section
/-! DEFINITION. Requests at their targets: the checks of R46, R47, R139, R356, R357, R370 and R413, what each performs, and
its answer; increments and barrier arrivals at the sync hub (R371, R374, R377, R380, R383, R387, R388, R423, R448). -/
namespace Sys2Proof.Machine

/-! ## The sync hub's counters -/

/-- The hub's watches on a counter whose value they expected: removed, and SATISFY sent with the value (R383, R385). -/
def satisfyWatches (s : State) (g : Nat) : State :=
  let v := gcGet s g
  { s with leaves := mmap {} s.leaves (fun _ x =>
      match x.watch with
      | some w => if w.1 = g && decide (w.2.toNat ≤ v.toNat)
          then { x with watch := none, fromHub := x.fromHub ++ [.satisfy v] } else x
      | none => x) }

/-- An increment of a global counter, and the watches it satisfies (R371, R373, R383). -/
def gcAdd (s : State) (g n : Nat) : State := satisfyWatches (gcInc s g n) g

/-! ## Refusal codes (R369) -/

def sameUnit (a b : Nat) : Bool := placeOf a = placeOf b

/-- A heartwood or column-status offset of a column whose controller the defect list names (R46, R51). -/
def colFailed (s : State) (c : Nat) : Bool := mget false s.boot.failedColumns c

/-- A place whose index names nothing in the current shape (R46). -/
def outOfShape (s : State) (p : Place) : Bool :=
  match p with
  | .spad l => !leafOk s l
  | .lc l _ => !leafOk s l
  | .engine b => !boughOk s b
  | .heartwood c => colFailed s c
  | .column c => colFailed s c
  | _ => false

def placeFenced (s : State) (p : Place) : Bool :=
  match p with
  | .spad l => leafFenced s l
  | .lc l _ => leafFenced s l
  | .engine b => boughFenced s b
  | .heartwood c => colFenced s c
  | .column c => colFenced s c
  | _ => false

def isCounter (p : Place) : Bool :=
  match p with
  | .gc _ => true
  | .lc _ _ => true
  | _ => false

def isMirror (p : Place) : Bool :=
  match p with
  | .mirror _ => true
  | _ => false

/-- The object that a mirror offset shows (R48). -/
def mirrorObj (s : State) (p : Place) : Option Obj :=
  match p with
  | .mirror key => objOf s (key / 256) (key % 256)
  | _ => none

/-- ACCESS_DENIED of R46 and R370: `ctr` is a CREAD or CINC. -/
def denied (s : State) (p : Place) (ctr write : Bool) : Bool :=
  match p with
  | .gc _ => !ctr
  | .lc _ _ => !ctr
  | .engine _ => write || ctr
  | .column _ => write || ctr
  | .mirror _ => write || ctr || (match mirrorObj s p with
    | some o => o.acc = 3 || o.acc = 5
    | none => false)
  | _ => ctr

/-- The conditions of R46 on an access of `n` bytes, in the order of its table (R47); its ADDR_SPAN row does not name the
mirror's windows. -/
def accessCode (s : State) (off n : Nat) (ctr write : Bool) : Option Nat :=
  let p := placeOf off
  let q := placeOf (off + n - 1)
  let run := s.boot.phase = .compute
  if p = .reserved || q = .reserved || (run && (outOfShape s p || outOfShape s q))
    || (isMirror p && mirrorObj s p = none) || (isMirror q && mirrorObj s q = none) then some 3
  else if p ≠ q && !isMirror p then some 4
  else if (if isCounter p then n ≠ 8 || off % 8 ≠ 0 else n ≠ 8 && off % n ≠ 0) then some 5
  else if denied s p ctr write then some 6
  else if run && placeFenced s p then some 7
  else if !run && !isMirror p then some 1
  else none

/-- R357: DST_EP names an endpoint of the current shape. -/
def endpointOk (s : State) (ep : Nat) : Bool :=
  if ep < 0x900 then leafOk s ep
  else if ep < 0x990 then true
  else if ep = 0xA00 || (0xA10 ≤ ep && ep < 0xA20) || ep = 0xA20 then true
  else 0xB00 ≤ ep && ep < 0xB90 && boughOk s (ep - 0xB00)

/-- R356 for a request of this chiplet; a link's were checked at its port (R473). -/
def badPacket (r : Req) (len : Nat) : Bool := r.via = none && (r.len ≠ len || r.vc ≠ 0 || r.rsv)

/-! ## Answers -/

/-- The request leaves the network. -/
def takeMsg (s : State) (op : Nat) (r : Req) : State :=
  let same (m : NetMsg) : Bool :=
    match m with
    | .req o q => o.toNat = op && q.src = r.src && q.tag = r.tag && q.via = r.via
    | _ => false
  { s with net := { s.net with msgs := s.net.msgs.eraseP same } }

/-- The request waits where it is. -/
def keepMsg (s : State) (op : Nat) (r : Req) : State :=
  let t := takeMsg s op r
  if t.net.msgs.length < s.net.msgs.length then s
  else { s with net := { s.net with msgs := s.net.msgs ++ [.req (BitVec.ofNat 5 op) r] } }

/-- An earlier request of the same source to the same destination stands before this one (R362). -/
def overtakes (s : State) (op : Nat) (r : Req) : Bool :=
  let ahead (m : NetMsg) : Bool :=
    match m with
    | .req _ q => q.src = r.src && q.dst = r.dst
    | _ => false
  match s.net.msgs.find? ahead with
  | some (.req o q) => !(o.toNat = op && q.tag = r.tag && q.via = r.via)
  | _ => false

/-- A response to the request's source: on the control network, or as a packet to the chiplet it came from (R365, R447). -/
def respond (s : State) (r : Req) (op code : Nat) (data : List Word) : State :=
  match r.via with
  | none => sendResp s op { ep := r.src, via := none, tag := r.tag, code := BitVec.ofNat 8 code,
                            len := (data.length + 3) / 4, rsv := false, data := data, src := r.dst }
  | some _ => toRouter s (rspPkt s r.origin.toNat r.tag.toNat op code r.vc (slotsOf data))

/-- A violation that R473 counts on a port: link_violations, LAST_VIOLATION and LINK_VIOLATION. -/
def countViolation (s : State) (p code : Nat) (hdr : BitVec 128) : State :=
  let t : State := { s with links := { s.links with
    violations := mmod 0 s.links.violations (16 * p + code) (fun n => sat32 (n + 1)) } }
  raise (modPort t p (fun x => { x with lastViol := code })) 0xA1 p code hdr.toNat

/-- A refused request: NAK, ctl_refusals, CTL_REFUSED with ADDR as delivered (R355); on a link's request also the violation, which
DATA_ERROR and NO_ROUTE are not (R369, R473). -/
def refuse (s : State) (r : Req) (code : Nat) : State :=
  let s2 := noteRefusal s r.src code (gaddr r.origin.toNat (offOf r.addr)) r.origin
  let s3 := match r.via with
    | some p => if p < 4 && code ≠ 9 && code ≠ 0x0B then countViolation s2 p (if code = 8 then 0x0B else 0x0C) r.hdr else s2
    | none => s2
  respond s3 r 0x12 code []

/-- What is answered before the target looks at the access: by a router (R360, R361), for a malformed packet (R356), or for an
endpoint that the shape does not have (R357). -/
def admitCode (s : State) (r : Req) (len : Nat) : Option Nat :=
  match routeCode s r.src r.dst with
  | some c => some c
  | none =>
    if badPacket r len then some 0x0A
    else if s.boot.phase = .compute && !endpointOk s r.dst then some 3 else none

/-! ## Reads -/

/-- Engine status block (R261), bytes `o` to `o + n − 1`. -/
def engineBlock (s : State) (b : Nat) : List Byte :=
  let e := engOf s b
  let state := e.opseq * 2 ^ 32 + e.last * 256 + b2n e.run.isSome * 8 + e.queue.length
  let leafBlk (j : Nat) : List Byte :=
    let x := leafOf s (boughLeaf b j)
    leBytes x.cache.size.toNat 4 ++ (List.range 14).flatMap (fun k => leBytes (mget 0 x.counters (k + 1)) 4)
      ++ List.replicate 4 0
  leBytes state 8 ++ (List.range 6).flatMap (fun k => leBytes (mget 0 e.counters k) 4) ++ List.replicate 0xE0 0
    ++ (List.range 16).flatMap (fun k => leBytes (mget 0 e.ring k).toNat 32) ++ List.replicate 0x500 0
    ++ (List.range 16).flatMap leafBlk ++ List.replicate 0x400 0

/-- Column status block (R436). -/
def columnBlock (s : State) (c : Nat) : List Byte :=
  let x := colOf s c
  let state := x.dseq % 2 ^ 24 * 2 ^ 40 + b2n (colFailed s c) * 128 + b2n (colFenced s c) * 64
    + b2n (boughAt s c).isSome * 32 + x.queue.length
  leBytes state 8 ++ (List.range 9).flatMap (fun k => leBytes (mget 0 x.counters k) 4) ++ List.replicate 0x14 0
    ++ (List.range 48).flatMap (fun k => leBytes (mget 0 x.tierCounters k) 4)
    ++ (List.range 16).flatMap (fun k => leBytes (mget 0 x.ring k).toNat 16) ++ List.replicate 0xE00 0

/-- The object's window in the mirror: zeros past its end (R48). -/
def mirrorBytes (s : State) (p : Place) (o n : Nat) : List Byte :=
  match mirrorObj s p with
  | some x => (List.range n).map (fun i => x.val.getD (o + i) 0)
  | none => List.replicate n 0

/-- Bytes of an access that every check has passed; none for DATA_ERROR. Heartwood counts the request it serves
(R423), the scratchpad drains and checks (R133, R157). -/
def readPlace (s : State) (off n : Nat) (check : LineCheck) : State × Option (List Byte) :=
  match placeOf off with
  | .heartwood c =>
    let o := off % 0x80000000
    let f := lineFetch (bumpCol s c 3 1) c (o / 64) check
    (f.1, if badRead f.2.2 then none else some (((f.2.1).drop (o % 64)).take n))
  | .spad l =>
    let f := slotARead s l (off % 0x40000) n
    (f.1, if f.2.2.1 || f.2.2.2 then none else some f.2.1)
  | .gc g => (s, some (leBytes (gcGet s g).toNat n))
  | .lc l k => (s, some (leBytes (lcGet s l k).toNat n))
  | .engine b => (s, some (((engineBlock s b).drop (off % 0x1000)).take n))
  | .column c => (s, some (((columnBlock s c).drop (off % 0x1000)).take n))
  | .mirror key => (s, some (mirrorBytes s (.mirror key) (off % 0x1000) n))
  | .reserved => (s, none)

/-- A launched line of the column still stands before an access to the same line (R406). -/
def lineAhead (s : State) (c line n : Nat) : Bool :=
  (colOf s c).lines.any (fun k => line ≤ k.off / 64 && k.off / 64 < line + (n + 63) / 64)

/-- The scoreboard holds a remote access in the remote port (R152), or a launched line goes before it (R406). -/
def remoteHeld (s : State) (off n : Nat) (write : Bool) : Bool :=
  match placeOf off with
  | .spad l => sbHolds (leafOf s l) (wordsOf (off % 0x40000) n) write
  | .heartwood c => lineAhead s c (off % 0x80000000 / 64) n
  | _ => false

/-! ## The ports of scratchpads and columns (R123, R145, R397, R400, R423) -/

/-- The descriptor's own scoreboard entries conflict with earlier ones (R152, R415). -/
def dmaHeld (s : State) (d : DDesc) : Bool :=
  let op := dOpId d.poster d.dseq
  let x := leafOf s (dLeaf d.poster)
  (x.sb.filter (fun e => e.op = op)).any (fun e => sbBefore x e.op e.lo e.hi e.w)

/-- The far byte lies in the controller's own column: its column offset. -/
def ownOffset (s : State) (c far : Nat) : Option Nat :=
  let a : BitVec 64 := BitVec.ofNat 64 far
  if isLocal s (chipOf a) && placeOf (offOf a) = .heartwood c then some (offOf a % 0x80000000) else none

/-- The descriptor at the head of the column's queue has a home line, or an element to begin, for the slot that is open. -/
def homeWants (s : State) (c : Nat) : Bool :=
  match (colOf s c).queue with
  | d :: _ =>
    if d.refused ≠ none || colFenced s c then false
    else if d.begun then (ownOffset s c (d.far + d.off)).isSome
    else !(d.elem = 0 && dmaHeld s d)
  | [] => false

/-- The request (source, tag) still waits; a leaf's fill is named 0x1000 + its index. -/
def stillWaits (s : State) (w : Nat × BitVec 15 × Nat) : Bool :=
  if 0x1000 ≤ w.1 then (leafOf s (w.1 - 0x1000)).cache.misses ≠ []
  else s.net.msgs.any (fun m => match m with
    | .req _ q => q.src = w.1 && q.tag = w.2.1
    | _ => false)

/-- A request that has waited for 64 data slots takes the next ahead of home lines, once in any 64 data slots (R423). -/
def floorDue (s : State) (x : Column) (w : Nat × BitVec 15 × Nat) : Bool :=
  let k := dataSlotsTo (openSlot s)
  decide (w.2.2 + 64 ≤ k) && x.floorAt.all (fun f => decide (f + 64 ≤ k)) && stillWaits s w

def floorClaim (s : State) (c : Nat) : Bool := (colOf s c).served.any (floorDue s (colOf s c))

/-- A request of the column asks for the open data slot for each of `lines`, the later ones in the data slots after it: granted where
no home line wants it but for the floor, and its bank is free; else it waits (R397, R400, R421, R423). -/
def askSlot (s : State) (c src : Nat) (tag : BitVec 15) (lines : List Nat) (rmw : Bool) : Bool × State :=
  let x := colOf s c
  let r := openSlot s
  let own (w : Nat × BitVec 15 × Nat) : Bool := w.1 = src && w.2.1 = tag
  let w := (x.served.find? own).getD (src, tag, dataSlotsTo r)
  let first : Bool := floorDue s x w
  let rest := x.served.filter (fun k => !own k)
  if !slotFree s x || (homeWants s c && !first) || (!first && rest.any (floorDue s x)) then
    (false, setCol s c { x with served := rest ++ [w] })
  else if bankBusy x r (bankKey (lines.headD 0)) then
    (false, emptySlot (setCol s c { x with served := rest ++ [w] }) c)
  else
    let y := lines.foldl (fun (p : Column × Nat) line => (commitLine p.1 p.2 (bankKey line) rmw,
      if p.2 % 8 = 6 then p.2 + 2 else p.2 + 1)) (x, r)
    (true, setCol s c { y.1 with served := rest, floorAt := if first && homeWants s c then some (dataSlotsTo r) else x.floorAt })

/-- The access's place at its unit's port: REMOTE's banks, one access in a cycle (R123, R145); a data slot of the column (R423); a
leaf's counters behind its window changes (R144). -/
def portAsk (s : State) (r : Req) (off n : Nat) (write : Bool) : Bool × State :=
  match placeOf off with
  | .spad l =>
    if s.clk.cclk < (leafOf s l).remoteAt then (false, s)
    else
      let a := slotAAsk s l 4 (rowsOf (off % 0x40000) n) write
      if a.1 then (true, modLeaf a.2 l (fun x => { x with remoteAt := s.clk.cclk + (n + 63) / 64 })) else a
  | .heartwood c =>
    let o := off % 0x80000000
    askSlot s c r.src r.tag ((List.range ((n + 63) / 64)).map (fun i => o / 64 + i)) (write && n < 64)
  | .lc l _ => (write || !windowsLate s l, s)
  | _ => (true, s)

/-- WINDOW_DENIED: no window of the leaf admits the access (R139). -/
def windowCode (s : State) (r : Req) (off n : Nat) (write : Bool) : Bool :=
  match placeOf off with
  | .spad l => !windowAdmits s l (off % 0x40000) n write r.origin
  | _ => false

/-- What the leaf does of a window refusal (R138, R141 to R143). -/
def noteWindow (s : State) (r : Req) (off n : Nat) (write : Bool) : State :=
  match placeOf off with
  | .spad l => windowRefuse s l (off % 0x40000) n write r.origin
  | _ => s

/-- The first refusal of one access: R46's conditions, then the windows. -/
def firstCode (s : State) (r : Req) (off n : Nat) (ctr write : Bool) : Option Nat :=
  match accessCode s off n ctr write with
  | some c => some c
  | none => if windowCode s r off n write then some 8 else none

/-- A request of one access of `n` bytes: refused, held, or performed by `act`. -/
def serveOne (s : State) (op len n : Nat) (ctr write : Bool) (r : Req) (act : State → State) : State :=
  let off := offOf r.addr
  let t := takeMsg s op r
  if overtakes s op r then keepMsg s op r
  else match admitCode s r len with
    | some c => refuse t r c
    | none => match accessCode s off n ctr write with
      | some c => refuse t r c
      | none =>
        if remoteHeld s off n write then keepMsg s op r
        else if windowCode s r off n write then refuse (noteWindow t r off n write) r 8
        else
          let a := portAsk s r off n write
          if a.1 then act (takeMsg a.2 op r) else keepMsg a.2 op r

/-- A served read answers DATA, or NAK DATA_ERROR (R157, R423). -/
def answerRead (s : State) (r : Req) (n : Nat) : State :=
  let f := readPlace s (offOf r.addr) n (r.check.headD .clean)
  match f.2 with
  | some bs => respond f.1 r 0x11 0 (wordsOfBytes bs)
  | none => refuse f.1 r 9

/-- READ4 (R46, R139, R157, R374, R423). -/
def execRead4 (r : Req) (s : State) : Out :=
  .next (serveOne s 0 0 4 false false r (fun t => answerRead t r 4))

/-- READ64. -/
def execRead64 (r : Req) (s : State) : Out :=
  .next (serveOne s 1 0 64 false false r (fun t => answerRead t r 64))

/-- CREAD: the counter's value in data [63:0] (R370, R374). -/
def execCread (r : Req) (s : State) : Out :=
  .next (serveOne s 4 0 8 true false r (fun t => answerRead t r 8))

/-! ## Writes -/

/-- A write that every check has passed. `poison` is what a cache's write-back carries (R171, R396). -/
def writePlace (s : State) (off : Nat) (bs : List Byte) (poison : Bool) (check : LineCheck) : State :=
  match placeOf off with
  | .heartwood c =>
    let o := off % 0x80000000
    (lineWrite (bumpCol s c 3 1) c (o / 64) (o % 64) bs poison check).1
  | .spad l => slotAWrite s l (off % 0x40000) bs false
  | _ => s

/-- Receiver-side accounting, before the acknowledgement (R380). -/
def account (s : State) (r : Req) (n : Nat) : State := if r.acctEn then gcAdd s r.acctGc.toNat n else s

/-- The bytes of a request's first `k` data words. -/
def reqBytes (r : Req) (k : Nat) : List Byte :=
  (List.range k).flatMap (fun i => leBytes (r.data.getD i 0).toNat 4)

/-- The word after a write-back's data: which of its words are poisoned (R171). -/
def wbPoison (r : Req) : Bool := r.data.getD 16 0 ≠ 0

/-- WRITE4 (R139, R377, R380, R421, R423). -/
def execWrite4 (r : Req) (s : State) : Out :=
  .next (serveOne s 2 1 4 false true r (fun t =>
    respond (account (writePlace t (offOf r.addr) (reqBytes r 1) false (r.check.headD .clean)) r 4) r 0x10 0 []))

/-- WRITE64. -/
def execWrite64 (r : Req) (s : State) : Out :=
  .next (serveOne s 3 4 64 false true r (fun t =>
    respond (account (writePlace t (offOf r.addr) (reqBytes r 16) (wbPoison r) (r.check.headD .clean)) r 64) r 0x10 0 []))

/-- CINC: the amount in data [31:0] (R370, R373, R374, R375). -/
def execCinc (r : Req) (s : State) : Out :=
  .next (serveOne s 5 1 8 true true r (fun t =>
    let n := (r.data.getD 0 0).toNat
    let u := match placeOf (offOf r.addr) with
      | .gc g => gcAdd t g n
      | .lc l k => lcInc t l k n
      | _ => t
    respond u r 0x10 0 []))

/-! ## 256-byte requests (R447, R448) -/

/-- Offsets of the four 64-byte accesses. -/
def quarters (off : Nat) : List Nat := (List.range 4).map (fun i => off + 64 * i)

/-- The whole request breaks the 256-byte alignment of R46, or spans units. -/
def wholeCode (off : Nat) : Option Nat :=
  if placeOf off ≠ .reserved && placeOf (off + 255) ≠ .reserved && placeOf off ≠ placeOf (off + 255)
    && !isMirror (placeOf off) then some 4
  else if off % 256 ≠ 0 then some 5 else none

/-- The refusal of a 256-byte request: where the whole breaks the alignment or spans, R46's first code of all its bytes (R47); else
that of its access with the lowest address (R448). -/
def code256 (s : State) (r : Req) (write : Bool) : Option (Nat × Nat) :=
  let off := offOf r.addr
  match wholeCode off with
  | some b =>
    let cs := (quarters off).filterMap (fun q => accessCode s q 64 false write)
    some (off, if cs.contains 3 then 3 else if cs.contains 4 then 4 else b)
  | none => (quarters off).findSome? (fun q => (firstCode s r q 64 false write).map (fun c => (q, c)))

/-- A 256-byte request: of a link alone (R354, R447); refused whole, held, or performed (R448). -/
def serve256 (s : State) (op len : Nat) (write : Bool) (r : Req) (act : State → State) : State :=
  let t := takeMsg s op r
  let off := offOf r.addr
  if overtakes s op r then keepMsg s op r
  else if r.via = none then refuse t r 0x0A
  else match admitCode s r len with
    | some c => refuse t r c
    | none => match code256 s r write with
      | some (q, c) =>
        if c = 8 && remoteHeld s off 256 write then keepMsg s op r
        else refuse (if c = 8 then noteWindow t r q 64 write else t) r c
      | none =>
        if remoteHeld s off 256 write then keepMsg s op r
        else
          let a := portAsk s r off 256 write
          if a.1 then act (takeMsg a.2 op r) else keepMsg a.2 op r

/-- The four reads in order; none when any finds bad parity or poison. -/
def readFour (s : State) (qs : List Nat) (cs : List LineCheck) : State × Option (List Byte) :=
  match qs with
  | [] => (s, some [])
  | q :: rest =>
    let f := readPlace s q 64 (cs.headD .clean)
    let g := readFour f.1 rest (cs.drop 1)
    (g.1, match f.2, g.2 with
      | some a, some b => some (a ++ b)
      | _, _ => none)

/-- READ256. -/
def execRead256 (r : Req) (s : State) : Out :=
  .next (serve256 s 7 0 false r (fun t =>
    let f := readFour t (quarters (offOf r.addr)) r.check
    match f.2 with
    | some bs => respond f.1 r 0x11 0 (wordsOfBytes bs)
    | none => refuse f.1 r 9))

/-- WRITE256. -/
def execWrite256 (r : Req) (s : State) : Out :=
  .next (serve256 s 8 16 true r (fun t =>
    let off := offOf r.addr
    let bs := reqBytes r 64
    let u := (List.range 4).foldl (fun u i => writePlace u (off + 64 * i) ((bs.drop (64 * i)).take 64) false .clean) t
    respond (account u r 256) r 0x10 0 []))

/-! ## Increments and barriers on the sync network -/

/-- An acknowledgement from the sync network lowers its leaf's rem_out (R374, R388). -/
def syncAck (s : State) (a : Nat × BitVec 15) : State :=
  modLeaf s a.1 (fun x => { x with rem := x.rem.filter (fun r => r.tag ≠ a.2) })

/-- REMOTE_INCREMENT: applied, acknowledged in the same cycle (R371 to R374, R383, R388). -/
def execRemoteIncrement (m : IncMsg) (s : State) : Out :=
  .next (
    if s.boot.phase ≠ .compute then s
    else
      let t : State := { s with net := { s.net with msgs := s.net.msgs.erase (.inc m) } }
      m.acks.foldl syncAck (gcAdd t m.gc m.amount))

/-- The arrivals for counter `gc` that wait in a combiner: bough combiners are nodes 0 to 143, regions 144 to 159, the
hub 160 (R387). -/
def arrivals (s : State) (node gc : Nat) : List Comb :=
  let own := s.hub.comb.filter (fun c => c.node = node && c.gc = gc)
  let fromLeaf (m : NetMsg) : List Comb :=
    match m with
    | .bara l g tag => if boughOf l = node && g = gc then [{ node := node, gc := gc, sum := 1, acks := [(l, tag)] }] else []
    | _ => []
  own ++ (if node < 144 then s.net.msgs.flatMap fromLeaf else [])

/-- What is left when a combiner has taken its arrivals for `gc`. -/
def dropArrivals (s : State) (node gc : Nat) : State :=
  let leaves (m : NetMsg) : Bool :=
    match m with
    | .bara l g _ => boughOf l = node && g = gc
    | _ => false
  { s with
    hub := { s.hub with comb := s.hub.comb.filter (fun c => !(c.node = node && c.gc = gc)) }
    net := { s.net with msgs := if node < 144 then s.net.msgs.filter (fun m => !leaves m) else s.net.msgs } }

/-- BARRIER_COMBINE: one message for the counter, with the sum of the arrivals, to the next combiner or as an increment
at the hub (R387, R388). -/
def execBarrierCombine (node gc : Nat) (s : State) : Out :=
  .next (
    let as := arrivals s node gc
    if as = [] || s.boot.phase ≠ .compute then s
    else
      let t := dropArrivals s node gc
      let sum := (as.map (fun c => c.sum)).sum
      let acks := as.flatMap (fun c => c.acks)
      if node ≥ 160 then { t with net := { t.net with msgs := t.net.msgs ++ [.inc { gc := gc, amount := sum, acks := acks }] } }
      else
        let up := if node < 144 then 144 + clockRegion (homeCol s node) else 160
        { t with hub := { t.hub with comb := t.hub.comb ++ [{ node := up, gc := gc, sum := sum, acks := acks }] } })

end Sys2Proof.Machine
end

