-- ==== Sys2Proof/Machine/Timed.lean ====
section
/-! DEFINITION. The timed fabric: group cycles, schedule entries, the go, holds and rejoins, and the start of a leaf
(R62, R89, R172, R268 to R284, R286 to R304, R306, R590, R597). -/
namespace Sys2Proof.Machine

/-! ## Neighbours and links (R268, R270, R297): directions 0 N, 1 E, 2 S, 3 W; plane 0 vector, 1 scalar -/

def neighbour (s : State) (l d : Nat) : Option Nat :=
  let x := leafX l
  let y := leafY l
  let n := if d = 0 then (if y = 0 then none else some (l - 48))
    else if d = 1 then some (l + 1)
    else if d = 2 then some (l + 48)
    else (if x = 0 then none else some (l - 1))
  match n with
  | some m => if leafOk s m && (d % 2 = 0 || leafY m = y) then some m else none
  | none => none

def opposite (d : Nat) : Nat := (d + 2) % 4

/-- Hop latency (R270). -/
def hopLat (l n : Nat) : Nat := if boughOf l = boughOf n then 1 else 4

/-- Slots of a skid buffer, and of a flow link's input buffer (R297, R324). -/
def linkCap (l n : Nat) : Nat := if boughOf l = boughOf n then 2 else 8

def linkKey (d p : Nat) : Nat := d + 4 * p

/-- The slot has plane `p` in timed mode. -/
def timedIn (k : Slot) (p : Nat) : Bool := slotValid k && !(if p = 0 then slotVFlow k else slotSFlow k)

/-- The plane runs its timed schedule. -/
def planeTimed (x : Leaf) (p : Nat) : Bool := x.sw.running && timedIn x.sw.cur p

/-- The neighbour to which the link in direction `d` of plane `p` is coupled: both are members of one group with the plane in timed
mode (R286). -/
def coupled (s : State) (l d p : Nat) : Option Nat :=
  match neighbour s l d with
  | some n =>
    if (memberSlots (leafOf s l)).any (fun a => timedIn a p
        && (memberSlots (leafOf s n)).any (fun b => timedIn b p && slotGroup a = slotGroup b)) then some n else none
  | none => none

def skidOf (x : Leaf) (k : Nat) : List (Nat × Option Tok) := mget [] x.sw.skid k

/-- The slot that a link input holds for the member's group cycle, once it has arrived (R270, R297). -/
def skidHead (s : State) (x : Leaf) (k : Nat) : Option (Option Tok) :=
  match skidOf x k with
  | e :: _ => if e.1 ≤ s.clk.cclk then some e.2 else none
  | [] => none

/-! ## Delivery -/

/-- A timed token for a queue in core cycle `c`: poppable from the next, or an overrun (R89, R271, R283). -/
def deliverTimed (s : State) (l q : Nat) (t : Tok) (c : Nat) : State :=
  let x := leafOf s l
  let v := queueOf x q
  if v.toks.length ≥ qcap q then raise (bumpNet s l 2 1) 0x40 l q 0
  else setLeaf s l (setQueue x q { v with toks := v.toks ++ [{ t with ready := c + 1 }] })

/-- Fields of a deposit pointer (R277). -/
def dpBase (p : BitVec 64) : Nat := fld p.toNat 0 16
def dpStride (p : BitVec 64) : Int := sext (fld p.toNat 16 16) 16
def dpCount (p : BitVec 64) : Nat := fld p.toNat 32 16
def dpIndex (p : BitVec 64) : Nat := fld p.toNat 48 16

/-- The word a pointer reaches at step `i` (R284, R285). -/
def dpWord (p : BitVec 64) (i : Nat) : Nat := (((dpBase p : Int) + (i : Int) * dpStride p) % 65536).toNat

/-- The pointer after a deposit (R284). -/
def dpNext (p : BitVec 64) : BitVec 64 :=
  let i := if dpIndex p + 1 = dpCount p then 0 else dpIndex p + 1
  BitVec.ofNat 64 (p.toNat % 2 ^ 48 + i % 65536 * 2 ^ 48)

/-- A token leaves for the scratchpad through DP0 or DP1 of the current slot, arriving in CCLK cycle `c` (R125, R284). -/
def depositTok (x : Leaf) (ptr : Bool) (t : Tok) (c : Nat) : Leaf :=
  let p := if ptr then x.sw.cur.dp1 else x.sw.cur.dp0
  let cur := if ptr then { x.sw.cur with dp1 := dpNext p } else { x.sw.cur with dp0 := dpNext p }
  { x with sw := { x.sw with cur := cur },
           deposits := x.deposits ++ [{ at_ := c, word := dpWord p (dpIndex p), vals := t.data }] }

/-! ## One group cycle (R278 to R284, R292, R296, R306) -/

/-- Selector of sink `i` of plane `p`: sinks 0–3 N E S W, 4–7 queues. -/
def entrySel (e : BitVec 64) (p i : Nat) : Nat := fld e.toNat (24 * p + 3 * i) 3

def entryDep (e : BitVec 64) (p : Nat) : Nat :=
  if bit e.toNat 48 && fld e.toNat 49 1 = p then fld e.toNat 50 3 else 0

/-- Sources that an entry names on a plane, the deposit path's with them. -/
def entrySrcs (e : BitVec 64) (p : Nat) : List Nat :=
  (entryDep e p :: (List.range 8).map (entrySel e p)).filter (fun n => n ≠ 0) |>.eraseDups

/-- The slot that waits at a link input for the member's group cycle (R297). -/
def linkIn (s : State) (l d p : Nat) : Option Tok :=
  let x := leafOf s l
  match coupled s l d p with
  | some n => if x.sw.v ≥ hopLat l n then (skidHead s x (linkKey d p)).join else none
  | none => none

/-- The head token of port `2p + i` in cycle `c`. -/
def portIn (x : Leaf) (p i c : Nat) : Option Tok :=
  match portToks x (2 * p + i) with
  | t :: _ => if t.ready ≤ c && !t.marker then some t else none
  | [] => none

/-- The token of a source (R279). -/
def sourceTok (s : State) (l p n c : Nat) : Option Tok :=
  if n = 0 then none
  else if n ≤ 4 then linkIn s l (n - 1) p
  else portIn (leafOf s l) p (n - 5) c

/-- What a switch puts on its link output: a slot in the skid buffer of a coupled neighbour that runs; a token that arrives at an
idle plane or over any other link is stray (R294, R296, R306). -/
def sendSlot (s : State) (l d p : Nat) (t : Option Tok) : State :=
  match neighbour s l d with
  | none => s
  | some n =>
    let y := leafOf s n
    if (coupled s l d p).isSome && planeTimed y p then
      let k := linkKey (opposite d) p
      setLeaf s n { y with sw := { y.sw with skid := mset [] y.sw.skid k (skidOf y k ++ [(s.clk.cclk + hopLat l n, t)]) } }
    else
      let flow := slotValid y.sw.cur && !timedIn y.sw.cur p
      if flow || t = none then s else bumpNet s n 3 1

/-- The heads of the coupled skid buffers are taken, and named ports give up their heads (R280, R297). -/
def takeSources (s : State) (l p c : Nat) (e : BitVec 64) : State :=
  let links := (List.range 4).filter (fun d => match coupled s l d p with
    | some n => decide ((leafOf s l).sw.v ≥ hopLat l n) && (skidHead s (leafOf s l) (linkKey d p)).isSome
    | none => false)
  let ports := (List.range 2).filter (fun i => (entrySrcs e p).contains (5 + i) && (portIn (leafOf s l) p i c).isSome)
  modLeaf s l (fun x =>
    let y : Leaf := { x with sw := { x.sw with
      skid := links.foldl (fun m d => mset [] m (linkKey d p) ((mget [] m (linkKey d p)).drop 1)) x.sw.skid } }
    ports.foldl (fun z i => setPortToks z (2 * p + i) ((portToks z (2 * p + i)).drop 1)) y)

/-- One plane's part of an entry. -/
def planeCycle (s : State) (l p c : Nat) (e : BitVec 64) : State :=
  if !planeTimed (leafOf s l) p then s
  else
    let src (n : Nat) : Option Tok := sourceTok s l p n c
    let lost := ((List.range 4).filter (fun d => (linkIn s l d p).isSome && !(entrySrcs e p).contains (d + 1))).length
    let s1 := bumpNet (takeSources s l p c e) l 1 lost
    let s2 := (List.range 4).foldl (fun t d => sendSlot t l d p (src (entrySel e p d))) s1
    let s3 := (List.range 4).foldl (fun t i => match src (entrySel e p (4 + i)) with
      | some k => deliverTimed t l (4 * p + i) k c
      | none => t) s2
    match src (entryDep e p) with
    | some k => modLeaf s3 l (fun x => depositTok x (bit e.toNat 53) k s.clk.cclk)
    | none => s3

/-- Entry of the current slot for the group cycle. -/
def curEntry (x : Leaf) : BitVec 64 := mget 0 x.sw.cur.ents ((x.sw.v - x.sw.v0) % slotPeriod x.sw.cur)

/-- The member performs its group cycle and advances, once in a CCLK cycle (R296). -/
def performCycle (s : State) (l : Nat) : State :=
  let x := leafOf s l
  let c := x.sw.base + x.sw.v
  let e := curEntry x
  modLeaf (planeCycle (planeCycle s l 0 c e) l 1 c e) l (fun y => { y with sw := { y.sw with v := y.sw.v + 1, advAt := s.clk.cclk + 1 } })

/-- The slot's periods have all run (R292). -/
def slotDone (x : Leaf) : Bool :=
  slotIters x.sw.cur ≠ 0 && x.sw.v - x.sw.v0 ≥ slotIters x.sw.cur * slotPeriod x.sw.cur

/-- An error whose re-run will hold the member has been detected (R301). -/
def errHolds (now : Nat) (x : Leaf) : Bool := x.step.timedUse && x.errs.any (fun e => e.at_ ≤ now)

/-- Slots that the skid buffer behind a link output held when the cycle began: with the one that its leaf has taken since. -/
def skidUsed (s : State) (n k h : Nat) : Nat :=
  let y := leafOf s n
  (skidOf y k).length + b2n (decide (y.sw.advAt = s.clk.cclk + 1) && decide (y.sw.v > h))

/-- Every coupled input holds its slot, or its sender runs no longer and sends none; every coupled output that is taken has room
(R298; log 131). -/
def linksReady (s : State) (l : Nat) : Bool :=
  let x := leafOf s l
  (List.range 2).all (fun p => !planeTimed x p || (List.range 4).all (fun d => match coupled s l d p with
    | some n =>
      let h := hopLat l n
      (decide (x.sw.v < h) || (skidHead s x (linkKey d p)).isSome
          || (skidOf x (linkKey d p) = [] && !planeTimed (leafOf s n) p))
        && (!planeTimed (leafOf s n) p || decide (skidUsed s n (linkKey (opposite d) p) h < linkCap l n))
    | none => true))

/-- The member can perform its group cycle in this CCLK cycle (R298 to R300), whether or not its own re-run holds it. -/
def canAdvance (s : State) (l : Nat) : Bool :=
  let x := leafOf s l
  crownRuns s && leafOk s l && !leafFenced s l && x.sw.running && !slotDone x && !errHolds s.clk.cclk x
    && decide (x.sw.base + x.sw.v = leafNow s x) && decide (x.sw.advAt ≠ s.clk.cclk + 1) && linksReady s l

/-- GROUP_CYCLE_ADVANCE. -/
def execGroupCycleAdvance (l : Nat) (s : State) : Out :=
  .next (if canAdvance s l && !(leafOf s l).sw.held then performCycle s l else s)

/-! ## A slot becomes current (R276, R293, R335, R336) -/

/-- Flow region in which the leaf now counts as an active member (R336). -/
def regionNow (x : Leaf) : Option Nat :=
  if x.run = .running && slotFlow x.sw.cur then some (slotRegion x.sw.cur) else none

/-- Join and leave reports that a change of slot or run state makes due (R336). -/
def regionUpdate (x : Leaf) : Leaf :=
  let r := regionNow x
  if x.sw.joined = r then x
  else { x with sw := { x.sw with leaveDue := if x.sw.joined = none then x.sw.leaveDue else x.sw.joined,
                                  joinDue := r.isSome } }

/-- The next slot moves to current, and is free for loading; the ring register takes its RING (R276, R293). -/
def slotMoves (x : Leaf) : Leaf :=
  regionUpdate { x with
    ring := slotRing x.sw.nxt
    sw := { x.sw with cur := { x.sw.nxt with frozen := false }, nxt := {}
                      flips := (x.sw.flips.filter (fun p => decide (18 ≤ p.1))).map (fun p => (p.1 - 18, p.2))
                      ringPoint := false, markerDue := false, readySent := false } }

/-- Credits in use at a slot's start: those of tokens that stand in the neighbours' buffers or have just left them (R324;
log 48). -/
def liveCredits (s : State) (l : Nat) : SMap Nat :=
  (List.range 8).foldl (fun m k => match neighbour s l (k % 4) with
    | some n => mset 0 m k ((mget [] (leafOf s n).sw.lbuf (linkKey (opposite (k % 4)) (k / 4))).length
        + (mget [] (leafOf s l).sw.returning k).length)
    | none => m) []

/-- The leaf with its next slot current, and the credits of a slot's start (R276, R293, R324). -/
def slotStarts (s : State) (l : Nat) (x : Leaf) : State :=
  let y := slotMoves x
  setLeaf s l { y with sw := { y.sw with spent := liveCredits s l } }

/-- Tokens that wait at a leaf's coupled link inputs. -/
def straysIn (x : Leaf) : Nat := (x.sw.skid.map (fun k => (k.2.filter (fun e => e.2.isSome)).length)).sum

/-- The timed planes go idle; the tokens still at their inputs are discarded as strays (R294). -/
def idlePlanes (x : Leaf) : Leaf :=
  { x with netCounters := mmod 0 x.netCounters 3 (fun v => sat32 (v + straysIn x)), sw := { x.sw with running := false, skid := [] } }

/-- SLOT_COMPLETE: the slot chains, or its timed planes go idle (R292 to R294). -/
def execSlotComplete (l : Nat) (s : State) : Out :=
  .next (
    let x := leafOf s l
    if !(crownRuns s && x.sw.running && slotDone x && !x.sw.held) || leafFenced s l then s
    else if slotChain x.sw.cur && slotValid x.sw.nxt && slotGroup x.sw.nxt = slotGroup x.sw.cur then
      if slotTimed x.sw.nxt then slotStarts s l { x with sw := { x.sw with v0 := x.sw.v } }
      else slotStarts s l (idlePlanes x)
    else setLeaf s l (idlePlanes x))

/-! ## Starting a leaf (R62, R172, R590, R597) -/

def recStart (r : BitVec 1024) : Nat := fld r.toNat 516 2
def recCache (r : BitVec 1024) : BitVec 2 := BitVec.ofNat 2 (fld r.toNat 512 2)

/-- A task window of the record; its reserved fields read 0 in the register (R12, R65). -/
def recTask (r : BitVec 1024) (data : Bool) (i : Nat) : Word :=
  BitVec.ofNat 32 (fld r.toNat (32 * i + if data then 128 else 0) 32) &&& 0x1FFF0FFF

/-- Rows `lo` to `hi − 1` become zero with valid parity. -/
def zeroRows (s : State) (l lo hi : Nat) : State :=
  let s1 : State := { s with mem := zeroRange s.mem (spadOff l (64 * lo)) (spadOff l (64 * hi)) }
  let out (n w : Nat) : Bool := w < lo * n || hi * n ≤ w
  modLeaf s1 l (fun x => { x with
    badWord := x.badWord.filter (fun p => out 16 p.1), poisonWord := x.poisonWord.filter (fun p => out 16 p.1)
    badRow := x.badRow.filter (fun p => out 1 p.1) })

/-- The cache takes a new size: rows entering or leaving it become zero, every tag goes (R172). -/
def resizeCache (s : State) (l : Nat) (n : BitVec 2) : State :=
  let x := leafOf s l
  if x.cache.size = n then s
  else
    let a := usableRows x
    let b := usableRows { x with cache := { size := n } }
    modLeaf (zeroRows s l (min a b) (max a b)) l (fun y => { y with cache := { size := n } })

/-- What every leaf start resets (R62), in core cycle `c`; local counters, outstanding operations and the switch stay. -/
def freshCore (x : Leaf) (c : Nat) : Leaf :=
  { x with
    sregs := [], vregs := [], preds := 0, masks := [], loops := [], ags := [], queues := [], ports := []
    pc := 0, task := 0, resume := [], rm := 0, vstat := 0, faultCode := 0, faultPc := 0, reruns := 0, rerunTotal := 0
    remRefused := 0, remLast := 0, nextIssue := c, readyAt := [], fpFree := 0, wait := none
    loads := x.loads.map (fun p => { p with d := 0, pair := false, dropped := true })
    idx := x.idx.bind (fun o => if o.store then some o else none)
    stall := none, step := {}, errs := [] }

/-- The first leaf of an image to start counts OPSEQ afresh and takes sr_seed and store_round_default; a leaf of an image that has
started already changes neither (R195, R199). -/
def imageStarts (s : State) (l : Nat) : State :=
  let n := (leafOf s l).image.load
  if n ≤ s.graft.started then s
  else { s with
    engines := mmap {} s.engines (fun _ e => { e with opseq := 0 })
    graft := { s.graft with started := n, seed := some (BitVec.ofNat 32 (odNat s 0x310001)),
                            roundDef := some (odNat s 0x310002) } }

/-- The leaf starts at task 0, index 0 with the record's windows and cache size. -/
def startLeaf (s0 : State) (l : Nat) : State :=
  let s := imageStarts s0 l
  let r := ((leafOf s l).image.record).getD 0
  modLeaf (resizeCache s l (recCache r)) l (fun x =>
    regionUpdate { freshCore x (leafNow s x) with
      run := .running, startCycle := s.clk.cclk
      tcode := (List.range 4).foldl (fun m i => mset 0 m i (recTask r false i)) []
      tdata := (List.range 4).foldl (fun m i => mset 0 m i (recTask r true i)) []
      image := { x.image with waitGo := false } })

/-! ## Ready reports and the go (R289 to R291) -/

/-- READY_REPORT: a member whose next slot waits reports once; an armed group with too many stops (R289, R290). -/
def execReadyReport (l : Nat) (s : State) : Out :=
  .next (
    let x := leafOf s l
    let g := slotGroup x.sw.nxt
    let withheld := x.run = .notStarted && recStart (x.image.record.getD 0) = 1 && !x.image.waitGo
    if !crownRuns s || !leafOk s l || leafFenced s l || x.sw.running || !slotTimed x.sw.nxt || x.sw.readySent || withheld then s
    else
      let t := setLeaf s l { x with sw := { x.sw with readySent := true } }
      let e := groupOf t g
      let u := setGroup t g { e with ready := e.ready + 1 }
      if e.arm && e.ready + 1 > e.members then stopGroup u g 1 0 else u)

/-- GO: the armed group's ready count and counter condition hold (R289). -/
def execGo (g : Nat) (s : State) : Out :=
  .next (
    let e := groupOf s g
    if crownRuns s && e.arm && e.ready = e.members && decide (e.goVal.toNat ≤ (gcGet s e.goGc).toNat) then
      setGroup s g { e with arm := false, ready := 0, goAt := some s.clk.cclk }
    else s)

/-- One member starts at the go (R291, R597). -/
def goMember (s : State) (l : Nat) : State :=
  let x := leafOf s l
  let t := slotStarts s l { x with sw := { x.sw with
    running := true, base := leafNow s x, v := 0, v0 := 0, advAt := s.clk.cclk, held := false, stopped := false, skid := [] } }
  if x.run = .notStarted && x.image.waitGo then startLeaf t l else t

/-- The leaf's next slot awaits the go of group `g`; a fenced leaf takes part in none (R286, R291, R601). -/
def awaitsGo (s : State) (g l : Nat) : Bool :=
  let x := leafOf s l
  !leafFenced s l && !x.sw.running && slotTimed x.sw.nxt && slotGroup x.sw.nxt = g

/-- GO_ARRIVAL: in the thirty-second cycle after the go, every member starts (R291). -/
def execGoArrival (g : Nat) (s : State) : Out :=
  .next (
    let e := groupOf s g
    if crownRuns s && e.goAt.any (fun c => c + 32 = s.clk.cclk) then
      setGroup (((allLeaves s).filter (awaitsGo s g)).foldl goMember s) g { e with goAt := none, stopped := false }
    else s)

/-! ## Rejoining (R302, R303) -/

/-- REJOIN: the re-run has reached both counts, and the core can issue again; the hold ends and the held group cycle is performed
in this cycle. A first count reached after the second is late by the difference. -/
def execRejoin (l : Nat) (s : State) : Out :=
  .next (
    let x := leafOf s l
    match x.step.recorded with
    | some r =>
      let due := x.step.cycles + r.2
      let c := max due x.nextIssue
      if !crownRuns s || leafFenced s l || !x.sw.held || x.run ≠ .running || x.step.insns < r.1 || leafNow s x < c then s
      else
        let t := setLeaf s l { x with
          stall := none
          sw := { x.sw with held := false, base := leafNow s x - x.sw.v, advAt := s.clk.cclk }
          step := { x.step with recorded := none } }
        let u := if x.step.reached > due then raise (bumpNet t l 6 1) 0x41 l 0 (x.step.reached - due) else t
        if canAdvance u l then performCycle u l else u
    | none => s)

end Sys2Proof.Machine
end

