-- ==== Sys2Proof/Machine/Canopy.lean ====
section
/-! DEFINITION. The canopy bus at its receivers: packets, the slot check, leaf records, END, group entries, graft repair and
the start of loaded leaves (R128, R161, R285, R287, R288, R308 to R316, R319, R321, R587 to R597). -/
namespace Sys2Proof.Machine

/-! ## The slot check (R285, R319, R321) -/

/-- Selectors of a route word: sinks 0–3 N E S W, 4–7 queues. -/
def routeSel (w : BitVec 64) (i : Nat) : Nat := fld w.toNat (3 * i) 3

/-- The route word of a plane. -/
def routeOf (x : Slot) (p : Nat) : BitVec 64 := if p = 0 then x.vroute else x.sroute

def planeFlow (x : Slot) (p : Nat) : Bool := if p = 0 then slotVFlow x else slotSFlow x

/-- Source of the flow deposit on a plane, 0 where none (R319). -/
def flowDep (x : Slot) (p : Nat) : Nat :=
  if bit x.vroute.toNat 26 && fld x.vroute.toNat 27 1 = p then fld x.vroute.toNat 28 3 else 0

/-- Spill area (R319, R344): first row, rows per vector queue, rows per scalar queue. -/
def spBase (x : Slot) : Nat := fld x.spill.toNat 0 12
def spVRows (x : Slot) : Nat := fld x.spill.toNat 12 8
def spSRows (x : Slot) : Nat := fld x.spill.toNat 20 8
def spRows (x : Slot) : Nat := 4 * spVRows x + 4 * spSRows x

/-- The entries that the period performs. -/
def slotEntries (x : Slot) : List (BitVec 64) := (List.range (slotPeriod x)).map (fun i => mget 0 x.ents i)

def slotPtr (x : Slot) (k : Nat) : BitVec 64 := if k = 0 then x.dp0 else x.dp1

/-- Planes that deposit through pointer `k`: scheduled entries and the flow route. -/
def ptrPlanes (x : Slot) (k : Nat) : List Nat :=
  ((slotEntries x).filter (fun e => bit e.toNat 48 && fld e.toNat 53 1 = k)).map (fun e => fld e.toNat 49 1)
    ++ (if bit x.vroute.toNat 26 && fld x.vroute.toNat 31 1 = k then [fld x.vroute.toNat 27 1] else [])

/-- Rows that a pointer can reach. -/
def ptrRows (x : Slot) (k : Nat) : List Nat :=
  (List.range (dpCount (slotPtr x k))).map (fun i => dpWord (slotPtr x k) i / 16)

/-- The pointer conditions of R285; `lim` is the usable row limit. -/
def ptrBad (x : Slot) (k lim : Nat) : Bool :=
  let p := slotPtr x k
  ptrPlanes x k ≠ [] &&
    (dpCount p = 0 || dpIndex p ≥ dpCount p || (ptrRows x k).any (fun r => r = 0 || r ≥ lim)
      || ((ptrPlanes x k).contains 0 && (dpBase p % 16 ≠ 0 || dpStride p % 16 ≠ 0)))

/-- Reserved fields and values of header, route block and entries. -/
def slotReserved (x : Slot) : Bool :=
  fld x.hdr.toNat 22 10 ≠ 0 || fld x.hdr.toNat 14 2 ≠ 0 || slotPeriod x > 512
    || fld x.vroute.toNat 32 32 ≠ 0 || fld x.vroute.toNat 24 2 ≠ 0 || fld x.sroute.toNat 24 40 ≠ 0
    || fld x.spill.toNat 32 32 ≠ 0 || x.rsv ≠ 0 || fld x.vroute.toNat 28 3 = 7
    || (slotEntries x).any (fun e => fld e.toNat 54 10 ≠ 0
      || (List.range 17).any (fun i => fld e.toNat (if i = 16 then 50 else 3 * i) 3 = 7))

/-- An entry names an output link that the leaf does not have; `has` tells the links. -/
def entryLinkBad (x : Slot) (has : Nat → Bool) : Bool :=
  (slotEntries x).any (fun e => (List.range 2).any (fun p => (List.range 4).any (fun d => entrySel e p d ≠ 0 && !has d)))

/-- The route conditions of R321 on one plane; the deposit's fields are those of the plane that DEP_PLANE names, enabled or not. -/
def routeBad (x : Slot) (has : Nat → Bool) (p : Nat) : Bool :=
  let own : Bool := fld x.vroute.toNat 27 1 = p
  let sels := (List.range 8).map (routeSel (routeOf x p))
  let srcs := (flowDep x p :: sels).filter (fun n => n ≠ 0)
  if !planeFlow x p then fld (routeOf x p).toNat 0 24 ≠ 0 || (own && fld x.vroute.toNat 26 6 ≠ 0)
  else (fld x.vroute.toNat 28 3 * b2n own :: sels).any (fun n => n = 7 || (1 ≤ n && n ≤ 4 && !has (n - 1)))
    || (List.range 4).any (fun d => sels.getD d 0 ≠ 0 && !has d)
    || srcs.eraseDups.length ≠ srcs.length

/-- The spill area's conditions of R321. -/
def spillBad (x : Slot) (lim : Nat) : Bool :=
  let lo := spBase x
  let hi := spBase x + spRows x
  let reach := (List.range 2).flatMap (fun k => if ptrPlanes x k ≠ [] then ptrRows x k else [])
  spRows x ≠ 0 && (lo = 0 || hi > lim || hi > 4096 || reach.any (fun r => lo ≤ r && r < hi))

/-- A timed plane that leaves its flow plane no free deposit cycle (R321). -/
def depositFull (x : Slot) : Bool :=
  (slotVFlow x != slotSFlow x) && (bit x.vroute.toNat 26 || spRows x ≠ 0) && (slotEntries x).all (fun e => bit e.toNat 48)

/-- The next slot fails the check of R285 and R321 at leaf `l`. -/
def slotRefused (s : State) (l : Nat) (x : Leaf) : Bool :=
  let n := x.sw.nxt
  let has (d : Nat) : Bool := (neighbour s l d).isSome
  slotReserved n || entryLinkBad n has || ptrBad n 0 (usableRows x) || ptrBad n 1 (usableRows x)
    || routeBad n has 0 || routeBad n has 1 || spillBad n (usableRows x)
    || (slotFlow x.sw.cur && (slotVFlow n || slotSFlow n) && slotRing n ≠ slotRing x.sw.cur + 1)
    || depositFull n

/-! ## Packets at a leaf -/

def payloadBytes (p : Canopy) : List Byte := p.payload.flatMap (fun b => leBytes b.toNat 32)

/-- The packet's CRC matches its payload (R309, R316; log 7). -/
def crcOk (p : Canopy) : Bool := p.crc = crc32c (payloadBytes p)

/-- The packet targets the leaf (R311). -/
def inTarget (p : Canopy) (l : Nat) : Bool :=
  p.all || (p.x0.toNat ≤ leafX l && leafX l ≤ p.x1.toNat && p.y0.toNat ≤ leafY l && leafY l ≤ p.y1.toNat)

/-- The packet's payload as 32-bit and 64-bit words. -/
def payWords (p : Canopy) : List Word := p.payload.flatMap (fun b => toWords b.toNat 8)

def payDwords (p : Canopy) : List (BitVec 64) :=
  p.payload.flatMap (fun b => (List.range 4).map (fun i => BitVec.ofNat 64 (fld b.toNat (64 * i) 64)))

/-- Adds 1 to the packet's counter, once per SEQ of an image (R315, R595). -/
def countPacket (s : State) (l : Nat) (p : Canopy) : State :=
  let x := leafOf s l
  if p.cntEn && !mget false x.image.counted p.seq.toNat then lcInc s l p.cnt.toNat 1 else s

/-- The leaf has accepted the SEQ as a target. -/
def noteTarget (s : State) (l : Nat) (p : Canopy) : State :=
  modLeaf s l (fun x => { x with image := { x.image with counted := mset false x.image.counted p.seq.toNat true } })

def setGot (x : Leaf) (seq : Nat) (v : Bool) : Leaf := { x with image := { x.image with got := mset false x.image.got seq v } }

/-- An accepted packet other than SPAD: written by `f`, counted. -/
def acceptPkt (s : State) (l : Nat) (p : Canopy) (f : Leaf → Leaf) : State :=
  noteTarget (countPacket (modLeaf s l f) l p) l p

/-- SPAD at a target leaf: the landing buffer takes it when its rows find room (R128, R312, R313; log 42). -/
def spadAt (s : State) (l : Nat) (p : Canopy) : State :=
  let x := leafOf s l
  let rows := p.payload.length / 2
  if p.payload.length % 2 ≠ 0 || p.offset.toNat + rows > 4096 then bumpNet s l 8 1
  else if p.offset = 0 && x.run = .running then bumpNet s l 9 1
  else if x.landing.length + rows > 8 then bumpLeaf (modLeaf s l (fun y => setGot y p.seq.toNat false)) l 10 1
  else
    let cnt := if p.cntEn && !mget false x.image.counted p.seq.toNat then some p.cnt.toNat else none
    let land (i : Nat) : Landing :=
      { row := p.offset.toNat + i, data := ((payWords p).drop (16 * i)).take 16, cnt := if i + 1 = rows then cnt else none }
    noteTarget (modLeaf s l (fun y => { y with landing := y.landing ++ (List.range rows).map land })) l p

/-- ISTORE at a target leaf (R313, R314). -/
def istoreAt (s : State) (l : Nat) (p : Canopy) : State :=
  if p.offset.toNat + 8 * p.payload.length > 4096 then bumpNet s l 8 1
  else if (leafOf s l).run = .running then bumpNet s l 9 1
  else acceptPkt s l p (fun x =>
    { x with istore := (payWords p).zipIdx.foldl (fun m w => mset 0 m (p.offset.toNat + w.2) w.1) x.istore })

/-- One 64-bit word of the next slot written (R275, R319). -/
def slotWord (x : Slot) (i : Nat) (w : BitVec 64) : Slot :=
  if i = 0 then { x with hdr := w }
  else if i = 1 then { x with dp0 := w }
  else if i = 2 then { x with dp1 := w }
  else if i < 0x203 then { x with ents := mset 0 x.ents (i - 3) w }
  else if i = 0x203 then { x with vroute := w }
  else if i = 0x204 then { x with sroute := w }
  else if i = 0x205 then { x with spill := w }
  else { x with rsv := w }

/-- A header with VALID = 1 has landed: the slot is frozen, or refused with VALID cleared (R285). -/
def checkSlot (s : State) (l : Nat) : State :=
  let x := leafOf s l
  if slotRefused s l x then
    let t := setLeaf s l { x with sw := { x.sw with nxt := { x.sw.nxt with hdr := x.sw.nxt.hdr &&& ~~~1 } } }
    raise (bumpNet t l 4 1) 0x43 l 0 0
  else setLeaf s l { x with sw := { x.sw with nxt := { x.sw.nxt with frozen := true } } }

/-- SWITCH_NEXT at a target leaf (R285, R313, R314). -/
def switchNextAt (s : State) (l : Nat) (p : Canopy) : State :=
  let x := leafOf s l
  if p.offset.toNat * 8 + 32 * p.payload.length > 0x1038 then bumpNet s l 8 1
  else if x.sw.nxt.frozen then bumpNet s l 4 1
  else
    let n := (payDwords p).zipIdx.foldl (fun m w => slotWord m (p.offset.toNat + w.2) w.1) x.sw.nxt
    let t := setLeaf s l { x with sw := { x.sw with nxt := n } }
    let u := if p.offset = 0 && slotValid n then checkSlot t l else t
    acceptPkt u l p id

/-- The 1,024 payload bits of a record. -/
def recOf (p : Canopy) : BitVec 1024 := BitVec.ofNat 1024 (p.payload.foldr (fun b acc => b.toNat + 2 ^ 256 * acc) 0)

/-- START or SPAD_CACHE of 0b11, or a nonzero reserved field (R590). -/
def recBad (r : BitVec 1024) : Bool :=
  recStart r = 3 || recCache r = 3 || fld r.toNat 568 72 ≠ 0 || fld r.toNat 514 2 ≠ 0 || fld r.toNat 256 256 ≠ 0

/-- LEAF_RECORD at a target leaf: the leaf takes part in the image, and leaves HALTED or FAULTED (R111, R313, R314, R590). -/
def leafRecordAt (s : State) (l : Nat) (p : Canopy) : State :=
  let x := leafOf s l
  if p.payload.length ≠ 4 || recBad (recOf p) then bumpNet s l 8 1
  else if x.run = .running then bumpNet s l 9 1
  else acceptPkt s l p (fun z =>
    let y := if z.sw.held then idlePlanes { z with sw := { z.sw with held := false } } else z
    { y with
      run := .notStarted
      image := { y.image with record := some (recOf p), recId := p.image, load := s.graft.grafts, complete := false, start := none,
                              waitGo := false } })

/-! ## END (R591 to R594) -/

/-- The leaf takes part in its current image. -/
def takesPart (x : Leaf) : Bool := x.image.record.isSome && x.image.id = some x.image.recId

/-- Bytes of the next slot, 0x0000 to 0x1037 (R275, R319). -/
def slotBytes (x : Slot) : List Byte :=
  ([x.hdr, x.dp0, x.dp1] ++ (List.range 512).map (fun i => mget 0 x.ents i) ++ [x.vroute, x.sroute, x.spill, x.rsv]).flatMap
    (fun w => leBytes w.toNat 8)

/-- A row as the leaf will read it once its landing buffer has drained. -/
def landedRow (s : State) (l row : Nat) : List Byte :=
  match ((leafOf s l).landing.filter (fun e => e.row = row)).getLast? with
  | some e => bytesOfWords e.data
  | none => mread s (spadOff l (64 * row)) 64

/-- The digest of R591. -/
def imageDigest (s : State) (l : Nat) (r : BitVec 1024) : List Byte :=
  let x := leafOf s l
  let n := r.toNat
  sha384 (leBytes (n % 2 ^ 640) 80
    ++ (List.range (fld n 531 13)).flatMap (fun i => leBytes (mget 0 x.istore (fld n 519 12 + i)).toNat 4)
    ++ (if bit n 518 then slotBytes x.sw.nxt else [])
    ++ (List.range (fld n 556 12)).flatMap (fun i => landedRow s l (fld n 544 12 + i)))

/-- Missing SEQ values of 0 to `last`. -/
def missingSeqs (x : Leaf) (last : Nat) : List Nat := (List.range (last + 1)).filter (fun i => !mget false x.image.got i)

/-- A CANOPY_DROP report reaches the management controller and the log (R594, R595). -/
def report (s : State) (l seq : Nat) (image : BitVec 16) : State :=
  let t := raise s 0x24 l 0 (seq % 2 ^ 32 + image.toNat * 2 ^ 32)
  { t with graft := { t.graft with load := t.graft.load.map (fun g =>
      if g.image = image && g.targets.contains l then
        if seq = 0xFFFFFFFF then { g with mismatch := g.mismatch ++ [l], answered := g.answered ++ [l] }
        else { g with reports := g.reports ++ [(l, seq)], answered := g.answered ++ [l] }
      else g) } }

/-- The leaf has completed; the controller sees it (R594, R595). -/
def noteComplete (s : State) (l : Nat) : State :=
  { s with graft := { s.graft with load := s.graft.load.map (fun g => { g with answered := g.answered ++ [l] }) } }

/-- After a digest mismatch the leaf makes room for the packets that target it (R595). -/
def clearTargeted (x : Leaf) : Leaf :=
  { x with
    image := { x.image with got := x.image.got.filter (fun p => !mget false x.image.mine p.1), mine := [], record := none }
    sw := { x.sw with nxt := {} } }

/-- An END that is discarded: a reserved field, or other than one beat (R310, R313, R592). -/
def endBad (p : Canopy) : Bool :=
  let b := (p.payload.headD 0).toNat
  p.rsv || p.payload.length ≠ 1 || fld b 34 126 ≠ 0 || fld b 172 20 ≠ 0

/-- END at a leaf: complete, once for each load, which START_VALUE tells apart, or its reports (R594; log 110). -/
def endAt (s : State) (l : Nat) (p : Canopy) : State :=
  let x := leafOf s l
  let b := (p.payload.headD 0).toNat
  let miss := missingSeqs x (fld b 0 32)
  if miss ≠ [] then (miss.take 64).foldl (fun t q => report t l q p.image) s
  else if !takesPart x then s
  else if x.image.complete && x.image.start = some (fld b 160 12, fld b 192 64) then noteComplete s l
  else
    let r := x.image.record.getD 0
    if imageDigest s l r = leBytes (r.toNat / 2 ^ 640) 48 then
      let t := setLeaf s l { x with image := { x.image with complete := true, start := some (fld b 160 12, fld b 192 64) } }
      launch (noteComplete t l) (.inc { gc := fld b 160 12, amount := 1, acks := [] })
    else report (modLeaf s l clearTargeted) l 0xFFFFFFFF p.image

/-! ## A packet at one leaf -/

/-- A packet of another image becomes the leaf's current image, with nothing received (R593). -/
def adoptImage (x : Leaf) (id : BitVec 16) : Leaf :=
  if x.image.id = some id then x else { x with image := { x.image with id := some id, got := [], mine := [], counted := [] } }

/-- The SEQ is received, and targets the leaf. -/
def setMine (x : Leaf) (seq : Nat) : Leaf :=
  { x with image := { x.image with got := mset false x.image.got seq true, mine := mset false x.image.mine seq true } }

/-- What a leaf does with a packet of the kind (R310, R311, R313, R316, R593); `forced` waives the target check (R595). -/
def leafPacket (s0 : State) (kind : Nat) (p : Canopy) (forced : Bool) (l : Nat) : State :=
  if leafFenced s0 l then s0
  else
    let s := modLeaf s0 l (fun x => adoptImage x p.image)
    let seq := p.seq.toNat
    if !crcOk p || p.hurt.contains l then bumpNet (modLeaf s l (fun x => setGot x seq false)) l 7 1
    else if kind = 5 then
      if !(forced || inTarget p l) then s
      else if endBad p then bumpNet s l 8 1
      else if p.cntEn then lcInc (endAt s l p) l p.cnt.toNat 1 else endAt s l p
    else if mget false (leafOf s l).image.got seq then s
    else if kind = 4 || !(forced || inTarget p l) then modLeaf s l (fun x => setGot x seq true)
    else
      let t := modLeaf s l (fun x => setMine x seq)
      if p.rsv then bumpNet t l 8 1
      else match kind with
        | 0 => spadAt t l p
        | 1 => istoreAt t l p
        | 2 => switchNextAt t l p
        | 3 => leafRecordAt t l p
        | _ => bumpNet t l 8 1

/-- The packet leaves the bus. -/
def takeBus (s : State) (leaf : Option Nat) (kind : BitVec 4) (p : Canopy) : State :=
  { s with graft := { s.graft with bus := s.graft.bus.eraseP (fun b =>
      decide (b.leaf = leaf) && decide (b.kind = kind) && decide (b.p.seq = p.seq) && decide (b.p.image = p.image)) } }

/-- The packet's forty cycles from the canopy root are over (R31, R308). -/
def hasArrived (s : State) (kind : BitVec 4) (p : Canopy) : Bool :=
  match s.graft.bus.find? (fun b => decide (b.leaf = none) && decide (b.kind = kind) && decide (b.p.seq = p.seq)
      && decide (b.p.image = p.image)) with
  | some b => decide (b.at_ + 40 ≤ s.clk.cclk)
  | none => true

/-- Packets leave the root one after another, a beat in a cycle (R308). -/
def onBus (now : Nat) : List BusPkt → List BusPkt
  | [] => []
  | b :: r => { b with at_ := now } :: onBus (if b.leaf = none then now + b.p.payload.length + 1 else now) r

/-- A canopy packet reaches every leaf of the shape (R308, R311). -/
def broadcast (s : State) (kind : BitVec 4) (p : Canopy) : State :=
  if crownRuns s && hasArrived s kind p then
    (allLeaves s).foldl (fun t l => leafPacket t kind.toNat p false l) (takeBus s none kind p)
  else s

/-- SPAD (R312). -/
def execSpad (p : Canopy) (s : State) : Out := .next (broadcast s 0 p)

/-- ISTORE (R314). -/
def execIstore (p : Canopy) (s : State) : Out := .next (broadcast s 1 p)

/-- SWITCH_NEXT (R285). -/
def execSwitchNext (p : Canopy) (s : State) : Out := .next (broadcast s 2 p)

/-- LEAF_RECORD (R590). -/
def execLeafRecord (p : Canopy) (s : State) : Out := .next (broadcast s 3 p)

/-- END (R592 to R594): a broadcast END opens the wait of R595. -/
def execEndPkt (p : Canopy) (s : State) : Out :=
  .next (
    let t := broadcast s 5 p
    match t.graft.load with
    | some g => if crownRuns s && hasArrived s 5 p && g.image = p.image then
        { t with graft := { t.graft with load := some { g with endAt := s.clk.us } } } else t
    | none => t)

/-! ## GROUP at the sync hub (R287, R288) -/

/-- The packet breaks R288. -/
def groupBad (p : Canopy) (b : Nat) : Bool :=
  p.payload.length ≠ 1 || p.rsv || fld b 128 128 ≠ 0 || fld b 48 16 ≠ 0 || fld b 20 16 ≠ 0 || fld b 5 3 ≠ 0
    || (bit b 4 && (fld b 36 12 = 0 || fld b 36 12 > 2304))

/-- The hub's part: CANOPY_CRC, a refusal, a disarmed entry, or an armed one with its ready count checked (R290). -/
def groupAtHub (s : State) (p : Canopy) : State :=
  let b := (p.payload.headD 0).toNat
  let g := fld b 0 4
  let e := groupOf s g
  if !crcOk p || p.hurt.contains 0xA00 then raise s 0x44 0xFFFF 0 (p.seq.toNat + p.image.toNat * 2 ^ 32)
  else if groupBad p b then raise s 0x42 g 3 0
  else if bit b 4 then
    let t := setGroup s g { e with goGc := fld b 8 12, goVal := BitVec.ofNat 64 (fld b 64 64), members := fld b 36 12,
                                   arm := true, stopped := false }
    if e.ready > fld b 36 12 then stopGroup t g 1 0 else t
  else setGroup s g { e with arm := false }

/-- GROUP: the hub's entry, and every leaf's bitmap (R287, R288, R593). -/
def execGroupPkt (p : Canopy) (s : State) : Out :=
  .next (if crownRuns s && hasArrived s 4 p then groupAtHub (broadcast s 4 p) p else s)

/-- CANOPY_REPAIR_PACKET: over the control network to one leaf, the target check waived (R595). -/
def execCanopyRepairPacket (l : Nat) (kind : BitVec 4) (p : Canopy) (s : State) : Out :=
  .next (
    if crownRuns s && leafOk s l then leafPacket (takeBus s (some l) kind p) kind.toNat p true l else s)

/-! ## Images in heartwood (R587, R589) -/

/-- A header beat and its payload as a packet with its kind (R309). -/
def parsePkt (h : Nat) (beats : List (BitVec 256)) : BitVec 4 × Canopy :=
  (BitVec.ofNat 4 h,
   { crc := BitVec.ofNat 32 (fld h 128 32), seq := BitVec.ofNat 32 (fld h 96 32), image := BitVec.ofNat 16 (fld h 80 16),
     offset := BitVec.ofNat 16 (fld h 64 16), y1 := BitVec.ofNat 6 (fld h 58 6), y0 := BitVec.ofNat 6 (fld h 52 6),
     x1 := BitVec.ofNat 6 (fld h 46 6), x0 := BitVec.ofNat 6 (fld h 40 6), all := bit h 39,
     cnt := BitVec.ofNat 4 (fld h 33 4), cntEn := bit h 32, lenM1 := BitVec.ofNat 3 (fld h 8 3),
     rsv := fld h 160 96 ≠ 0 || fld h 37 2 ≠ 0 || fld h 11 21 ≠ 0 || fld h 4 4 ≠ 0, payload := beats, hurt := [] })

def beatAt (s : State) (a : Nat) : Nat := ofLe (mread s a 32)

/-- The packets stored from local offset `a` on. -/
def readImage (s : State) : Nat → Nat → List (BitVec 4 × Canopy)
  | _, 0 => []
  | a, n + 1 =>
    let h := beatAt s a
    let k := fld h 8 3 + 1
    parsePkt h ((List.range k).map (fun i => BitVec.ofNat 256 (beatAt s (a + 32 * (i + 1)))))
      :: readImage s (a + 32 * (k + 1)) n

/-- Bytes that the packets occupy. -/
def imageLen (ps : List (BitVec 4 × Canopy)) : Nat := (ps.map (fun q => 32 * (q.2.payload.length + 1))).sum

/-- The packet would be discarded under R313 (R589). -/
def pktTooFar (k : Nat) (p : Canopy) : Bool :=
  match k with
  | 0 => p.payload.length % 2 ≠ 0 || p.offset.toNat + p.payload.length / 2 > 4096
  | 1 => p.offset.toNat + 8 * p.payload.length > 4096
  | 2 => p.offset.toNat * 8 + 32 * p.payload.length > 0x1038
  | 3 => p.payload.length ≠ 4
  | _ => false

/-- Leaves that the image's LEAF_RECORDs target. -/
def imageTargets (s : State) (ps : List (BitVec 4 × Canopy)) : List Nat :=
  (allLeaves s).filter (fun l => ps.any (fun q => q.1 = 3 && inTarget q.2 l))

/-! ## Repair rounds (R592, R595, R596) -/

/-- The END of a round. -/
def endPacket (g : GraftLoad) (round : Nat) : Canopy :=
  let b : BitVec 256 := BitVec.ofNat 256 (g.packets - 1 + round * 2 ^ 32 + g.doneGc * 2 ^ 160 + g.startValue % 2 ^ 64 * 2 ^ 192)
  { crc := crc32c (leBytes b.toNat 32), seq := 0, image := g.image, offset := 0, y1 := 0, y0 := 0, x1 := 0, x0 := 0,
    all := true, cnt := 0, cntEn := false, lenM1 := 0, rsv := false, payload := [b], hurt := [] }

/-- More than 1% of the targeted leaves. -/
def overPercent (n : Nat) (g : GraftLoad) : Bool := 100 * n > g.targets.length

/-- Leaves that have missed the END: neither completed nor reported (R595). -/
def silentLeaves (s : State) (g : GraftLoad) : List Nat :=
  g.targets.filter (fun l => !g.answered.contains l && !leafFenced s l)

/-- The repairs of one round, in the order of SEQ, then the ENDs. -/
def repairs (s : State) (g : GraftLoad) : List BusPkt :=
  let ps := readImage s g.off g.packets
  let live (l : Nat) : Bool := !leafFenced s l
  let one (q : BitVec 4 × Canopy) : List BusPkt :=
    let miss := ((g.reports.filter (fun r => r.2 = q.2.seq.toNat)).map Prod.fst).eraseDups
    let redo := g.mismatch.filter (fun l => inTarget q.2 l && !miss.contains l)
    let uni (ls : List Nat) : List BusPkt := (ls.filter live).map (fun l => { leaf := some l, kind := q.1, p := q.2 })
    if overPercent miss.length g then { leaf := none, kind := q.1, p := q.2 } :: uni redo else uni (miss ++ redo)
  ps.flatMap one
    ++ (silentLeaves s g).map (fun l => { leaf := some l, kind := 5, p := endPacket g g.round })
    ++ [{ leaf := none, kind := 5, p := endPacket g (g.round + 1) }]

/-- A targeted leaf that is not complete after round 3: recorded with its count of missing SEQs, and fenced (R596). -/
def failLeaf (g : GraftLoad) (s : State) (l : Nat) : State :=
  let x := leafOf s l
  if x.image.complete && x.image.recId = g.image || leafFenced s l then s
  else failUnit s { kind := 1, position := BitVec.ofNat 32 (physLeaf s l), test := 0x10,
                    data := BitVec.ofNat 32 (if x.image.id = some g.image then (missingSeqs x (g.packets - 1)).length else g.packets) }

/-- The load has failed: nothing more of it is sent, and no leaf of the image starts, whatever its counter reaches later (R596). -/
def failLoad (s : State) (g : GraftLoad) : State :=
  let stay (x : Leaf) : Leaf := if x.image.recId = g.image then { x with image := { x.image with start := none } } else x
  { s with leaves := mmap {} s.leaves (fun _ x => stay x)
           graft := { s.graft with load := some { g with failed := true }, bus := [] } }

/-- Every targeted leaf has completed. -/
def allComplete (s : State) (g : GraftLoad) : Bool :=
  g.targets.all (fun l => (leafOf s l).image.complete && (leafOf s l).image.recId = g.image)

/-- REPAIR_ROUND: 200 µs after an END, resends and the next END; the load fails after round 3, or at once when more than
1% of the leaves report a digest mismatch (R595, R596). -/
def execRepairRound (s : State) : Out :=
  .next (
    match s.graft.load with
    | some g =>
      if g.failed || allComplete s g || !crownRuns s then s
      else if overPercent g.mismatch.length g then failLoad s g
      else if s.clk.us < g.endAt + 200 || s.graft.bus ≠ [] then s
      else if g.round ≥ 3 then failLoad (g.targets.foldl (failLeaf g) s) g
      else
        { s with graft := { s.graft with
            bus := onBus s.clk.cclk (repairs s g)
            load := some { g with round := g.round + 1, endAt := s.clk.us, reports := [], answered := [], mismatch := [] } } }
    | none => s)

/-! ## Start (R597) -/

/-- No leaf of a failed or unfinished image starts: the image's counter has reached START_VALUE (R596, R597). -/
def startHolds (s : State) (x : Leaf) : Bool :=
  x.image.complete && x.run = .notStarted && match x.image.start with
    | some (g, v) => v ≤ (gcGet s g).toNat
    | none => false

/-- LEAF_START: with START 0b00 the leaf starts; with 0b01 it has learned that it may, and waits for its go (R289, R597). -/
def execLeafStart (l : Nat) (s : State) : Out :=
  .next (
    let x := leafOf s l
    if !crownRuns s || !leafOk s l || leafFenced s l || !startHolds s x then s
    else
      let k := recStart (x.image.record.getD 0)
      if k = 0 then
        let t := startLeaf s l
        let y := leafOf t l
        if slotValid y.sw.nxt && slotVFlow y.sw.nxt && slotSFlow y.sw.nxt && !y.sw.running then
          setLeaf t l { y with sw := { y.sw with ringPoint := true, markerDue := true } }
        else t
      else if k = 1 then setLeaf s l { x with image := { x.image with waitGo := true } }
      else s)

end Sys2Proof.Machine
end

