-- ==== Sys2Proof/Machine/Numbers.lean ====
section
/-! DEFINITION. Number formats (R174 to R190), exact dyadic values, and the one rounding rule that every conversion
and every floating-point operation follows (R192, R193, R201). -/
namespace Sys2Proof.Machine

/-- A floating-point value: a NaN (its sign and the fraction bits of its encoding), an infinity, or
(−1)^sign × m × 2^e exactly. -/
inductive FVal where
  | nan (sign : Bool) (frac : Nat)
  | inf (sign : Bool)
  | fin (sign : Bool) (m : Nat) (e : Int)
  deriving DecidableEq, Repr

/-- Rounding: the five IEEE attributes, and stochastic rounding with its draw (R193). -/
inductive Rnd where
  | rne
  | rna
  | up
  | down
  | rtz
  | sr (u : Nat)
  deriving DecidableEq, Repr

/-- vctl.RM (R67). -/
def rndOf (rm : Nat) : Rnd :=
  match rm with
  | 0 => .rne
  | 1 => .rna
  | 2 => .up
  | 3 => .down
  | _ => .rtz

/-- `m / 2^k` rounded to an integer, and whether that was inexact. -/
def roundShift (rd : Rnd) (sign : Bool) (m k : Nat) : Nat × Bool :=
  let q := m / 2 ^ k
  let r := m % 2 ^ k
  let up : Bool :=
    match rd with
    | .rne => decide (2 * r > 2 ^ k) || (decide (2 * r = 2 ^ k) && decide (q % 2 = 1))
    | .rna => decide (r ≠ 0) && decide (2 * r ≥ 2 ^ k)
    | .up => decide (r ≠ 0) && !sign
    | .down => decide (r ≠ 0) && sign
    | .rtz => false
    | .sr u => decide (u < r * 2 ^ 16 / 2 ^ k)
  (q + b2n up, decide (r ≠ 0))

/-- Number of significant bits. -/
def bitLen (m : Nat) : Nat := if m = 0 then 0 else Nat.log2 m + 1

/-- A float format of `eb` exponent and `mb` fraction bits (R177); `kind` 0: the all-ones exponent encodes infinities
and NaNs, 1: fraction all ones there is a NaN (F8-E4M3), 2: every encoding is finite. -/
structure Fmt where
  eb : Nat
  mb : Nat
  bias : Nat
  kind : Nat
  deriving DecidableEq, Repr

def fF32 : Fmt := ⟨8, 23, 127, 0⟩
def fF16 : Fmt := ⟨5, 10, 15, 0⟩
def fBF16 : Fmt := ⟨8, 7, 127, 0⟩
def fE4M3 : Fmt := ⟨4, 3, 7, 1⟩
def fE5M2 : Fmt := ⟨5, 2, 15, 0⟩
def fE3M2 : Fmt := ⟨3, 2, 3, 2⟩
def fE2M3 : Fmt := ⟨2, 3, 1, 2⟩
def fE2M1 : Fmt := ⟨2, 1, 1, 2⟩

/-- Exponent of a subnormal's least significant bit. -/
def fmtLsb (f : Fmt) : Int := 1 - (f.bias : Int) - f.mb

/-- The largest finite encoding (R190). -/
def fmtMaxCode (f : Fmt) : Nat :=
  match f.kind with
  | 0 => (2 ^ f.eb - 1) * 2 ^ f.mb - 1
  | 1 => 2 ^ (f.eb + f.mb) - 2
  | _ => 2 ^ (f.eb + f.mb) - 1

/-- The value of an encoding (R177 to R181). -/
def decodeF (f : Fmt) (n : Nat) : FVal :=
  let s := bit n (f.eb + f.mb)
  let e := fld n f.mb f.eb
  let fr := fld n 0 f.mb
  let ones := decide (e = 2 ^ f.eb - 1)
  if ones && f.kind = 0 then (if fr = 0 then .inf s else .nan s fr)
  else if ones && f.kind = 1 && fr = 2 ^ f.mb - 1 then .nan s fr
  else if e = 0 then .fin s fr (fmtLsb f)
  else .fin s (2 ^ f.mb + fr) (fmtLsb f + e - 1)

/-- Code of the magnitude `m × 2^q`, with `q` at least the subnormal exponent and `m` at most 2^(mb + 1). -/
def packMag (f : Fmt) (m : Nat) (q : Int) : Nat :=
  if m < 2 ^ f.mb then m else (q - fmtLsb f).toNat * 2 ^ f.mb + m

def withSign (f : Fmt) (s : Bool) (code : Nat) : Nat := code + b2n s * 2 ^ (f.eb + f.mb)

/-- `m × 2^e` shifted to exponent `q` and rounded. -/
def atExp (rd : Rnd) (s : Bool) (m : Nat) (e q : Int) : Nat × Bool :=
  if q ≤ e then (m * 2 ^ (e - q).toNat, false) else roundShift rd s m (q - e).toNat

/-- Result of rounding to a format: step 1 of R201, whether its magnitude exceeds the largest finite value, whether it
is inexact, and whether it is tiny after rounding (R80). -/
structure Rounded where
  m : Nat
  q : Int
  ovf : Bool
  inexact : Bool
  tiny : Bool
  deriving DecidableEq, Repr

def roundTo (f : Fmt) (rd : Rnd) (s : Bool) (m : Nat) (e : Int) : Rounded :=
  let natural : Int := e + bitLen m - (f.mb + 1 : Nat)
  let q := max natural (fmtLsb f)
  let r := atExp rd s m e q
  let u := atExp rd s m e natural
  let code := packMag f r.1 q
  let minNormal : Int := fmtLsb f + f.mb
  { m := r.1, q := q, ovf := decide (code > fmtMaxCode f), inexact := r.2,
    tiny := decide (u.1 ≠ 0) && decide (natural + bitLen u.1 ≤ minNormal) }

/-- Overflow gives infinity rather than the largest finite value under the IEEE attributes. -/
def overInf (rd : Rnd) (s : Bool) : Bool :=
  match rd with
  | .rne => true
  | .rna => true
  | .up => !s
  | .down => s
  | .rtz => false
  | .sr _ => true

/-- IEEE flags: bit 4 NV, bit 3 DZ, bit 2 OF, bit 1 UF, bit 0 NX (R67). -/
def flNV : Nat := 16
def flDZ : Nat := 8

/-- An exact value rounded to a format under the IEEE overflow treatment (R201, R202, R212), with its flags. -/
def ieeeRound (f : Fmt) (rd : Rnd) (s : Bool) (m : Nat) (e : Int) : Nat × Nat :=
  if m = 0 then (withSign f s 0, 0) else
  let r := roundTo f rd s m e
  if r.ovf then
    (withSign f s (if f.kind = 0 && overInf rd s then fmtMaxCode f + 1 else fmtMaxCode f), 5)
  else
    (withSign f s (packMag f r.m r.q), (if r.inexact then 1 + (if r.tiny then 2 else 0) else 0))

def f32Of (w : Word) : FVal := decodeF fF32 w.toNat

def nanCanon : Word := 0x7FC00000

/-- A NaN encoding quietened by setting bit 22. -/
def quiet (w : Word) : Word := w ||| 0x00400000

def isNaN32 (w : Word) : Bool := decide ((w &&& 0x7FFFFFFF).toNat > 0x7F800000)

def isSNaN32 (w : Word) : Bool := isNaN32 w && !w.getLsbD 22

/-! ## Exact arithmetic on (sign, magnitude, exponent) -/

/-- Signed mantissa at the lower exponent of two values. -/
def addExact (s1 : Bool) (m1 : Nat) (e1 : Int) (s2 : Bool) (m2 : Nat) (e2 : Int) : Int × Int :=
  let e := min e1 e2
  let a : Int := (m1 * 2 ^ (e1 - e).toNat : Nat)
  let b : Int := (m2 * 2 ^ (e2 - e).toNat : Nat)
  ((if s1 then -a else a) + (if s2 then -b else b), e)

/-- Integer square root by bits, `k` of them. -/
def isqrtBits (n : Nat) : Nat → Nat → Nat
  | 0, r => r
  | k + 1, r => let c := r + 2 ^ k
                isqrtBits n k (if c * c ≤ n then c else r)

/-- The real quotient m1/m2 × 2^(e1 − e2), with the bits lost marked in the lowest bit. -/
def divExact (m1 : Nat) (e1 : Int) (m2 : Nat) (e2 : Int) : Nat × Int :=
  let n := m1 * 2 ^ 64
  (2 * (n / m2) + b2n (decide (n % m2 ≠ 0)), e1 - e2 - 65)

/-- The real square root of m × 2^e, with the bits lost marked in the lowest bit. -/
def sqrtExact (m : Nat) (e : Int) : Nat × Int :=
  let odd := decide (e % 2 ≠ 0)
  let n := (if odd then 2 * m else m) * 2 ^ 64
  let e0 := if odd then e - 1 else e
  let r := isqrtBits n 46 0
  (2 * r + b2n (decide (r * r ≠ n)), e0 / 2 - 33)

/-- Order of two FP32 encodings, −0 below +0 (R215); neither is a NaN. -/
def key32 (w : Word) : Int := if w.getLsbD 31 then -1 - ((w &&& 0x7FFFFFFF).toNat : Int) else (w.toNat : Int)

/-- FP32 addition rounded by `rd` of two values that are not NaN; none when invalid (∞ − ∞). -/
def addF (rd : Rnd) (a b : FVal) : Option (Nat × Nat) :=
  match a, b with
  | .inf s, .inf t => if s = t then some (withSign fF32 s 0x7F800000, 0) else none
  | .inf s, _ => some (withSign fF32 s 0x7F800000, 0)
  | _, .inf t => some (withSign fF32 t 0x7F800000, 0)
  | .fin s m e, .fin t n d =>
    let r := addExact s m e t n d
    if r.1 = 0 then
      let z := if m = 0 && n = 0 && s = t then s else decide (rd = .down)
      some (withSign fF32 z 0, 0)
    else some (ieeeRound fF32 rd (decide (r.1 < 0)) r.1.natAbs r.2)
  | _, _ => none

/-- The exact product of two values that are not NaN; none when 0 × ∞. -/
def mulX (a b : FVal) : Option FVal :=
  match a, b with
  | .inf s, .inf t => some (.inf (s != t))
  | .inf s, .fin t n _ => if n = 0 then none else some (.inf (s != t))
  | .fin s m _, .inf t => if m = 0 then none else some (.inf (s != t))
  | .fin s m e, .fin t n d => some (.fin (s != t) (m * n) (e + d))
  | _, _ => none

def packFVal (rd : Rnd) : FVal → Nat × Nat
  | .nan _ _ => (0x7FC00000, 0)
  | .inf s => (withSign fF32 s 0x7F800000, 0)
  | .fin s m e => ieeeRound fF32 rd s m e

/-- FP32 addition rounded to nearest even with canonical NaN results (R244, R256). -/
def addCanon (a b : Word) : Word :=
  if isNaN32 a || isNaN32 b then nanCanon else
  match addF .rne (f32Of a) (f32Of b) with
  | some r => BitVec.ofNat 32 r.1
  | none => nanCanon

/-- Maximum (`mx`) or minimum with the canonical NaN (R215, R216). -/
def maxCanon (mx : Bool) (a b : Word) : Word :=
  if isNaN32 a || isNaN32 b then nanCanon
  else if decide (key32 a < key32 b) = mx then b else a

/-- The rank tree of R255 over present operands (R81): `none` is absent. -/
def treeLevel {α : Type} (f : α → α → α) : List (Option α) → List (Option α)
  | some a :: some b :: r => some (f a b) :: treeLevel f r
  | some a :: none :: r => some a :: treeLevel f r
  | none :: b :: r => b :: treeLevel f r
  | r => r

def treeFold {α : Type} (f : α → α → α) : Nat → List (Option α) → Option α
  | 0, l => l.headD none
  | k + 1, l => if l.length ≤ 1 then l.headD none else treeFold f k (treeLevel f l)

end Sys2Proof.Machine
end

