-- ==== Sys2Proof/Machine/Tile.lean ====
section
/-! DEFINITION. The arithmetic of the bough engine: load and store paths, products, chunks, promotion, epilogues, the SR
generator (R182 to R188, R191 to R211, R236, R240 to R254, R256). -/
namespace Sys2Proof.Machine

/-! ## Counting (R206) -/

structure Counts where
  nan : Nat := 0
  inf : Nat := 0
  sat : Nat := 0
  flush : Nat := 0
  deriving DecidableEq, Repr

/-- Case 1 NAN, 2 INF, 3 SATURATED, 4 FLUSHED; 0 counts nothing. -/
def Counts.add (k : Counts) (n : Nat) : Counts :=
  match n with
  | 1 => { k with nan := k.nan + 1 }
  | 2 => { k with inf := k.inf + 1 }
  | 3 => { k with sat := k.sat + 1 }
  | 4 => { k with flush := k.flush + 1 }
  | _ => k

/-! ## Conversion to a float format (R201, R202, R205) -/

/-- The float format of a code 0 to 7. -/
def fmtF (c : Nat) : Fmt :=
  match c with
  | 0 => fF32
  | 1 => fF16
  | 2 => fBF16
  | 3 => fE4M3
  | 4 => fE5M2
  | 5 => fE3M2
  | 6 => fE2M3
  | _ => fE2M1

/-- The NaN that the engine writes in a format (R190, R205). -/
def fmtNan (c : Nat) : Nat :=
  match c with
  | 0 => 0x7FC00000
  | 1 => 0x7E00
  | 2 => 0x7FC0
  | _ => 0x7F

/-- Overflow and infinities become infinity in this format (R202). -/
def fmtInf (c : Nat) (e5inf : Bool) : Bool := c ≤ 2 || (c = 4 && e5inf)

/-- A value converted to float format `c`, and the case it counts under. -/
def convF (c : Nat) (e5inf : Bool) (rd : Rnd) (v : FVal) : Nat × Nat :=
  let f := fmtF c
  match v with
  | .nan s _ => (withSign f s (fmtNan c), 1)
  | .inf s => if fmtInf c e5inf then (withSign f s (fmtMaxCode f + 1), 2) else (withSign f s (fmtMaxCode f), 3)
  | .fin s m e =>
    if m = 0 then (withSign f s 0, 0)
    else
      let r := roundTo f rd s m e
      if r.ovf then
        if fmtInf c e5inf && rd ≠ .rtz then (withSign f s (fmtMaxCode f + 1), 2) else (withSign f s (fmtMaxCode f), 3)
      else
        let k := packMag f r.m r.q
        (withSign f s k, if k = 0 then 4 else 0)

/-- Case of an identical copy. -/
def copyCase (v : FVal) : Nat :=
  match v with
  | .nan _ _ => 1
  | .inf _ => 2
  | .fin _ _ _ => 0

/-! ## LOG8 (R185, R186, R203) -/

def logT (f : Nat) : Nat := [0x8000, 0x8B96, 0x9838, 0xA5FF, 0xB505, 0xC567, 0xD745, 0xEAC1].getD f 0

/-- Realised magnitude of field L in units of 2^−23. -/
def logMag (l : Nat) : Nat := if l = 0 then 0 else logT (l % 8) * 2 ^ (l / 8)

/-- Distance of two numbers. -/
def natDist (a b : Nat) : Nat := if a ≤ b then b - a else a - b

/-- The field for a magnitude `x` in units of 2^−149. -/
def logField (rtz : Bool) (x : Nat) : Nat :=
  let mag (l : Nat) : Nat := logMag l * 2 ^ 126
  (List.range 128).foldl (fun best l =>
    if rtz then (if mag l ≤ x then l else best)
    else
      let a := natDist (mag l) x
      let b := natDist (mag best) x
      if a < b || (a = b && l % 2 = 0) then l else best) 0

def convLog (rtz : Bool) (v : FVal) : Nat × Nat :=
  match v with
  | .nan _ _ => (0, 1)
  | .inf s => (0x7F + 128 * b2n s, 3)
  | .fin s m e =>
    let x := m * 2 ^ (e + 149).toNat
    let l := logField rtz x
    (l + 128 * b2n s, if l = 0 && m ≠ 0 then 4 else if x > logMag 127 * 2 ^ 126 then 3 else 0)

/-! ## Integers (R204, R211) -/

/-- An exact integer within the range of an INT format of `w` bits, its code, and the case. -/
def clampInt (w : Nat) (v : Int) (nonzero : Bool) : Nat × Nat :=
  let hi : Int := 2 ^ (w - 1) - 1
  let lo : Int := -(2 ^ (w - 1))
  let r := if v > hi then hi else if v < lo then lo else v
  ((r % 2 ^ w).toNat, if r ≠ v then 3 else if v = 0 && nonzero then 4 else 0)

def convInt (w : Nat) (rd : Rnd) (v : FVal) : Nat × Nat :=
  match v with
  | .nan _ _ => (0, 1)
  | .inf s => if s then (2 ^ (w - 1), 3) else (2 ^ (w - 1) - 1, 3)
  | .fin s m e =>
    let r := if 0 ≤ e then m * 2 ^ e.toNat else (roundShift rd s m (-e).toNat).1
    clampInt w (if s then -(r : Int) else r) (m ≠ 0)

/-- Division by 2^SHIFT of an INT32 accumulator, rounded. -/
def shiftInt (w : Nat) (rd : Rnd) (shift : Nat) (v : Int) : Nat × Nat :=
  let r := (roundShift rd (decide (v < 0)) v.natAbs shift).1
  clampInt w (if v < 0 then -(r : Int) else r) (v ≠ 0)

/-! ## Load path (R207, R208) -/

/-- An operand element after the load path. -/
inductive OpV where
  | f (v : FVal)
  | i (v : Int)
  | log (code : Nat)
  deriving DecidableEq, Repr

/-- A stored element as an operand, and its case. `nanBlock` says that its block's S8 is 0xFF (R184). -/
def loadElem (st op : Nat) (nanBlock : Bool) (code : Nat) : OpV × Nat :=
  if op = 8 then (.log code, 0)
  else if fmtInt op then (.i (sext code (fmtBits st)), 0)
  else if nanBlock then (.f (.nan false 1), 1)
  else
    let v := decodeF (fmtF st) code
    if st = op then (.f v, copyCase v)
    else
      let r := convF op true .rne v
      (.f (decodeF (fmtF op) r.1), r.2)

/-! ## Products (R187, R188, R240, R243) -/

inductive Term where
  | nan
  | inf (s : Bool)
  | fin (s : Bool) (p : Nat) (x : Int)
  deriving DecidableEq, Repr

def logTerm (a b : Nat) : Term :=
  let s := bit a 7 != bit b 7
  let la := a % 128
  let lb := b % 128
  if la = 0 || lb = 0 then .fin s 0 0
  else
    let e : Int := (la : Int) + lb - 128
    .fin s (logT (e % 8).toNat) (e / 8 - 15)

def floatTerm (a b : FVal) : Term :=
  match a, b with
  | .fin s m e, .fin t n d => .fin (s != t) (m * n) (e + d)
  | .nan _ _, _ => .nan
  | _, .nan _ _ => .nan
  | _, _ => match mulX a b with
    | some (.inf s) => .inf s
    | _ => .nan

/-- Limb `i` of a finite element of FP32 (`op` 0) or FP16 (R246). -/
def limb (op i : Nat) (v : FVal) : FVal :=
  match v with
  | .fin s m e =>
    if op = 0 then
      if i = 1 then .fin s (m / 2 ^ 16) (e + 16) else if i = 2 then .fin s (m / 2 ^ 8 % 256) (e + 8) else .fin s (m % 256) e
    else if i = 1 then .fin s (m / 8) (e + 3) else .fin s (m % 8) e
  | w => w

def isSpecial (t : Term) : Bool :=
  match t with
  | .fin _ _ _ => false
  | _ => true

/-- Limb pairs in promotion order (R247). -/
def limbPairs (op passes : Nat) : List (Nat × Nat) :=
  if op > 1 then [(1, 1)]
  else if passes = 1 then [(1, 1)]
  else if passes = 2 then [(1, 1), (1, 2), (2, 1)]
  else [(1, 1), (1, 2), (2, 1), (1, 3), (2, 2), (3, 1)]

/-- The terms that one element product puts into the chunk of a limb pair (R247, R249). -/
def pairTerms (op : Nat) (ij : Nat × Nat) (a b : OpV) : List Term :=
  match a, b with
  | .f u, .f v =>
    let w := floatTerm u v
    if op > 1 then [w]
    else if isSpecial w then (if ij = (1, 1) then [w] else [])
    else
      let one (i j : Nat) : Term := floatTerm (limb op i u) (limb op j v)
      if op = 1 && ij = (2, 1) then [one 2 1, one 2 2] else [one ij.1 ij.2]
  | .log x, .log y => [logTerm x y]
  | _, _ => []

/-! ## Chunks and promotion (R242, R244, R245, R250, R251) -/

/-- The float chunk of a run's terms. -/
def chunkOf (ts : List Term) : FVal :=
  let infP := ts.contains (.inf false)
  let infN := ts.contains (.inf true)
  if ts.contains .nan || (infP && infN) then .nan false 1
  else if infP || infN then .inf infN
  else
    let xs := ts.filterMap (fun t => match t with
      | .fin s p x => if p = 0 then none else some (s, p, x)
      | _ => none)
    match xs with
    | [] => .fin false 0 0
    | h :: _ =>
      let top := xs.foldl (fun (m : Int) t => max m (t.2.2 + 17)) (h.2.2 + 17)
      let l := top - 34
      let reg := xs.foldl (fun (acc : Int) t =>
        let d := t.2.2 - l
        let mag : Nat := if 0 ≤ d then t.2.1 * 2 ^ d.toNat else t.2.1 / 2 ^ (-d).toNat
        if t.1 then acc - mag else acc + mag) 0
      .fin (decide (reg < 0)) reg.natAbs l

/-- The block's scale applied to a chunk. -/
def scaleChunk (sa sb : Nat) (c : FVal) : FVal :=
  if sa = 0xFF || sb = 0xFF then .nan false 1
  else match c with
    | .fin s m e => .fin s m (e + sa + sb - 254)
    | v => v

/-- One promotion into an FP32 accumulator. -/
def promote (acc : Word) (c : FVal) : Word :=
  match c with
  | .nan _ _ => nanCanon
  | .fin _ 0 _ => acc
  | v => if isNaN32 acc then nanCanon else match addF .rne (f32Of acc) v with
    | some r => BitVec.ofNat 32 r.1
    | none => nanCanon

/-- A saturating INT32 sum, and whether it saturated. -/
def satAdd (a b : Int) : Int × Nat :=
  if a + b > 2 ^ 31 - 1 then (2 ^ 31 - 1, 1) else if a + b < -(2 ^ 31) then (-(2 ^ 31), 1) else (a + b, 0)

/-- One accumulator over all its runs (R241, R248): `a` and `b` are its row's and column's elements by k, `sa` and `sb`
their scales by block (empty where the format has none). -/
def accFloat (op passes runLen : Nat) (acc : Word) (a b : List OpV) (sa sb : List Nat) : Word :=
  let runs := (chunks runLen a.length (a.zip b)).zipIdx
  runs.foldl (fun w r =>
    (limbPairs op passes).foldl (fun u ij =>
      let c := chunkOf (r.1.flatMap (fun p => pairTerms op ij p.1 p.2))
      promote u (if fmtBlock op then scaleChunk (sa.getD r.2 0) (sb.getD r.2 0) c else c)) w) acc

def intProd (a b : OpV) : Int :=
  match a, b with
  | .i x, .i y => x * y
  | _, _ => 0

def accInteger (acc : Int) (a b : List OpV) : Int × Nat :=
  (chunks 16 a.length (a.zip b)).foldl (fun r run =>
    let n := satAdd r.1 (run.map (fun p => intProd p.1 p.2)).sum
    (n.1, r.2 + n.2)) (acc, 0)

/-! ## Epilogue (R252) -/

def mulCanon (a b : Word) : Word :=
  if isNaN32 a || isNaN32 b then nanCanon
  else match mulX (f32Of a) (f32Of b) with
    | some v => BitVec.ofNat 32 (packFVal .rne v).1
    | none => nanCanon

def epilogue (epi : Nat) (scalar acc : Word) : Word :=
  let v := if epi = 2 || epi = 3 then mulCanon acc scalar else acc
  if epi = 1 || epi = 3 then maxCanon true v 0 else v

/-! ## The SR generator (R193 to R195, R197) -/

def srNext (x : Word) : Word :=
  let a := x ^^^ (x <<< 13)
  let b := a ^^^ (a >>> 17)
  b ^^^ (b <<< 5)

def srStart (seed : Word) (b opseq : Nat) : Word :=
  let x := seed ^^^ BitVec.ofNat 32 (b * 0x9E3779B9) ^^^ BitVec.ofNat 32 (opseq * 0x85EBCA6B)
  if x = 0 then 1 else x

/-! ## Store path (R209 to R211, R254) -/

/-- Generator and counts as the store path goes along. -/
structure StoreSt where
  x : Word
  k : Counts := {}
  deriving DecidableEq, Repr

/-- The rounding of one conversion in mode 1 RNE, 2 RTZ or 3 SR, which takes a draw. -/
def storeRnd (mode : Nat) (g : StoreSt) : Rnd × StoreSt :=
  if mode = 3 then (.sr ((srNext g.x).toNat / 2 ^ 16), { g with x := srNext g.x })
  else (if mode = 2 then .rtz else .rne, g)

/-- One accumulator to a destination element that is not of a B format. -/
def storeElem (c : Nat) (accInt e5inf : Bool) (shift mode : Nat) (g : StoreSt) (w : Word) : StoreSt × Nat :=
  if accInt && c = 11 then (g, w.toNat)
  else if !accInt && c = 0 then ({ g with k := g.k.add (copyCase (f32Of w)) }, w.toNat)
  else
    let rd := storeRnd mode g
    let r : Nat × Nat :=
      if accInt then
        if c = 0 then ((ieeeRound fF32 rd.1 (decide (w.toInt < 0)) w.toInt.natAbs 0).1, 0)
        else shiftInt (fmtBits c) rd.1 shift w.toInt
      else if c = 8 then convLog (decide (mode = 2)) (f32Of w)
      else if fmtInt c then convInt (fmtBits c) rd.1 (f32Of w)
      else convF c e5inf rd.1 (f32Of w)
    ({ rd.2 with k := rd.2.k.add r.2 }, r.1)

/-- S8 of a block (R210). -/
def blockScale (c : Nat) (vs : List FVal) : Nat :=
  let emax : Int := if c = 5 then 4 else 2
  let isNan (v : FVal) : Bool := match v with
    | .nan _ _ => true
    | _ => false
  let isInf (v : FVal) : Bool := match v with
    | .inf _ => true
    | _ => false
  if vs.any isNan then 0xFF
  else if vs.any isInf then 254
  else
    let tops : List Int := vs.filterMap (fun v => match v with
      | .fin _ m e => if m = 0 then none else some (e + bitLen m - 1)
      | _ => none)
    match tops with
    | [] => 0
    | h :: r => (min 254 (max 0 (r.foldl max h - emax + 127))).toNat

/-- An element of a block under its scale. -/
def scaled (s8 : Nat) (v : FVal) : FVal :=
  match v with
  | .fin s m e => .fin s m (e + 127 - s8)
  | w => w

/-- One block to a B format: its codes and its S8. -/
def storeBlock (c mode : Nat) (g : StoreSt) (ws : List Word) : StoreSt × List Nat × Nat :=
  let s8 := blockScale c (ws.map f32Of)
  let r := ws.foldl (fun (acc : StoreSt × List Nat) w =>
    let rd := storeRnd mode acc.1
    let o : Nat × Nat := if s8 = 0xFF then (0, 1) else convF c false rd.1 (scaled s8 (f32Of w))
    ({ rd.2 with k := rd.2.k.add o.2 }, acc.2 ++ [o.1])) (g, [])
  (r.1, r.2, s8)

/-- One line of the store order: the elements of all slices at one `e` (R234); codes by slice, S8 by block. -/
def storeLine (c blk : Nat) (accInt e5inf : Bool) (shift mode : Nat) (g : StoreSt) (ws : List Word) :
    StoreSt × List Nat × List Nat :=
  if fmtBlock c then
    (chunks blk ws.length ws).foldl (fun (acc : StoreSt × List Nat × List Nat) b =>
      let r := storeBlock c mode acc.1 b
      (r.1, acc.2.1 ++ r.2.1, acc.2.2 ++ [r.2.2])) (g, [], [])
  else
    let r := ws.foldl (fun (acc : StoreSt × List Nat) w =>
      let o := storeElem c accInt e5inf shift mode acc.1 w
      (o.1, acc.2 ++ [o.2])) (g, [])
    (r.1, r.2, [])

end Sys2Proof.Machine
end

