-- ==== Sys2Proof/Machine/Coll.lean ====
section
/-! DEFINITION. The collective unit: posts, identifiers, messages, direct exchange, the rank tree, the low-latency path,
settlement and failure (R478, R483 to R518). -/
namespace Sys2Proof.Machine

/-! ## Descriptor fields (R487) -/

def cF (d : BitVec 512) (lo w : Nat) : Nat := fld d.toNat lo w
def cOp (d : BitVec 512) : Nat := cF d 0 4
def cRed (d : BitVec 512) : Nat := cF d 4 2
def cType (d : BitVec 512) : Nat := cF d 8 4
def cGroupNo (d : BitVec 512) : Nat := cF d 12 8
def cRoot (d : BitVec 512) : Nat := cF d 20 12
def cBytes (d : BitVec 512) : Nat := cF d 32 32
def cSrc (d : BitVec 512) : Nat := cF d 64 47
def cDst (d : BitVec 512) : Nat := cF d 128 47
def cRecv (d : BitVec 512) : Nat := cF d 192 47
def cAux (d : BitVec 512) : Nat := cF d 256 47
def cStatusOff (d : BitVec 512) : Nat := cF d 320 47
def cCap (d : BitVec 512) : Nat := cF d 384 32
def cDoneGc (d : BitVec 512) : Nat := cF d 416 12
def cSettledGc (d : BitVec 512) : Nat := cF d 428 12
def cStatusEn (d : BitVec 512) : Bool := bit d.toNat 440

/-- The operation reduces (ALL_REDUCE, REDUCE_SCATTER). -/
def cReduces (d : BitVec 512) : Bool := cOp d < 2

/-! ## Chunks and parts (R494, R495, R502) -/

/-- Bytes of a chunk's place: Cb, B or CAP. -/
def cStride (d : BitVec 512) (n : Nat) : Nat :=
  if cOp d = 0 then 192 * ((cBytes d + 192 * n - 1) / (192 * n)) else if cOp d = 4 then cCap d else cBytes d

/-- Length of the chunk that rank `c` owns in a reducing operation. -/
def chunkLen (d : BitVec 512) (n c : Nat) : Nat :=
  if cOp d = 0 then min ((c + 1) * cStride d n) (cBytes d) - c * cStride d n else cBytes d

/-- Pieces of a length; a part of ALL_TO_ALL_V has at least one. -/
def pieces (len : Nat) : Nat := (len + 191) / 192

/-- Bytes of CONTRIB that rank `s` sends to rank `t`. -/
def contribLen (d : BitVec 512) (n s t : Nat) : Nat := if cReduces d && s ≠ t then chunkLen d n t else 0

/-- Bytes of RESULT that rank `s` sends to rank `t`, but for ALL_TO_ALL_V. -/
def resultLen (d : BitVec 512) (n s t : Nat) : Nat :=
  if s = t then 0
  else match cOp d with
  | 0 => chunkLen d n s
  | 2 => cBytes d
  | 3 => cBytes d
  | 5 => if s = cRoot d then cBytes d else 0
  | _ => 0

/-- Rank `s` writes into rank `t` on the bulk path. -/
def writesInto (d : BitVec 512) (n s t : Nat) : Bool :=
  s ≠ t && (0 < contribLen d n s t || 0 < resultLen d n s t || cOp d = 4)

/-- Landing bases at rank `t` for the data of rank `s`: DST and RECV, zero where unused (R494, R501). -/
def dstBaseFor (d : BitVec 512) (n s t : Nat) : Nat :=
  if 0 < resultLen d n s t || (cOp d = 4 && s ≠ t) then
    (if cOp d = 5 then cDst d else cDst d + s * cStride d n)
  else 0

def recvBaseFor (d : BitVec 512) (n s t : Nat) : Nat := if 0 < contribLen d n s t then cRecv d + s * cStride d n else 0

/-- Bytes that each member contributes, where the low-latency path counts them (R507). -/
def smallBytes (d : BitVec 512) (n : Nat) : Nat := if cOp d = 1 then n * cBytes d else cBytes d

def isSmall (d : BitVec 512) (n : Nat) : Bool := 2 ≤ n && (cOp d < 3 || cOp d = 5) && smallBytes d n ≤ 64

/-! ## The check at take (R489) -/

/-- A range lies wholly in the heartwood region or in the scratchpad region. -/
def inRegions (off len : Nat) : Bool :=
  off + len ≤ 0x4800000000 || (0x100000000000 ≤ off && off + len ≤ 0x100024000000)

def bufferBad (off len : Nat) : Bool := off % 64 ≠ 0 || !inRegions off len

/-- Buffers of R494 at rank `r`: offset and length. -/
def cBuffers (d : BitVec 512) (n r : Nat) : List (Nat × Nat) :=
  let b := cBytes d
  let recv : List (Nat × Nat) := if isSmall d n then [] else [(cRecv d, n * cStride d n)]
  match cOp d with
  | 0 => [(cSrc d, b), (cDst d, b)] ++ recv
  | 1 => [(cSrc d, n * b), (cDst d, b)] ++ recv
  | 2 => [(cSrc d, b), (cDst d, n * b)]
  | 3 => [(cSrc d, n * b), (cDst d, n * b)]
  | 4 => [(cSrc d, n * cCap d), (cDst d, n * cCap d)]
  | _ => (if r = cRoot d then [(cSrc d, b)] else []) ++ [(cDst d, b)]

def collBad (d : BitVec 512) (n r : Nat) : Bool :=
  let op := cOp d
  let v : Bool := op = 4
  cF d 441 71 ≠ 0 || cF d 367 17 ≠ 0 || cF d 303 17 ≠ 0 || cF d 239 17 ≠ 0 || cF d 175 17 ≠ 0 || cF d 111 17 ≠ 0
    || cF d 6 2 ≠ 0 || op > 5
    || (if cReduces d then cRed d = 3 || !(cType d = 0 || cType d = 0xB) else cRed d ≠ 0 || cType d ≠ 0)
    || (if v then cBytes d ≠ 0 || cCap d = 0 || cCap d % 4 ≠ 0 else cBytes d = 0 || cBytes d % 4 ≠ 0 || cCap d ≠ 0)
    || (if op = 5 then cRoot d ≥ n else cRoot d ≠ 0)
    || (cBuffers d n r).any (fun b => bufferBad b.1 b.2)
    || (cStatusEn d && cStatusOff d % 32 ≠ 0)

/-! ## Memory accesses of the unit (R489, R502) -/

/-- Accesses of a word-aligned range: 64-byte runs where aligned, single words elsewhere. -/
def accessesOf : Nat → Nat → Nat → List (Nat × Nat)
  | 0, _, _ => []
  | fuel + 1, off, n =>
    if n = 0 then []
    else if off % 64 = 0 && 64 ≤ n then (off, 64) :: accessesOf fuel (off + 64) (n - 64)
    else (off, 4) :: accessesOf fuel (off + 4) (n - 4)

/-- No window of the leaf admits an access of this chiplet (R139). -/
def collDenied (s : State) (off n : Nat) (write : Bool) : Bool :=
  match placeOf off with
  | .spad l => !windowAdmits s l (off % 0x40000) n write (originId s)
  | _ => false

/-- The target counts and reports the refusal (R369), a leaf's windows theirs too (R141 to R143). -/
def noteCollRefusal (s : State) (off n : Nat) (write : Bool) : State :=
  let code := accessCode s off n false write
  let t := if code ≠ none then s
    else match placeOf off with
      | .spad l => windowRefuse s l (off % 0x40000) n write (originId s)
      | _ => s
  noteRefusal t (trunkEp s (endpointOf off)) (code.getD 8) (gaddr (originId s).toNat off) (originId s)

/-- The access is held at its target while the unit's step is tried: by the scoreboard, by a launched line, or until a buffered row has
drained (R133, R152, R406). -/
def collHolds (s : State) (off n : Nat) (write : Bool) : Bool :=
  s.coll.asks.isSome && (remoteHeld s off n write || match placeOf off with
    | .spad l => buffered (leafOf s l) (rowsOf (off % 0x40000) n)
    | _ => false)

def noteHeld (s : State) (off n : Nat) : State :=
  { s with coll := { s.coll with asks := s.coll.asks.map (fun l => l ++ [(off, n)]) } }

/-- A step of the unit takes effect, unless an access of it is held: then all of it waits, and the buffer's entries request their
drains (R131, R133; log 141). -/
def collTry (s : State) (f : State → State) (wait : State → State) : State :=
  let t := f { s with coll := { s.coll with asks := some [] } }
  match t.coll.asks with
  | some (a :: _) => match placeOf a.1 with
    | .spad l => modLeaf (wait s) l (fun x => wantRows x s.clk.cclk (rowsOf (a.1 % 0x40000) a.2))
    | _ => wait s
  | _ => { t with coll := { t.coll with asks := none } }

/-- What the check stage finds of the line of an access, where it reads one; the unit's commands do not carry it (R408; log 137). -/
def collCheck (s : State) (off n : Nat) (write : Bool) : LineCheck × State :=
  match placeOf off with
  | .heartwood _ => if write && n = 64 then (.clean, s) else drawCheck s
  | _ => (.clean, s)

def collReadAll (s : State) : List (Nat × Nat) → State × Option (List Byte)
  | [] => (s, some [])
  | a :: r =>
    if accessCode s a.1 a.2 false false ≠ none then (noteCollRefusal s a.1 a.2 false, none)
    else if collHolds s a.1 a.2 false then (noteHeld s a.1 a.2, none)
    else if collDenied s a.1 a.2 false then (noteCollRefusal s a.1 a.2 false, none)
    else
      let c := collCheck s a.1 a.2 false
      let f := readPlace c.2 a.1 a.2 c.1
      match f.2 with
      | none => (f.1, none)
      | some bs =>
        let g := collReadAll f.1 r
        (g.1, g.2.map (fun t => bs ++ t))

/-- Bytes read from the chiplet's own memory; none when an access is refused. -/
def collRead (s : State) (off n : Nat) : State × Option (List Byte) := collReadAll s (accessesOf (n / 4 + 1) off n)

def collWriteAll (s : State) : List (Nat × Nat) → List Byte → State × Bool
  | [], _ => (s, true)
  | a :: r, bs =>
    if accessCode s a.1 a.2 false true ≠ none then (noteCollRefusal s a.1 a.2 true, false)
    else if collHolds s a.1 a.2 true then (noteHeld s a.1 a.2, false)
    else if collDenied s a.1 a.2 true then (noteCollRefusal s a.1 a.2 true, false)
    else
      let c := collCheck s a.1 a.2 true
      collWriteAll (writePlace c.2 a.1 (bs.take a.2) false c.1) r (bs.drop a.2)

def collWrite (s : State) (off : Nat) (bs : List Byte) : State × Bool :=
  collWriteAll s (accessesOf (bs.length / 4 + 1) off bs.length) bs

/-! ## Slots, groups, counts -/

def cslot (s : State) (k : Nat) : Option CSlot := mget none s.coll.slots k

def setCslot (s : State) (k : Nat) (x : Option CSlot) : State :=
  { s with coll := { s.coll with slots := mset none s.coll.slots k x } }

/-- Applies a change to a slot that is in use. -/
def modCslot (s : State) (k : Nat) (f : CSlot → CSlot) : State :=
  match cslot s k with
  | some x => setCslot s k (some (f x))
  | none => s

def cgroup (s : State) (g : Nat) : CGroup := mget {} s.coll.groups g

def bumpColl (s : State) (i n : Nat) : State :=
  { s with coll := { s.coll with counts := mmod 0 s.coll.counts i (fun v => sat32 (v + n)) } }

/-- Members and own rank of a slot's group. -/
def slotN (s : State) (x : CSlot) : Nat := (cgroup s x.group).members.length

def slotRank (s : State) (x : CSlot) : Nat := (cgroup s x.group).rank

def collId (x : CSlot) : Nat := x.group * 2 ^ 24 + x.seq

/-- A global counter of this chiplet advances, while the crown runs. -/
def collGc (s : State) (g : Nat) : State := if s.boot.phase = .compute then gcAdd s g 1 else s

/-! ## Messages (R499 to R502): kinds 0 CONTRIB, 1 RESULT, 2 SMALL, 3 GRANT, 4 CONFIRM, 5 SETTLE, 6 POISON -/

/-- The sub-header. -/
def subHeader (x : CSlot) (rank kind piece reason : Nat) (last : Bool) (data : List Byte) : BitVec 128 :=
  BitVec.ofNat 128 ((if data = [] then 0 else (crc32c data).toNat) * 2 ^ 96 + piece % 2 ^ 24 * 2 ^ 72
    + data.length % 256 * 2 ^ 64 + rank % 2 ^ 12 * 2 ^ 52 + b2n last * 2 ^ 48 + kind * 2 ^ 44 + reason % 256 * 2 ^ 36
    + x.group % 256 * 2 ^ 24 + x.seq % 2 ^ 24)

/-- A message from slot `k` to rank `t`; `extra` is the second slot of a GRANT. -/
def sendColl (s : State) (k : Nat) (x : CSlot) (t kind landing piece reason : Nat) (last : Bool) (data : List Byte)
    (extra : List (BitVec 128)) : State :=
  let g := cgroup s x.group
  let dest := ((g.members.getD t 0)).toNat
  let own := chipId s
  let vc := if x.small then 1 else 3
  let body := subHeader x g.rank kind piece reason last data :: (extra ++ slotsOfBytes data)
  if kind < 3 then
    toRouter s (mkPkt (dest * 2 ^ 47 + landing) own (k * 2 ^ 11 + x.seq % 2 ^ 11) 0 false 0x09 vc body)
  else toRouter s (mkPkt (dest * 2 ^ 47) own 0 0 false 0x14 vc body)

/-- The other ranks, in destination order (R496). -/
def destOrder (n r : Nat) : List Nat := (List.range (n - 1)).map (fun i => (r + 1 + i) % n)

/-! ## Ends of a collective (R509 to R518) -/

/-- Status record (R515). -/
def collRecord (s : State) (k : Nat) (x : CSlot) (result reason rank id : Nat) : Nat :=
  sat32 x.dropped * 2 ^ 224 + sat32 x.saturated * 2 ^ 192 + sat32 x.nans * 2 ^ 160 + sat32 x.infs * 2 ^ 128
    + sat32 (s.clk.us - x.takenAt) * 2 ^ 96 + rank % 2 ^ 12 * 2 ^ 52 + reason * 2 ^ 40 + result * 2 ^ 36 + k * 2 ^ 32
    + id % 2 ^ 32

def putCollRecord (s : State) (k : Nat) (x : CSlot) (result reason rank id : Nat) : State :=
  if cStatusEn x.desc then (collWrite s (cStatusOff x.desc) (leBytes (collRecord s k x result reason rank id) 32)).1 else s

/-- coll_fault_gc advances, when set (R512, R518). -/
def faultGc (s : State) : State :=
  let g := odNat s 0x600003
  if g = 0xFFFF then s else collGc s g

/-- Status record, fault counter, DONE and SETTLED of a failed collective (R512 steps 3 to 6). -/
def failCounters (s : State) (k : Nat) (x : CSlot) (result reason rank id : Nat) : State :=
  let s1 := faultGc (putCollRecord s k x result reason rank id)
  let s2 := if x.doneAdv then s1 else collGc s1 (cDoneGc x.desc)
  collGc s2 (cSettledGc x.desc)

/-- POISON to every other member (R512). -/
def sendPoison (s : State) (k : Nat) (x : CSlot) (reason : Nat) : State :=
  let n := slotN s x
  bumpColl ((destOrder n (slotRank s x)).foldl (fun t d => sendColl t k x d 6 0 0 reason false [] []) s) 4 (n - 1)

/-- The collective in slot `k` fails; `quiet` where a POISON caused it, `skip` under R517. -/
def collFail (s : State) (k reason rank : Nat) (quiet skip : Bool) : State :=
  match cslot s k with
  | none => s
  | some x =>
    let s1 := if quiet then s else sendPoison s k x reason
    let s2 := setCslot s1 k none
    let s3 := if skip || x.crownReset then s2 else failCounters s2 k x 1 reason rank (collId x)
    if reason = 1 && !quiet then raise (bumpColl s3 3 1) 0xC2 k reason (collId x)
    else raise (bumpColl s3 2 1) 0xC0 k reason (collId x + rank % 2 ^ 12 * 2 ^ 32)

/-- Failure by this member's own detection (R516). -/
def collFailOwn (s : State) (k reason : Nat) : State :=
  match cslot s k with
  | some x => collFail s k reason (slotRank s x) false false
  | none => s

/-- The collective settles: status record, then SETTLED_GC; the slot is free (R513). -/
def collSettle (s : State) (k : Nat) : State :=
  match cslot s k with
  | none => s
  | some x =>
    let s1 := bumpColl (setCslot s k none) 1 1
    if x.crownReset then s1 else collGc (putCollRecord s1 k x 0 0 0 (collId x)) (cSettledGc x.desc)

/-- Every piece this member owes has been sent. -/
def allSent (s : State) (x : CSlot) : Bool :=
  x.small || (decide (x.sent ≥ slotN s x - 1) && x.resq = [])

/-- CONFIRM to rank 0, or at rank 0 SETTLE to every other member (R510). -/
def tryConfirm (s : State) (k : Nat) : State :=
  match cslot s k with
  | none => s
  | some x =>
    let n := slotN s x
    let r := slotRank s x
    if x.state ≠ 2 || !allSent s x then s
    else if r ≠ 0 then
      sendColl (setCslot s k (some { x with state := 3, confirmedAt := s.clk.us })) k x 0 4 0 0 0 false [] []
    else if (List.range n).all (fun m => m = 0 || x.confirms.contains m) then
      collSettle ((destOrder n 0).foldl (fun t d => sendColl t k x d 5 0 0 0 false [] []) s) k
    else s

/-! ## DONE (R505, R506, R509) -/

/-- The part of an ALL_TO_ALL_V sender has come whole. -/
def partWhole (x : CSlot) (m : Nat) : Bool :=
  match mget none x.sizes m with
  | some z => decide ((x.gotR.filter (fun p => p.1 = m)).length ≥ max 1 (pieces z))
  | none => false

/-- Every byte of DST that R494 to R507 write is present. -/
def dstComplete (s : State) (x : CSlot) : Bool :=
  let d := x.desc
  let n := slotN s x
  let r := slotRank s x
  if x.small then x.copied
  else
    x.copied && (List.range n).all (fun m =>
      m = r || (if cOp d = 4 then partWhole x m
                else (x.gotR.filter (fun p => p.1 = m)).length ≥ pieces (resultLen d n m r)))
      && (!cReduces d || x.reduced.length ≥ pieces (chunkLen d n r))

/-- DONE_GC advances once (R513). -/
def tryDone (s : State) (k : Nat) : State :=
  match cslot s k with
  | none => s
  | some x =>
    if x.state = 1 && dstComplete s x then
      tryConfirm (collGc (setCslot s k (some { x with state := 2, doneAdv := true })) (cDoneGc x.desc)) k
    else tryConfirm s k

/-! ## Reduction (R497, R498) -/

/-- One addition of two elements, and a saturation. -/
def redElem (d : BitVec 512) (a b : Word) : Word × Nat :=
  if cType d = 0xB then
    if cRed d = 0 then
      let r := satAdd a.toInt b.toInt
      (BitVec.ofInt 32 r.1, r.2)
    else (if (decide (a.toInt < b.toInt)) = (decide (cRed d = 1)) then b else a, 0)
  else if cRed d = 0 then (addCanon a b, 0)
  else (maxCanon (decide (cRed d = 1)) a b, 0)

def redWords (d : BitVec 512) (a b : List Word) : List Word × Nat :=
  let r := List.zipWith (redElem d) a b
  (r.map Prod.fst, (r.map Prod.snd).sum)

/-- The rank tree over operands by rank: the partials written (left rank, words), and the saturations; the last partial
is the result. -/
def rankTree (d : BitVec 512) (ops : List (List Word)) : List (Nat × List Word) × Nat × List Word :=
  let n := ops.length
  let level (st : List (List Word) × List (Nat × List Word) × Nat) (j : Nat) :=
    let step := 2 ^ j
    (List.range ((n + 2 * step - 1) / (2 * step))).foldl (fun acc i =>
      let l := 2 * step * i
      if l + step < n then
        let v := redWords d (acc.1.getD l []) (acc.1.getD (l + step) [])
        (acc.1.set l v.1, acc.2.1 ++ [(l, v.1)], acc.2.2 + v.2)
      else acc) st
  let r := (List.range 12).foldl level (ops, [], 0)
  (r.2.1, r.2.2, r.1.getD 0 [])

/-- NaN and infinite elements of a result. -/
def countSpecials (d : BitVec 512) (x : CSlot) (ws : List Word) : CSlot :=
  if cType d = 0xB then x
  else { x with
    nans := x.nans + (ws.filter isNaN32).length
    infs := x.infs + (ws.filter (fun w => decide ((w &&& 0x7FFFFFFF) = 0x7F800000))).length }

/-- Operands of piece `p` of the own chunk, by rank: own from SRC, the others from RECV. -/
def readOperands (s : State) (d : BitVec 512) (n r p len : Nat) : List Nat → State × Option (List (List Word))
  | [] => (s, some [])
  | m :: rest =>
    let st := cStride d n
    let f := collRead s (if m = r then cSrc d + r * st + 192 * p else cRecv d + m * st + 192 * p) len
    match f.2 with
    | none => (f.1, none)
    | some bs =>
      let g := readOperands f.1 d n r p len rest
      (g.1, g.2.map (fun t => wordsOfBytes bs :: t))

/-- Writes in order, until one is refused. -/
def writeList (s : State) : List (Nat × List Byte) → State × Bool
  | [] => (s, true)
  | w :: r =>
    let f := collWrite s w.1 w.2
    if f.2 then writeList f.1 r else f

/-- The piece's tree is complete: partials to RECV, the result to DST, and in ALL_REDUCE to every member. -/
def reducePiece (k : Nat) (s : State) (p : Nat) : State :=
  match cslot s k with
  | none => s
  | some x =>
    let d := x.desc
    let n := slotN s x
    let r := slotRank s x
    let st := cStride d n
    let len := min 192 (chunkLen d n r - 192 * p)
    let f := readOperands s d n r p len (List.range n)
    match f.2 with
    | none => collFailOwn f.1 k 6
    | some ops =>
      let t := rankTree d ops
      let dst := (if cOp d = 0 then cDst d + r * st else cDst d) + 192 * p
      let ws := (t.1.dropLast).map (fun w => (cRecv d + w.1 * st + 192 * p, bytesOfWords w.2)) ++ [(dst, bytesOfWords t.2.2)]
      let g := writeList f.1 ws
      if !g.2 then collFailOwn g.1 k 6
      else
        let y := countSpecials d { x with
          reduced := x.reduced ++ [p], saturated := x.saturated + t.2.1
          resq := if cOp d = 0 then x.resq ++ (destOrder n r).map (fun q => (q, p)) else x.resq } t.2.2
        setCslot g.1 k (some y)

/-- Every other member's contribution to piece `p` is here. -/
def pieceReady (s : State) (x : CSlot) (p : Nat) : Bool :=
  let r := slotRank s x
  (List.range (slotN s x)).all (fun m => m = r || x.gotC.contains (m, p))

/-- Every piece of the own chunk whose operands are present is reduced. -/
def reduceReady (s : State) (k : Nat) : State :=
  match cslot s k with
  | none => s
  | some x =>
    if !cReduces x.desc || x.small then s
    else
      let ps := (List.range (pieces (chunkLen x.desc (slotN s x) (slotRank s x)))).filter
        (fun p => !x.reduced.contains p && pieceReady s x p)
      ps.foldl (reducePiece k) s

/-! ## Sending (R496, R502, R506) -/

/-- Pieces of a byte string; an empty part of ALL_TO_ALL_V is one empty piece. -/
def pieceList (bs : List Byte) : List (Nat × List Byte) :=
  let ps := chunks 192 bs.length bs
  (if ps = [] then [[]] else ps).zipIdx.map (fun q => (q.2, q.1))

/-- Length of the ALL_TO_ALL_V part for rank `t` as AUX gives it, and what is sent of it. -/
def partSize (s : State) (x : CSlot) (t : Nat) : State × Option (Nat × Nat) :=
  let f := collRead s (cAux x.desc + 4 * t) 4
  (f.1, f.2.map (fun bs => (ofLe bs, min (ofLe bs / 4 * 4) (cCap x.desc))))

/-- What rank `r` sends to rank `t` before any reduction: kind, offset in SRC, landing base, length. -/
def sendPlan (x : CSlot) (n r t : Nat) (bases : Nat × Nat) : Nat × Nat × Nat × Nat :=
  let d := x.desc
  match cOp d with
  | 0 => (0, t * cStride d n, bases.2, contribLen d n r t)
  | 1 => (0, t * cStride d n, bases.2, contribLen d n r t)
  | 2 => (1, 0, bases.1, resultLen d n r t)
  | 3 => (1, t * cStride d n, bases.1, resultLen d n r t)
  | 4 => (1, t * cStride d n, bases.1, 0)
  | _ => (1, 0, bases.1, resultLen d n r t)

/-- Every piece for one destination whose GRANT is held. -/
def sendTo (s : State) (k t : Nat) (bases : Nat × Nat) : State :=
  match cslot s k with
  | none => s
  | some x =>
    let d := x.desc
    let n := slotN s x
    let r := slotRank s x
    let plan := sendPlan x n r t bases
    let v : Bool := cOp d = 4
    let z := if v then partSize s x t else (s, some (plan.2.2.2, plan.2.2.2))
    match z.2 with
    | none => collFailOwn z.1 k 6
    | some size =>
      let f := if size.2 = 0 then (z.1, some []) else collRead z.1 (cSrc d + plan.2.1) size.2
      match f.2 with
      | none => collFailOwn f.1 k 6
      | some bs =>
        let ps := if bs = [] && !v then [] else pieceList bs
        ps.foldl (fun u q => sendColl u k x t plan.1 (plan.2.2.1 + 192 * q.1) q.1 0
          (v && q.1 + 1 = ps.length) q.2 []) f.1

/-- This member sends rank `t` something before any reduction. -/
def sendsFirst (x : CSlot) (n r t : Nat) : Bool :=
  cOp x.desc = 4 || 0 < (sendPlan x n r t (0, 0)).2.2.2

/-- The next destinations in order, up to one whose GRANT is missing. -/
def pumpSends (k : Nat) : Nat → State → State
  | 0, s => s
  | fuel + 1, s =>
    match cslot s k with
    | none => s
    | some x =>
      let n := slotN s x
      let r := slotRank s x
      match (destOrder n r)[x.sent]? with
      | none => s
      | some t =>
        let go (u : State) : State := pumpSends k fuel (modCslot u k (fun y => { y with sent := y.sent + 1 }))
        if !sendsFirst x n r t then go s
        else match mget none x.grants t with
          | some b => go (sendTo s k t b)
          | none => s

/-- RESULT pieces of ALL_REDUCE, in order, up to one whose GRANT is missing. -/
def pumpResults (k : Nat) : Nat → State → State
  | 0, s => s
  | fuel + 1, s =>
    match cslot s k with
    | none => s
    | some x =>
      match x.resq with
      | [] => s
      | (t, p) :: rest =>
        match mget none x.grants t with
        | none => s
        | some b =>
          let d := x.desc
          let n := slotN s x
          let r := slotRank s x
          let f := collRead s (cDst d + r * cStride d n + 192 * p) (min 192 (chunkLen d n r - 192 * p))
          match f.2 with
          | none => collFailOwn f.1 k 6
          | some bs =>
            pumpResults k fuel (modCslot (sendColl f.1 k x t 1 (b.1 + 192 * p) p 0 false bs []) k
              (fun y => { y with resq := rest }))

/-- All that a slot can do with what it holds. -/
def pump (s : State) (k : Nat) : State :=
  match cslot s k with
  | none => s
  | some x =>
    if x.small then tryDone s k
    else
      let t := reduceReady (pumpSends k (slotN s x) s) k
      let m := match cslot t k with
        | some y => y.resq.length
        | none => 0
      tryDone (pumpResults k m t) k

/-! ## The low-latency path (R507) -/

/-- The result of a low-latency collective from every contribution, the partial saturations, and where it goes. -/
def smallResult (d : BitVec 512) (n r : Nat) (cs : List (List Byte)) : List Byte × Nat :=
  if cOp d = 0 then
    let t := rankTree d (cs.map wordsOfBytes)
    (bytesOfWords t.2.2, t.2.1)
  else if cOp d = 1 then
    let t := rankTree d (cs.map (fun c => wordsOfBytes ((c.drop (r * cBytes d)).take (cBytes d))))
    (bytesOfWords t.2.2, t.2.1)
  else if cOp d = 2 then ((List.range n).flatMap (fun i => cs.getD i []), 0)
  else (cs.getD (cRoot d) [], 0)

/-- Ranks whose contribution a member needs. -/
def smallNeeds (d : BitVec 512) (n : Nat) : List Nat := if cOp d = 5 then [cRoot d] else List.range n

/-- The member forms its result once every contribution is here. -/
def trySmall (s : State) (k : Nat) : State :=
  match cslot s k with
  | none => s
  | some x =>
    let d := x.desc
    let n := slotN s x
    if x.copied || !(smallNeeds d n).all (fun m => (mget none x.smalls m).isSome) then s
    else
      let cs := (List.range n).map (fun m => (mget none x.smalls m).getD [])
      let res := smallResult d n (slotRank s x) cs
      let f := collWrite s (cDst d) res.1
      if !f.2 then collFailOwn f.1 k 6
      else
        let y := { x with copied := true, saturated := x.saturated + res.2 }
        tryDone (setCslot f.1 k (some (if cReduces d then countSpecials d y (wordsOfBytes res.1) else y))) k

/-! ## Receiving (R491, R503, R504) -/

/-- The slot that holds an identifier. -/
def slotWith (s : State) (g q : Nat) : Option Nat :=
  (List.range 16).find? (fun k => match cslot s k with
    | some x => x.group = g && x.seq = q
    | none => false)

/-- Expected bytes of a piece, where the operation fixes them. -/
def pieceBytes (len p : Nat) : Nat := min 192 (len - 192 * p)

/-- The kind is one that the operation and the roles require, and its fields are right, but for the CRC (R503). -/
def msgOk (s : State) (x : CSlot) (kind : Nat) (m : CollMsg) : Bool :=
  let d := x.desc
  let n := slotN s x
  let r := slotRank s x
  let k := m.rank.toNat
  let member : Bool := (cgroup s x.group).members[k]? = some m.src && k ≠ r
  let p := m.piece.toNat
  let b := m.bytes.toNat
  member && !m.rsv && m.data.length = b && match kind with
    | 0 => !x.small && p < pieces (contribLen d n k r) && b = pieceBytes (contribLen d n k r) p && !m.last
        && m.landing.toNat = recvBaseFor d n k r + 192 * p && !x.gotC.contains (k, p) && m.reason = 0
    | 1 => !x.small && m.landing.toNat = dstBaseFor d n k r + 192 * p && !x.gotR.contains (k, p) && m.reason = 0
        && (if cOp d = 4 then
              192 * p + b ≤ cCap d && b % 4 = 0 && (if m.last then 0 < b || p = 0 else b = 192) && mget none x.sizes k = none
            else p < pieces (resultLen d n k r) && b = pieceBytes (resultLen d n k r) p && !m.last)
    | 2 => x.small && (cOp d ≠ 5 || k = cRoot d) && p = 0 && b = smallBytes d n && m.landing = 0 && !m.last
        && mget none x.smalls k = none && m.reason = 0
    | 3 => !x.small && writesInto d n r k && b = 0 && p = 0 && !m.last && mget none x.grants k = none && m.reason = 0
    | 4 => r = 0 && b = 0 && p = 0 && !m.last && !x.confirms.contains k && m.reason = 0
    | 5 => k = 0 && x.state = 3 && b = 0 && p = 0 && !m.last && m.reason = 0
    | _ => b = 0 && p = 0 && !m.last

def crcFits (m : CollMsg) : Bool := m.crc = (if m.data = [] then 0 else crc32c m.data)

/-- A CONTRIB piece lands in RECV, and what it completes is reduced. -/
def takeContrib (s : State) (k : Nat) (x : CSlot) (m : CollMsg) : State :=
  let f := collWrite s m.landing.toNat m.data
  if f.2 then pump (setCslot f.1 k (some { x with gotC := x.gotC ++ [(m.rank.toNat, m.piece.toNat)] })) k
  else collFailOwn f.1 k 6

/-- The end of an ALL_TO_ALL_V part: zeros after it, and its length in AUX (R505, R506). -/
def endPart (s : State) (x : CSlot) (t sent len : Nat) : State × Bool :=
  let d := x.desc
  let n := slotN s x
  writeList s [(cDst d + sent * cCap d + len, List.replicate (cCap d - len) 0),
               (cAux d + 4 * (2 * n + t), leBytes len 4)]

/-- A RESULT piece lands in DST. -/
def takeResult (s : State) (k : Nat) (x : CSlot) (m : CollMsg) : State :=
  let f := collWrite s m.landing.toNat m.data
  let len := 192 * m.piece.toNat + m.bytes.toNat
  let g := if f.2 && m.last then endPart f.1 x m.rank.toNat m.rank.toNat len else f
  if g.2 then
    pump (setCslot g.1 k (some { x with
      gotR := x.gotR ++ [(m.rank.toNat, m.piece.toNat)]
      sizes := if m.last then mset none x.sizes m.rank.toNat (some len) else x.sizes })) k
  else collFailOwn g.1 k 6

/-- A message for an identifier that slot `k` holds. -/
def applyMsg (s : State) (k kind : Nat) (m : CollMsg) : State :=
  match cslot s k with
  | none => s
  | some x =>
    if !msgOk s x kind m then
      let t := bumpColl s 7 1
      if x.state = 3 then t else collFailOwn t k 4
    else if !crcFits m then
      let t := bumpColl s 6 1
      if x.state = 3 then t else collFailOwn t k 3
    else match kind with
      | 0 => takeContrib s k x m
      | 1 => takeResult s k x m
      | 2 => trySmall (setCslot s k (some { x with smalls := mset none x.smalls m.rank.toNat (some m.data) })) k
      | 3 => pump (setCslot s k (some { x with
          grants := mset none x.grants m.rank.toNat (some (m.dstBase.toNat, m.recvBase.toNat)) })) k
      | 4 => pump (setCslot s k (some { x with confirms := x.confirms ++ [m.rank.toNat] })) k
      | 5 => collSettle s k
      | _ => collFail (bumpColl s 5 1) k m.reason.toNat m.rank.toNat true false

/-! ## The early store (R491, R492) -/

def sameEarly (m : CollMsg) (e : Early) : Bool := e.sender = m.src && e.group = m.group.toNat && e.seq = m.seq.toNat

/-- A record with the message added; a POISON replaces its contents. -/
def earlyWith (kind : Nat) (m : CollMsg) (e : Early) : Early :=
  match kind with
  | 2 => { e with small := some m }
  | 3 => { e with grant := some m }
  | 4 => { e with confirm := some m }
  | _ => { e with grant := none, small := none, confirm := none, poison := some m }

/-- An early message is held, or discarded when the store is full. -/
def holdEarly (s : State) (kind : Nat) (m : CollMsg) : State :=
  let put (l : List Early) : State := { s with coll := { s.coll with early := l } }
  match s.coll.early.find? (sameEarly m) with
  | some e =>
    if e.poison ≠ none then s
    else put (s.coll.early.filter (fun f => !sameEarly m f) ++ [earlyWith kind m e])
  | none =>
    if s.coll.early.length ≥ 65536 then
      raise (bumpColl s 9 1) 0xC1 0 0 (m.group.toNat * 2 ^ 24 + m.seq.toNat + m.src.toNat * 2 ^ 32)
    else put (s.coll.early ++ [earlyWith kind m { sender := m.src, group := m.group.toNat, seq := m.seq.toNat }])

/-- The messages of a record. -/
def earlyMsgs (e : Early) : List (Nat × CollMsg) :=
  (e.poison.toList.map (fun m => (6, m))) ++ (e.grant.toList.map (fun m => (3, m)))
    ++ (e.small.toList.map (fun m => (2, m))) ++ (e.confirm.toList.map (fun m => (4, m)))

/-- The identifier has been taken: what was held for it is applied. -/
def applyEarly (s : State) (k : Nat) (x : CSlot) : State :=
  let mine := s.coll.early.filter (fun e => e.group = x.group && e.seq = x.seq)
  let t : State := { s with coll := { s.coll with early := s.coll.early.filter (fun e => !(e.group = x.group && e.seq = x.seq)) } }
  let poisons := mine.flatMap (fun e => e.poison.toList.map (fun m => (6, m)))
  (poisons ++ mine.flatMap earlyMsgs).foldl (fun u q => applyMsg u k q.1 q.2) t

/-- The packet leaves the unit's input. -/
def takeInbox (s : State) (kind : Nat) (m : CollMsg) : State :=
  let same (q : SPkt) : Bool :=
    let h := (q.data.headD 0).toNat
    fld q.hdr.toNat 47 17 = m.src.toNat && fld h 44 4 = kind && fld h 0 32 = m.group.toNat * 2 ^ 24 + m.seq.toNat
      && fld h 72 24 = m.piece.toNat
  match s.coll.inbox.find? same with
  | some q => { s with coll := { s.coll with inbox := s.coll.inbox.erase q } }
  | none => s

/-- The message finds its slot, the early store, or nothing (R491). -/
def placeMsg (kind : Nat) (m : CollMsg) (s : State) : State :=
  match slotWith s m.group.toNat m.seq.toNat with
    | some k => applyMsg s k kind m
    | none =>
      if (m.seq.toNat + 2 ^ 24 - (cgroup s m.group.toNat).nextSeq) % 2 ^ 24 < 2 ^ 23 then
        if kind = 0 || kind = 1 || kind = 5 then bumpColl s 7 1 else holdEarly s kind m
      else bumpColl s 8 1

/-- A message reaches the unit; it waits there while an access that it asks for is held. -/
def collMsg (kind : Nat) (m : CollMsg) (s0 : State) : State :=
  let s : State := { takeInbox s0 kind m with coll := { (takeInbox s0 kind m).coll with waiting := s0.coll.waiting.erase (kind, m) } }
  if !s0.pins.porst then s0
  else collTry s (placeMsg kind m) (fun t => { t with coll := { t.coll with waiting := t.coll.waiting ++ [(kind, m)] } })

/-- CONTRIB. -/
def execContrib (m : CollMsg) (s : State) : Out := .next (collMsg 0 m s)
/-- RESULT. -/
def execResult (m : CollMsg) (s : State) : Out := .next (collMsg 1 m s)
/-- SMALL. -/
def execSmall (m : CollMsg) (s : State) : Out := .next (collMsg 2 m s)
/-- GRANT. -/
def execGrant (m : CollMsg) (s : State) : Out := .next (collMsg 3 m s)
/-- CONFIRM. -/
def execConfirm (m : CollMsg) (s : State) : Out := .next (collMsg 4 m s)
/-- SETTLE. -/
def execSettle (m : CollMsg) (s : State) : Out := .next (collMsg 5 m s)
/-- POISON. -/
def execPoison (m : CollMsg) (s : State) : Out := .next (collMsg 6 m s)

/-- A NAK for a COLL request of slot tag[14:11] fails its collective (R504). -/
def collNak (s : State) (tag : Nat) : State :=
  let k := tag / 2 ^ 11 % 16
  match cslot s k with
  | some x => if x.seq % 2 ^ 11 = tag % 2 ^ 11 && x.state ≠ 3 then collFailOwn s k 5 else s
  | none => s

/-- The tag of a NAK names a collective in a slot. -/
def collTagged (s : State) (tag : Nat) : Bool :=
  match cslot s (tag / 2 ^ 11 % 16) with
  | some x => x.seq % 2 ^ 11 = tag % 2 ^ 11
  | none => false

/-! ## POST_TAKE (R484, R489, R490, R495, R496, R507) -/

/-- The own part goes from SRC to DST (R495); ALL_TO_ALL_V also records lengths and drops (R505, R506). -/
def copyOwn (s : State) (k : Nat) : State :=
  match cslot s k with
  | none => s
  | some x =>
    let d := x.desc
    let n := slotN s x
    let r := slotRank s x
    let mark (u : State) : State := modCslot u k (fun y => { y with copied := true })
    let move (src dst len : Nat) (u : State) : State :=
      let f := collRead u src len
      match f.2 with
      | none => collFailOwn f.1 k 6
      | some bs =>
        let g := collWrite f.1 dst bs
        if g.2 then mark g.1 else collFailOwn g.1 k 6
    match cOp d with
    | 2 => move (cSrc d) (cDst d + r * cBytes d) (cBytes d) s
    | 3 => move (cSrc d + r * cBytes d) (cDst d + r * cBytes d) (cBytes d) s
    | 4 =>
      let f := collRead s (cAux d) (4 * n)
      match f.2 with
      | none => collFailOwn f.1 k 6
      | some bs =>
        let sizes := (wordsOfBytes bs).map (fun w => w.toNat)
        let lens := sizes.map (fun z => min (z / 4 * 4) (cCap d))
        let drops := List.zipWith (fun z l => z - l) sizes lens
        let mine := lens.getD r 0
        let g := writeList f.1 [(cAux d + 4 * n, drops.flatMap (fun z => leBytes z 4))]
        let h := if g.2 then endPart g.1 x r r mine else g
        if !h.2 then collFailOwn h.1 k 6
        else
          let u := bumpColl (modCslot h.1 k (fun y => { y with dropped := drops.sum })) 10 drops.sum
          if mine = 0 then mark u else move (cSrc d + r * cCap d) (cDst d + r * cCap d) mine u
    | 5 => if r = cRoot d then move (cSrc d) (cDst d) (cBytes d) s else mark s
    | _ => mark s

/-- GRANTs to every member that writes into this one (R496, R501). -/
def sendGrants (s : State) (k : Nat) (x : CSlot) : State :=
  let d := x.desc
  let n := slotN s x
  let r := slotRank s x
  ((destOrder n r).filter (fun m => writesInto d n m r)).foldl (fun u m =>
    sendColl u k x m 3 0 0 0 false [] [BitVec.ofNat 128 (dstBaseFor d n m r * 2 ^ 64 + recvBaseFor d n m r)]) s

/-- The own contribution goes to every other member as one SMALL (R507). -/
def sendSmalls (s : State) (k : Nat) (x : CSlot) : State :=
  let d := x.desc
  let n := slotN s x
  let r := slotRank s x
  if cOp d = 5 && r ≠ cRoot d then s
  else
    let f := collRead s (cSrc d) (smallBytes d n)
    match f.2 with
    | none => collFailOwn f.1 k 6
    | some bs =>
      let y := { x with smalls := mset none x.smalls r (some bs) }
      trySmall ((destOrder n r).foldl (fun u t => sendColl u k y t 2 0 0 0 false bs []) (setCslot f.1 k (some y))) k

/-- A descriptor is taken into slot `k` as post `p`. -/
def takePost (s : State) (k p : Nat) (d : BitVec 512) : State :=
  let g := cGroupNo d
  let gr := cgroup s g
  let n := gr.members.length
  let s1 := bumpColl { s with coll := { s.coll with posts := p + 1 } } 0 1
  let x : CSlot := { desc := d, group := g, seq := gr.nextSeq, post := p, takenAt := s.clk.us }
  if n = 0 then
    let t := failCounters s1 k x 2 2 0 (g * 2 ^ 24 + 0xFFFFFF)
    raise (bumpColl t 3 1) 0xC2 k 2 (g * 2 ^ 24 + 0xFFFFFF)
  else
    let s2 : State := { s1 with coll := { s1.coll with
      groups := mset {} s1.coll.groups g { gr with nextSeq := (gr.nextSeq + 1) % 2 ^ 24 } } }
    let y := { x with small := isSmall d n }
    let s3 := setCslot s2 k (some y)
    if collBad d n gr.rank || hasDefect s 10 1 then collFailOwn s3 k 1
    else
      let s4 := if y.small then sendSmalls s3 k y else pump (copyOwn (sendGrants s3 k y) k) k
      match cslot s4 k with
      | some z => if z.seq = x.seq && z.group = g then applyEarly s4 k z else s4
      | none => { s4 with coll := { s4.coll with early := s4.coll.early.filter (fun e => !(e.group = g && e.seq = x.seq)) } }

/-- POST_TAKE: the next post, when its counter has passed it and a slot is free. -/
def execPostTake (s : State) : Out :=
  .next (
    let ring := odNat s 0x600001
    let gc := odNat s 0x600002
    let p := s.coll.posts
    match (List.range 16).find? (fun k => cslot s k = none) with
    | none => s
    | some k =>
      if s.boot.phase ≠ .compute || ring = 0xFFFFFFFFFFFFFFFF || gc = 0xFFFF || (gcGet s gc).toNat ≤ p then s
      else collTry s (fun t =>
        let f := collRead t (ring + 64 * (p % 16)) 64
        match f.2 with
        | none => f.1
        | some bs => takePost f.1 k p (BitVec.ofNat 512 (ofLe bs))) id)

/-! ## Timeouts (R515, R518) -/

/-- COLL_TIMEOUT: no settle within coll_timeout of take. -/
def execCollTimeout (slot : Nat) (s : State) : Out :=
  .next (
    match cslot s slot with
    | some x => if x.state ≠ 3 && x.takenAt + odNat s 0x600004 ≤ s.clk.us then collTry s (fun t => collFailOwn t slot 7) id else s
    | none => s)

/-- SETTLE_LOST: nothing heard within coll_timeout of CONFIRM; the slot is freed as unsettled, after a crown reset without writes
(R517, R518). -/
def execSettleLost (slot : Nat) (s : State) : Out :=
  .next (
    match cslot s slot with
    | some x =>
      if x.state = 3 && x.confirmedAt + odNat s 0x600004 ≤ s.clk.us then
        collTry s (fun s =>
          let t := bumpColl (setCslot s slot none) 11 1
          let u := raise (if x.crownReset then t else putCollRecord t slot x 3 9 0 (collId x)) 0xC0 slot 9 (collId x)
          if x.crownReset then u else collGc (faultGc u) (cSettledGc x.desc)) id
      else s
    | none => s)

end Sys2Proof.Machine
end

