-- ==== Sys2Proof/Machine/LeafEvents.lean ====
section
/-! DEFINITION. Events of a leaf beside its instructions: sends held behind a GFINC, waits on the sync hub, drains,
deposits, canopy landings, scoreboard releases, cache fills and re-runs (R95, R102 to R108, R125, R128, R131, R152, R153,
R161, R164, R169, R301, R315, R378, R382 to R386). -/
namespace Sys2Proof.Machine

/-! ## Held sends (R378) -/

/-- The response timeout counts from the send, with the value it then has (R367, R368). -/
def stampSend (s : State) (l : Nat) (tag : BitVec 15) : State :=
  modLeaf s l (fun x => { x with
    rem := x.rem.map (fun r => if r.tag = tag then { r with sentAt := s.clk.cclk, timeout := odNat s 0x304001 } else r)
    loads := x.loads.map (fun p => if p.tag = tag then { p with sentAt := s.clk.cclk, timeout := odNat s 0x304001 } else p) })

/-- Held sends leave in order up to the first that still waits: a GFINC for its writes, an increment for a window change (R144,
R378). -/
def releaseSends (l : Nat) (s : State) : List HeldSend → State × List HeldSend
  | [] => (s, [])
  | h :: r =>
    let waits : Bool := match h.fence with
      | some chip => fenceHolds (leafOf s l) chip (msgTag h.msg)
      | none => false
    if waits || (isIncr h.msg && windowsLate s l) then (s, h :: r)
    else releaseSends l (launch (stampSend s l (msgTag h.msg)) h.msg) r

/-- The leaf's held sends that need wait no longer leave. -/
def sendHeld (s : State) (l : Nat) : State :=
  let r := releaseSends l s (leafOf s l).heldSends
  modLeaf r.1 l (fun x => { x with heldSends := r.2 })

/-- GFINC_LEAVES. -/
def execGfincLeaves (l : Nat) (s : State) : Out :=
  .next (if crownRuns s then sendHeld s l else s)

/-! ## Waits on global counters (R383 to R386) -/

/-- WATCH: held at the hub, or satisfied in the cycle it arrives. -/
def execWatch (l : Nat) (s : State) : Out :=
  .next (
    let x := leafOf s l
    match x.toHub with
    | .watch g e :: r =>
      let t := setLeaf s l { x with toHub := r, watch := some (g, e) }
      satisfyWatches t g
    | _ => s)

/-- CANCEL: the watch goes, VALUE comes back. -/
def execCancel (l : Nat) (s : State) : Out :=
  .next (
    let x := leafOf s l
    match x.toHub with
    | .cancel g :: r => setLeaf s l { x with toHub := r, watch := none, fromHub := x.fromHub ++ [.value (gcGet s g)] }
    | _ => s)

/-- The cycle is no later than the deadline. -/
def inTime (w : Wait) (c : Nat) : Bool :=
  match w.deadline with
  | some d => c ≤ d
  | none => true

/-- SATISFY: completes the GWAIT up to its deadline, or is discarded. -/
def execSatisfy (l : Nat) (s : State) : Out :=
  .next (
    let x := leafOf s l
    match x.fromHub with
    | .satisfy v :: r =>
      let y : Leaf := { x with fromHub := r }
      match x.wait with
      | some w =>
        if !w.loc && !w.cancelling && inTime w s.clk.cclk then setLeaf s l (endWait y w v true (leafNow s x)) else setLeaf s l y
      | none => setLeaf s l y
    | _ => s)

/-- VALUE: completes the cancelled GWAIT as timed out. -/
def execValue (l : Nat) (s : State) : Out :=
  .next (
    let x := leafOf s l
    match x.fromHub with
    | .value v :: r =>
      let y : Leaf := { x with fromHub := r }
      match x.wait with
      | some w => if w.cancelling then setLeaf s l (endWait y w v false (leafNow s x)) else setLeaf s l y
      | none => setLeaf s l y
    | _ => s)

/-- An LCWAIT ends in the first cycle in which its counter shows what it expects (R375, R382). -/
def wakeLocal (s : State) (l : Nat) : State :=
  let x := leafOf s l
  match x.wait with
  | some w =>
    if w.loc && inTime w s.clk.cclk && decide (w.expected.toNat ≤ (lcSeen x w.n).toNat) then
      setLeaf s l (endWait x w (lcSeen x w.n) true (leafNow s x))
    else s
  | none => s

/-- WAIT_TIMEOUT: an LCWAIT ends in its deadline's cycle; a GWAIT sends CANCEL in the cycle after it (R382, R385, R386). -/
def execWaitTimeout (l : Nat) (s : State) : Out :=
  .next (
    let x := leafOf s l
    match x.wait with
    | some w =>
      match w.deadline with
      | some d =>
        if !crownRuns s then s
        else if w.loc then
          if d ≤ s.clk.cclk then
            setLeaf s l (endWait x w (lcSeen x w.n) (w.expected.toNat ≤ (lcSeen x w.n).toNat) (leafNow s x))
          else s
        else if d < s.clk.cclk && !w.cancelling then
          setLeaf s l { x with wait := some { w with cancelling := true }, toHub := x.toHub ++ [.cancel w.n] }
        else s
      | none => s
    | none => s)

/-! ## Scratchpad (R123 to R135, R153) -/

/-- GATHER_DRAIN: an entry that requests its drain is granted it (R123, R131). -/
def execGatherDrain (l : Nat) (row : Nat) (s : State) : Out :=
  .next (if crownRuns s then drainAsk s l row else s)

/-- A slot-B write that overlaps a scoreboard entry proceeds and is reported (R152). -/
def overlapCheck (s : State) (l word n : Nat) : State :=
  if (leafOf s l).sb.any (fun e => e.lo ≤ word + n - 1 && word ≤ e.hi) then
    raise (bumpLeaf s l 9 1) 0x22 l 0 (4 * word)
  else s

/-- The slot-B write of one deposit; a spill write overlaps nothing that counts (R349). -/
def writeDeposit (s : State) (l : Nat) (d : Deposit) : State :=
  let t := if d.settled then s else slotB s l d.word d.vals
  modLeaf (if d.spill then t else overlapCheck t l d.word d.vals.length) l (fun x =>
    { x with deposits := x.deposits.map (fun k => if k = d then { k with settled := true, written := true } else k) })

/-- A deposit whose bank cycle is this one (R125). -/
def depositNow (now : Nat) (d : Deposit) : Bool := !d.written && d.at_ + 2 = now

/-- DEPOSIT_WRITE: the oldest deposit whose bank cycle this is, two cycles after its arrival (R125, R284). -/
def execDepositWrite (l : Nat) (s : State) : Out :=
  .next (
    match (leafOf s l).deposits.find? (depositNow s.clk.cclk) with
    | some d => if crownRuns s then writeDeposit s l d else s
    | none => s)

/-- CANOPY_LANDING_WRITE: the oldest landing row, when no deposit of this cycle wants its bank; a row of the cache is dropped, and
a leaf fenced meanwhile lands nothing (R128, R161, R311, R315). -/
def execCanopyLandingWrite (l : Nat) (s : State) : Out :=
  .next (
    let x := leafOf s l
    match x.landing with
    | e :: r =>
      let busy := x.deposits.any (fun d => d.at_ + 2 = s.clk.cclk && d.word / 16 % 16 = e.row % 16)
      if !crownRuns s || busy || x.landAt = s.clk.cclk + 1 then s
      else
        let t := setLeaf s l { x with landing := r, landAt := s.clk.cclk + 1 }
        if leafFenced s l then t
        else
          let u := if e.row ≥ usableRows x then bumpLeaf t l 10 1
            else slotB (overlapCheck t l (e.row * 16) 16) l (e.row * 16) e.data
          match e.cnt with
          | some k => lcInc u l k 1
          | none => u
    | [] => s)

/-- SCOREBOARD_RELEASE: entries whose last bank access is made are released; a held instruction may proceed (R151, R153). -/
def execScoreboardRelease (l : Nat) (s : State) : Out :=
  .next (modLeaf s l (fun x => { sbFreeDue x s.clk.cclk with
    stall := if x.stall = some .scoreboard then none else x.stall }))

/-! ## Cache fills (R161, R164 to R166, R169) -/

/-- A read of the line's poisoned word waits for RE_RUN. -/
def fillError (x : Leaf) (pc at_ : Nat) : Leaf :=
  { x with errs := x.errs ++ [{ poison := true, pc := pc, at_ := at_ }] }

/-- One waiting access is served from the filled line, in CCLK cycle `c` and core cycle `t`. -/
def serveMiss (c t : Nat) (p : Leaf × CLine) (m : CMiss) : Leaf × CLine :=
  match m.store with
  | some v => ({ p.1 with rem := p.1.rem.filter (fun r => r.tag ≠ m.tag) }, storeWord p.2 m.w v)
  | none =>
    if p.2.poison.getLsbD m.w then (fillError p.1 m.pc c, p.2)
    else (writeS p.1 m.d (lane p.2.data m.w) t 1, p.2)

/-- A fill that the column refuses: a waiting load faults, a waiting store is refused (R96, R98). -/
def fillRefused (s : State) (l : Nat) (code : Nat) (m : CMiss) : State :=
  match m.store with
  | some _ => modLeaf s l (fun x => remRefuse { x with rem := x.rem.filter (fun r => r.tag ≠ m.tag) } code)
  | none => if (leafOf s l).run = .running then leafFault s l 0x0F m.pc 0 else s

/-- The waiting accesses of one line, served from its fill; a line that an RSTV has allocated meanwhile is newer than
the stores that wait. -/
def fillLine (s : State) (l : Nat) (line : Nat) (ms : List CMiss) (data : Lanes) (bad : Bool) : State :=
  let c : CLine := { line := line, dirty := false, data := data, poison := if bad then 0xFFFF else 0 }
  let s1 := if (findLine (leafOf s l) line).isSome then s else evictFor s l line
  let x := leafOf s1 l
  let r := ms.foldl (serveMiss s.clk.cclk (leafNow s x)) (x, c)
  let y := if (findLine x line).isSome then r.1 else touchLine r.1 r.2
  let drop := y.errs.length > x.errs.length && !r.2.dirty
  setLeaf s1 l (if drop then { y with cache := { y.cache with lines := y.cache.lines.filter (fun e => e.line ≠ line) } } else y)

/-- CACHE_FILL: the oldest missing line comes from its column, in a data slot of it and behind its own write-back (R164, R166, R406,
R423). -/
def execCacheFill (l : Nat) (check : LineCheck) (s : State) : Out :=
  .next (
    let x := leafOf s l
    match x.cache.misses with
    | m :: _ =>
      let ms := x.cache.misses.filter (fun k => k.line = m.line)
      let off := m.line * 64
      let t := setLeaf s l { x with cache := { x.cache with misses := x.cache.misses.filter (fun k => k.line ≠ m.line) } }
      if !crownRuns s || x.rem.any (fun r => r.wb && offOf r.addr / 64 = m.line)
          || lineAhead s (off / 0x80000000) (off % 0x80000000 / 64) 64 then s
      else match accessCode s off 64 false false with
        | some code => ms.foldl (fun u k => fillRefused u l code k) t
        | none =>
          let c := off / 0x80000000
          let line := off % 0x80000000 / 64
          let a := askSlot s c (0x1000 + l) 0 [line] false
          if !a.1 then a.2
          else
            let f := lineFetch (bumpCol (modLeaf a.2 l (fun y => { y with cache := { y.cache with
              misses := y.cache.misses.filter (fun k => k.line ≠ m.line) } })) c 3 1) c line check
            fillLine f.1 l m.line ms (wordsOfBytes f.2.1) (badRead f.2.2)
    | [] => s)

/-! ## Re-runs (R102 to R108, R301) -/

/-- The leaf at its shadow set, to issue again from core cycle `c` on: everything issued after STEP.BEGIN is discarded but its
effects, posts and counts. -/
def restoreShadow (x : Leaf) (sh : Shadow) (c : Nat) (parity : Bool) : Leaf :=
  { x with
    sregs := sh.sregs, vregs := sh.vregs, preds := sh.preds, masks := sh.masks, loops := sh.loops, ags := sh.ags,
    rm := sh.rm, vstat := sh.vstat, pc := sh.pc
    queues := mmap {} x.queues (fun _ q => { q with ret := 0 })
    readyAt := [], fpFree := 0, nextIssue := c, errs := [], stall := none, idx := dropIdx x.idx
    loads := x.loads.map (fun p => { p with d := 0, pair := false, dropped := true })
    cache := { x.cache with misses := x.cache.misses.filter (fun m => m.store ≠ none) }
    toHub := if x.wait = none then x.toHub else []
    fromHub := if x.wait = none then x.fromHub else []
    watch := if x.wait = none then x.watch else none
    wait := none
    reruns := x.reruns + 1, rerunTotal := sat32 (x.rerunTotal + 1)
    step := { x.step with seen := 0, postIx := 0, insns := 0, cycles := c, reached := 0, loadAt := 0, parity := parity } }

/-- A step that has used a timed queue or port holds its member from the detection, in core cycle `c` (R301). -/
def holdMember (x : Leaf) (c : Nat) (old : StepSt) : Leaf :=
  if x.sw.running && old.timedUse && !x.sw.held then
    { x with sw := { x.sw with held := true }, step := { x.step with recorded := some (old.insns, c - old.cycles) } }
  else x

/-- The error belongs to the step in progress: a load's always, a post's where that step holds the post (R265, R411; DESIGN
CHOICE, log 129). -/
def stepOwns (x : Leaf) (e : ErrRec) : Bool :=
  match e.post with
  | some n => x.step.posts.contains n
  | none => true

/-- RE_RUN: the errors of the earliest cycle start one re-run, or fault (R102 to R104, R113, R265). A leaf that has halted faults too
(DEDUCED, log 128). The address in the event is 0 (log 144). -/
def execReRun (l : Nat) (s : State) : Out :=
  .next (
    let x := leafOf s l
    match x.errs with
    | [] => s
    | e :: r =>
      let at_ := r.foldl (fun m k => min m k.at_) e.at_
      let now := x.errs.filter (fun k => k.at_ = at_)
      let fpc (es : List ErrRec) : Nat := ((es.head?.map (fun k => k.pc)).getD e.pc)
      if !crownRuns s || s.clk.cclk < at_ || x.run = .notStarted || x.run = .faulted then s
      else match x.step.shadow with
        | none => leafFault s l 0x0E (fpc now) 0
        | some sh =>
          let parity := x.step.parity || now.any (fun k => !k.poison)
          if now.any (fun k => !stepOwns x k) then leafFault s l 0x0E (fpc (now.filter (fun k => !stepOwns x k))) 0
          else if x.reruns ≥ 3 then leafFault s l (if parity then 0x0C else 0x0D) (fpc now) 0
          else setLeaf s l (holdMember (restoreShadow x sh (at_ - x.sw.lag + 8) parity) (at_ - x.sw.lag) x.step))

end Sys2Proof.Machine
end

