-- ==== Sys2Proof/Machine/Engine.lean ====
section
/-! DEFINITION. The bough engine: its queue, operand panels, results, status record, refusals and operand errors (R218 to R236,
R254, R256, R259 to R265). -/
namespace Sys2Proof.Machine

/-! ## Reading rows (R133, R155, R220, R230, R232) -/

/-- The state as the engine reads, with the errors it has met. -/
structure EngRead where
  s : State
  par : Bool := false
  poi : Bool := false
  deriving DecidableEq, Repr

/-- Places, bough leaf and row, of the first `n` panel rows of a stream. -/
def streamRows (leaf0 c row n : Nat) : List (Nat × Nat) :=
  (List.range n).map (fun p => (leaf0 + p % 2 ^ c, row + p / 2 ^ c))

def readEngRow (b : Nat) (r : EngRead) (jr : Nat × Nat) : EngRead × List Byte :=
  let f := slotARead r.s (boughLeaf b jr.1) (64 * jr.2) 64
  ({ s := f.1, par := r.par || f.2.2.1, poi := r.poi || f.2.2.2 }, f.2.1)

def readEngRows (b : Nat) (r : EngRead) (rows : List (Nat × Nat)) : EngRead × List Byte :=
  rows.foldl (fun acc jr =>
    let o := readEngRow b acc.1 jr
    (o.1, acc.2 ++ o.2)) (r, [])

/-! ## Operand panels (R229 to R232) -/

/-- An operand: for each of its elements the values by k, and the S8 by block. -/
structure Panel where
  vals : List (List OpV)
  scales : List (List Nat)
  deriving DecidableEq, Repr

/-- Where a panel lies: `n` elements to a K-step, stored and operand formats. -/
structure PanelAt where
  rows : List (Nat × Nat)
  srows : List (Nat × Nat)
  st : Nat
  op : Nat
  n : Nat
  blk : Nat
  deriving DecidableEq, Repr

/-- Loads a panel through the load path. -/
def loadPanel (b : Nat) (r : EngRead) (k0 : Counts) (p : PanelAt) : EngRead × Counts × Panel :=
  let data := readEngRows b r p.rows
  let sc := readEngRows b data.1 p.srows
  let w := fmtBits p.st
  let steps := (chunks (p.n * w / 8) data.2.length data.2).map ofLe
  let srows := chunks 64 sc.2.length sc.2
  let elem (e : Nat) : List (OpV × Nat) := steps.zipIdx.map (fun q =>
    let s8 := ((srows.getD (q.2 / p.blk) []).getD e 0).toNat
    loadElem p.st p.op (fmtBlock p.st && s8 = 0xFF) (fld q.1 (e * w) w))
  let es := (List.range p.n).map elem
  (sc.1, (es.flatMap (fun l => l)).foldl (fun k o => k.add o.2) k0,
   { vals := es.map (fun l => l.map Prod.fst)
     scales := (List.range p.n).map (fun e => srows.map (fun row => (row.getD e 0).toNat)) })

/-- Side of the tile: 64, or 16 in a sub-array. -/
def tileN (d : BitVec 512) : Nat := if eSplit d then 16 else 64

/-- Rows of an operand stream of the descriptor for sub-array `i`. -/
def panelRows (d : BitVec 512) (i st row leaf0 c : Nat) : List (Nat × Nat) :=
  let n := eK d * tileN d * fmtBits st / 8 / 64
  if eSplit d then streamRows i 0 row n else streamRows leaf0 c row n

def scaleRows (d : BitVec 512) (st row leaf0 c : Nat) : List (Nat × Nat) :=
  if fmtBlock st then streamRows leaf0 c row (eK d / eBlk d) else []

def panelA (d : BitVec 512) (i : Nat) : PanelAt :=
  { rows := panelRows d i (eASt d) (eARow d) (eALeaf d) (eALeaves d)
    srows := scaleRows d (eASt d) (eAsRow d) (eALeaf d) (eALeaves d)
    st := eASt d, op := eAOp d, n := tileN d, blk := eBlk d }

def panelB (d : BitVec 512) (i : Nat) : PanelAt :=
  { rows := panelRows d i (eBSt d) (eBRow d) (eBLeaf d) (eBLeaves d)
    srows := scaleRows d (eBSt d) (eBsRow d) (eBLeaf d) (eBLeaves d)
    st := eBSt d, op := eBOp d, n := tileN d, blk := eBlk d }

/-! ## Tiles as slices (R233, R256, R257) -/

/-- Rows of the result region of sub-array `i` in a format of `w` bits. -/
def resultRows (d : BitVec 512) (i w : Nat) : List (Nat × Nat) :=
  if eSplit d then streamRows i 0 (eCRow d) ((16 * 16 * w / 8 + 63) / 64)
  else streamRows (eCLeaf d) (eCLeaves d) (eCRow d) (8 * w)

/-- A tile of words from its slices: word [q][e]. -/
def tileWords (n : Nat) (bs : List Byte) : List (List Word) :=
  (chunks (4 * n) bs.length bs).map wordsOfBytes

/-- The initial accumulators by slice and element (R236). -/
def initTile (b : Nat) (d : BitVec 512) (i : Nat) (r : EngRead) : EngRead × List (List Word) :=
  let n := tileN d
  if eAcc d = 1 then
    let o := readEngRows b r (resultRows d i 32)
    (o.1, tileWords n o.2)
  else (r, List.replicate n (List.replicate n 0))

/-- The products of one sub-array: accumulators by slice and element, and the saturations counted (R241, R245, R252). -/
def mulTile (d : BitVec 512) (a b : Panel) (c0 : List (List Word)) : List (List Word) × Nat :=
  let runLen := if fmtBlock (eAOp d) then eBlk d else 16
  let cell (q e : Nat) (w : Word) : Word × Nat :=
    let m := if eCLayout d then e else q
    let n := if eCLayout d then q else e
    let va := a.vals.getD m []
    let vb := b.vals.getD n []
    if eAccInt d then
      let r := accInteger w.toInt va vb
      (BitVec.ofInt 32 r.1, r.2)
    else (epilogue (eEpi d) (BitVec.ofNat 32 (eScalar d))
      (accFloat (eAOp d) (ePasses d) runLen w va vb (a.scales.getD m []) (b.scales.getD n [])), 0)
  let rows := c0.zipIdx.map (fun line => line.1.zipIdx.map (fun w => cell line.2 w.2 w.1))
  (rows.map (fun line => line.map Prod.fst), ((rows.flatMap (fun line => line)).map Prod.snd).sum)

/-- TADD or TCVT of one pair of words, and its saturation; TCVT goes to the store path as it is (R221, R256). -/
def addCell (d : BitVec 512) (x y : Word) : Word × Nat :=
  if eOp d = 3 then (x, 0)
  else if eAccInt d then
    let r := satAdd x.toInt y.toInt
    (BitVec.ofInt 32 r.1, r.2)
  else (epilogue (eEpi d) (BitVec.ofNat 32 (eScalar d)) (addCanon x y), 0)

/-- Counts of a tile of words read through the load path. -/
def copyCounts (int : Bool) (k : Counts) (t : List (List Word)) : Counts :=
  if int then k else (t.flatMap (fun l => l)).foldl (fun c w => c.add (copyCase (f32Of w))) k

def addTile (d : BitVec 512) (x y : List (List Word)) : List (List Word) × Nat :=
  let rows := x.zipIdx.map (fun line => line.1.zipIdx.map (fun w => addCell d w.1 ((y.getD line.2 []).getD w.2 0)))
  (rows.map (fun line => line.map Prod.fst), ((rows.flatMap (fun line => line)).map Prod.snd).sum)

/-! ## Writing results (R133, R233 to R235) -/

def writeEngRow (b : Nat) (s : State) (jr : Nat × Nat) (bs : List Byte) : State :=
  slotAWrite s (boughLeaf b jr.1) (64 * jr.2) bs false

def writeEngRows (b : Nat) (s : State) (rows : List (Nat × Nat)) (bs : List Byte) : State :=
  ((rows.zip (chunks 64 bs.length bs))).foldl (fun t p => writeEngRow b t p.1 p.2) s

/-- Codes of `w` bits packed from bit 0 up, as `n` bytes. -/
def packCodes (w n : Nat) (cs : List Nat) : List Byte := leBytes (cs.foldr (fun c acc => c + 2 ^ w * acc) 0) n

/-- The store path over one tile, and its writes. -/
def storeTile (b : Nat) (d : BitVec 512) (mode i : Nat) (g : StoreSt) (s : State) (t : List (List Word)) : State × StoreSt :=
  let n := tileN d
  let c := eCFmt d
  let w := fmtBits c
  let lines := (List.range n).foldl (fun (acc : StoreSt × List (List Nat) × List (List Nat)) e =>
    let r := storeLine c (eBlk d) (eAccInt d) (eInf d) (eShift d) mode acc.1 (t.map (fun line => line.getD e 0))
    (r.1, acc.2.1 ++ [r.2.1], acc.2.2 ++ [r.2.2])) (g, [], [])
  let bytes := (List.range n).flatMap (fun q => packCodes w (n * w / 8) (lines.2.1.map (fun l => l.getD q 0)))
  let scales := if fmtBlock c then
      (List.range (n / eBlk d)).flatMap (fun k => lines.2.2.map (fun l => BitVec.ofNat 8 (l.getD k 0)))
    else []
  let s1 := writeEngRows b s (resultRows d i w) bytes
  let s2 := if fmtBlock c then writeEngRows b s1 (streamRows (eCLeaf d) (eCLeaves d) (eCsRow d) (n / eBlk d)) scales else s1
  (s2, lines.1)

/-! ## One execution -/

/-- What an execution has gathered from its operands: reads, load counts, saturations, and the tiles it will store. -/
structure EngRun where
  r : EngRead
  load : Counts := {}
  sats : Nat := 0
  tiles : List (Nat × List (List Word)) := []
  deriving DecidableEq, Repr

/-- One sub-array, or the whole tile, up to the store path (R219, R221). -/
def runTile (b : Nat) (d : BitVec 512) (x : EngRun) (i : Nat) : EngRun :=
  let res : EngRead × Counts × List (List Word) × Nat :=
    if eMM d then
      let a := loadPanel b x.r x.load (panelA d i)
      let bb := loadPanel b a.1 a.2.1 (panelB d i)
      let c := initTile b d i bb.1
      let m := mulTile d a.2.2 bb.2.2 c.2
      (c.1, bb.2.1, m.1, m.2)
    else
      let a := readEngRows b x.r (streamRows (eALeaf d) (eALeaves d) (eARow d) 256)
      let y := if eOp d = 3 then (a.1, []) else readEngRows b a.1 (streamRows (eBLeaf d) (eBLeaves d) (eBRow d) 256)
      let ta := tileWords 64 a.2
      let tb := tileWords 64 y.2
      let m := addTile d ta tb
      (y.1, copyCounts (eAccInt d) (copyCounts (eAccInt d) x.load ta) tb, m.1, m.2)
  { r := res.1, load := res.2.1, sats := x.sats + res.2.2.2, tiles := x.tiles ++ [(i, res.2.2.1)] }

/-- The rounding mode of the descriptor (R191). -/
def storeMode (s : State) (d : BitVec 512) : Nat := if eRound d = 0 then roundDefault s else eRound d

def seedInEffect (s : State) : Word :=
  match s.graft.seed with
  | some w => w
  | none => BitVec.ofNat 32 (odNat s 0x310001)

/-- The operands are read and the tiles computed (R240 to R256). -/
def runEngine (s : State) (b : Nat) (d : BitVec 512) : EngRun :=
  let subs := if eSplit d then (List.range 16).filter (fun i => bit (eSub d) i) else [0]
  subs.foldl (runTile b d) { r := { s := s } }

/-- The tiles leave through the store path, from the generator's state on (R194, R195, R233 to R235). -/
def storeTiles (s : State) (b : Nat) (d : BitVec 512) (x : Word) (ts : List (Nat × List (List Word))) : State × StoreSt :=
  ts.foldl (fun r t => storeTile b d (storeMode s d) t.1 r.2 r.1 t.2) (s, { x := x })

/-! ## Status record and completion (R224, R225, R259 to R265) -/

def statusRecord (q : EDesc) (result : Nat) (x : ERun) (k : Counts) : Nat :=
  sat16 x.nan * 2 ^ 240 + sat16 x.inf * 2 ^ 224 + sat16 x.flush * 2 ^ 208 + sat32 x.sats * 2 ^ 160
    + sat32 k.inf * 2 ^ 128 + sat32 k.nan * 2 ^ 96 + sat32 k.flush * 2 ^ 64 + sat32 k.sat * 2 ^ 32
    + result * 2 ^ 28 + fld q.bits.toNat 0 2 * 2 ^ 26 + b2n q.replay * 2 ^ 25 + q.opseq % 2 ^ 24

/-- The place of the status record in the scratchpad is one that the engine may write (R262). -/
def recordPlace (s : State) (b : Nat) (d : BitVec 512) : Bool :=
  let l := boughLeaf b (eStatLeaf d)
  eStatRow d ≠ 0 && eStatRow d < usableRows (leafOf s l) && !leafFenced s l

/-- The record goes to the scratchpad as well: with STATUS_EN, and for a refused descriptor only where R262 lets the engine
write (R260, R263; log 119). -/
def recordKept (s : State) (b : Nat) (q : EDesc) : Bool :=
  eStatEn q.bits && (q.refused = none || recordPlace s b q.bits)

/-- The record goes to the status ring, and where it is kept to the scratchpad (R260). -/
def putRecord (s : State) (b : Nat) (q : EDesc) (record : Nat) : State :=
  let s1 := modEng s b (fun e => { e with ring := mset 0 e.ring (q.opseq % 16) (BitVec.ofNat 256 record) })
  if recordKept s b q then
    slotAWrite s1 (boughLeaf b (eStatLeaf q.bits)) (64 * eStatRow q.bits + 32 * eStatHalf q.bits) (leBytes record 32) false
  else s1

/-- The post has advanced its counter. -/
def postCounted (e : Engine) (q : EDesc) : Bool := e.counted.contains (q.leaf, q.post)

/-- The counter of the descriptor advances, once for a post and its replays (R224, R225). -/
def advanceCount (s : State) (b : Nat) (q : EDesc) : State :=
  if postCounted (engOf s b) q then s
  else
    let t := modEng s b (fun e => { e with counted := if q.inStep then e.counted ++ [(q.leaf, q.post)] else e.counted })
    lcInc t (boughLeaf b (eCntLeaf q.bits)) (eCnt q.bits) 1

/-- An error of a posted operation, detected in CCLK cycle `c`, is reported to its leaf (R265, R411); where the step that posted it is
over, the leaf faults UNRECOVERED_READ for it (DESIGN CHOICE, log 129). -/
def postError (s : State) (l post fpc c : Nat) (poison : Bool) : State :=
  modLeaf s l (fun x => if x.run = .notStarted || x.run = .faulted then x
    else { x with errs := x.errs ++ [{ poison := poison, pc := fpc, at_ := c, post := some post }] })

def bumpEng (s : State) (b k : Nat) : State :=
  modEng s b (fun e => { e with counters := mmod 0 e.counters k (fun v => sat32 (v + 1)) })

/-- The scoreboard entries of the operation in some bough leaf conflict with an earlier one (R152, R223). -/
def engineHeld (s : State) (b : Nat) (q : EDesc) : Bool :=
  (List.range 16).any (fun j =>
    let x := leafOf s (boughLeaf b j)
    (x.sb.filter (fun e => e.op = eOpId q)).any (fun e => sbBefore x e.op e.lo e.hi e.w))

def engineRuns (s : State) (b : Nat) : Bool := crownRuns s && boughOk s b && !boughFenced s b

/-- The rows of intervals. -/
def rowList (ivs : List (Nat × Nat)) : List Nat := ivs.flatMap (fun p => (List.range (p.2 + 1 - p.1)).map (fun i => p.1 + i))

/-- Rows that the operation reads in bough leaf `j`: operands, and the initial accumulators (R236). -/
def readRows (d : BitVec 512) (j : Nat) : List Nat :=
  rowList (rowsA d j ++ rowsB d j ++ (if eMM d && eAcc d = 1 then rowsC d j else []))

/-- Rows that an execution writes in bough leaf `j`: results, and the status record where it is kept. -/
def writeRows (s : State) (b : Nat) (q : EDesc) (j : Nat) : List Nat :=
  rowList ((if q.refused = none then rowsC q.bits j else []) ++ (if recordKept s b q then rowsS q.bits j else []))

/-- ENGINE asks for its rows in every leaf: all are granted, or it asks again (R123, R133; log 124). -/
def engineAsk (s : State) (b : Nat) (write : Bool) (rows : Nat → List Nat) : Bool × State :=
  if (List.range 16).all (fun j => slotAWins s (boughLeaf b j) 2 (rows j) write) then
    (true, (List.range 16).foldl (fun t j => slotAGrant t (boughLeaf b j) 2 (rows j)) s)
  else (false, (List.range 16).foldl (fun t j => if rows j = [] then t else slotALose t (boughLeaf b j) 2 (rows j) write) s)

/-- Cycle in which the last of `n` rows, one a cycle from cycle `c` on, is checked (R118, R121). -/
def checkedBy (c n : Nat) : Nat := c + (n - 1) + 3

/-- The operand parts are read: their entries go the cycle after their last bank access (R151). -/
def releaseOperands (s : State) (b : Nat) (q : EDesc) : State :=
  (List.range 16).foldl (fun t j => modLeaf t (boughLeaf b j) (fun x =>
    sbDone x (eOpId q) (fun e => !e.w) (checkedBy s.clk.cclk (readRows q.bits j).length))) s

/-- ENGINE_OP_START: the queue head starts once the scoreboard and the banks let it; it reads its operands, one row a cycle in
each leaf, and reports what is wrong with them (R118, R152, R155, R158, R195, R222, R223, R264, R265; log 130). -/
def execEngineOpStart (b : Nat) (s : State) : Out :=
  .next (
    let e := engOf s b
    match e.queue with
    | q :: _ =>
      if engineRuns s b && q.refused = none && e.run = none && decide (q.at_ < s.clk.cclk) && !engineHeld s b q then
        let g := engineAsk s b false (readRows q.bits)
        if g.1 then
          let x := runEngine g.2 b q.bits
          let by_ := checkedBy s.clk.cclk ((List.range 16).foldl (fun m j => max m (readRows q.bits j).length) 0)
          let t := modEng (releaseOperands x.r.s b q) b (fun y => { y with
            sr := srStart (seedInEffect s) b q.opseq
            run := some { tiles := x.tiles, nan := x.load.nan, inf := x.load.inf, flush := x.load.flush, sats := x.sats,
                          par := x.r.par, poi := x.r.poi, readBy := by_ } })
          if x.r.par || x.r.poi then postError t q.leaf q.post q.pc by_ (!x.r.par) else t
        else g.2
      else s
    | [] => s)

/-- The result part's last access is made (R151). -/
def releaseResult (s : State) (b : Nat) (q : EDesc) : State :=
  (List.range 16).foldl (fun t j => modLeaf t (boughLeaf b j) (fun x =>
    sbDone x (eOpId q) (fun _ => true) (s.clk.cclk + 3))) s

/-- What completion does beyond the results: record, counters, counter advance unless OPERAND_ERROR (R224, R225, R259 to R265). -/
def finishEngine (s : State) (b : Nat) (q : EDesc) (x : ERun) (g : StoreSt) : State :=
  let err := x.par || x.poi
  let result := if err then 1 else 0
  let s1 := putRecord s b q (statusRecord q result x g.k)
  let s2 := modEng s1 b (fun e => { e with queue := e.queue.drop 1, run := none, last := result, sr := g.x })
  let s3 := bumpEng (if q.replay then bumpEng s2 b 2 else s2) b (if err then 3 else 0)
  let s4 := releaseResult s3 b q
  if err then s4 else advanceCount s4 b q

/-- ENGINE_OP_COMPLETE: the operation in progress writes its results, record and counter once its banks are granted. -/
def execEngineOpComplete (b : Nat) (s : State) : Out :=
  .next (
    let e := engOf s b
    match e.queue, e.run with
    | q :: _, some x =>
      if engineRuns s b && decide (x.readBy ≤ s.clk.cclk) then
        let a := engineAsk s b true (writeRows s b q)
        if a.1 then
          let w := storeTiles a.2 b q.bits e.sr x.tiles
          finishEngine w.1 b q x w.2
        else a.2
      else s
    | _, _ => s)

/-- ENGINE_REFUSED_AT_HEAD: the refused descriptor's record, event and counter (R263). -/
def execEngineRefusedAtHead (b : Nat) (s : State) : Out :=
  .next (
    let e := engOf s b
    match e.queue with
    | q :: _ =>
      match q.refused with
      | some c =>
        if engineRuns s b && e.run = none && decide (q.at_ < s.clk.cclk) then
          let a := engineAsk s b true (writeRows s b q)
          if a.1 then
            let s1 := putRecord a.2 b q (statusRecord q c {} {})
            let s2 := modEng s1 b (fun y => { y with queue := y.queue.drop 1, last := c })
            advanceCount (raise (if q.replay then bumpEng s2 b 2 else s2) 0x25 b c (q.opseq % 2 ^ 24)) b q
          else a.2
        else s
      | none => s
    | [] => s)

end Sys2Proof.Machine
end

