-- ==== Sys2Proof/Machine/Column.lean ====
section
/-! DEFINITION. Column controllers: DMA descriptors, lines and pieces, completion and refusal, refresh, patrol scrub, write-backs
and row retirement (R397 to R436). -/
namespace Sys2Proof.Machine

/-- The column is there: the crown runs, and its controller is not recorded as failed. -/
def colThere (s : State) (c : Nat) : Bool := crownRuns s && c < 144 && !colFailed s c

/-- The column's controller works: it is not fenced either (R429, R430, R602). -/
def colRuns (s : State) (c : Nat) : Bool := colThere s c && !colFenced s c

/-! ## Acceptance (R412 to R416, R418, R425) -/

/-- Byte ranges of the descriptor's scratchpad side: data, and index list; the Bool says that it is written. -/
def dRanges (d : BitVec 256) : List (Nat × Nat × Bool) :=
  (dSpOff d, dCount d * dElem d, !dDir d) :: (if dIndexed d then [(dIdxOff d, 4 * dN1 d, false)] else [])

/-- REFUSED_FIELD: reserved fields and the restrictions of R416 and R417. -/
def dmaBadField (p : Poster) (d : BitVec 256) : Bool :=
  let strided : Bool := dKind d = 1
  let isLeaf : Bool := match p with
    | .leaf _ _ _ _ _ _ => true
    | .net _ _ => false
  dF d 3 31 ≠ 0 || dGaddr d % 4 ≠ 0 || dSpOff d % 4 ≠ 0 || (dAcctEn d && !dDir d)
    || (isLeaf && dSpLeaf d ≠ 0)
    || (if strided then dF d 120 24 % 4 ≠ 0 || dF d 144 24 % 4 ≠ 0 || dF d 168 24 % 4 ≠ 0
        else dF d 144 24 ≠ 0 || dF d 168 24 ≠ 0 || dF d 96 12 ≠ 0 || dF d 108 12 ≠ 0)
    || (dKind d = 0 && dF d 120 24 ≠ 0)
    || (dIndexed d && (dF d 138 6 ≠ 0 || dIdxOff d % 4 ≠ 0))
    || (dKind d = 2 && dDir d) || (dKind d = 3 && !dDir d)

/-- Every byte of a physical range lies in a window that admits the origin (R418). -/
def windowsCover (s : State) (l lo n : Nat) (write : Bool) (origin : BitVec 17) : Bool :=
  (List.range ((lo + n + 63) / 64 - lo / 64)).all (fun i =>
    let a := max lo (64 * (lo / 64 + i))
    let b := min (lo + n) (64 * (lo / 64 + i) + 64)
    windowAdmits s l a (b - a) write origin)

/-- The range leaves its task window or fails R418, or reaches row 0 or a cache row. -/
def dmaBadRange (s : State) (p : Poster) (r : Nat × Nat × Bool) : Bool :=
  let lo := dBase p + r.1
  let n := r.2.1
  let x := leafOf s (dLeaf p)
  (match p with
    | .leaf _ _ _ _ _ td => r.1 + n > fld td.toNat 16 13 * 64
    | .net o l => !windowsCover s l lo n r.2.2 o)
    || lo / 64 = 0 || (lo + n - 1) / 64 ≥ usableRows x

/-- GADDR lies in the heartwood or scratchpad region of its chiplet (R45). -/
def farRegion (a : Nat) : Bool :=
  match placeOf (a % 2 ^ 47) with
  | .heartwood _ => true
  | .spad _ => true
  | _ => false

/-- RESULT of a refused descriptor, or none (R425, R427). -/
def dmaRefusal (s : State) (c : Nat) (p : Poster) (d : BitVec 256) : Option Nat :=
  if leafFenced s (dLeaf p) || colFenced s c then some 0xB
  else if dmaBadField p d then some 0x8
  else if (dRanges d).any (dmaBadRange s p) || !farRegion (dGaddr d) then some 0xA
  else none

def isLeafPost (d : DDesc) : Bool :=
  match d.poster with
  | .leaf _ _ _ _ _ _ => true
  | .net _ _ => false

/-- The post enters before the other: the earlier, or in one cycle the one from the lower leaf (R150, R414). -/
def entersBefore (a b : DDesc) : Bool := a.at_ < b.at_ || (a.at_ = b.at_ && dLeaf a.poster < dLeaf b.poster)

/-- The bough post that enters next, of those that have reached the column (R412, R414). -/
def nextPost (s : State) (x : Column) : Option DDesc :=
  (x.posts.filter (fun d => d.at_ ≤ s.clk.cclk)).foldl (fun b d => match b with
    | some k => if entersBefore d k then some d else b
    | none => some d) none

/-- The leaf's post leaves its four (R99). -/
def postAccepted (s : State) (p : Poster) : State :=
  match p with
  | .leaf l _ _ _ _ _ => modLeaf s l (fun x => { x with dposts := x.dposts - 1 })
  | .net _ _ => s

/-- A descriptor takes an entry and its DSEQ and is checked: a refused one gives up its scoreboard entries, a control-network post
takes its own now. None where it has no place yet (R148, R151, R414, R418, R425). -/
def enterPost (s : State) (c : Nat) (d : DDesc) : Option State :=
  let x := colOf s c
  let op := dOpId d.poster x.dseq
  let l := dLeaf d.poster
  let es := dmaEntries d.bits (dBase d.poster) op
  let code := dmaRefusal s c d.poster d.bits
  if x.queue.length ≥ 16 || (!isLeafPost d && code = none && sbFree (leafOf s l) < es.length) then none
  else
    let t := postAccepted (setCol s c { x with
      posts := x.posts.erase d, queue := x.queue ++ [{ d with dseq := x.dseq, refused := code }]
      dseq := x.dseq + 1 }) d.poster
    some (match code with
      | some _ => modLeaf (bumpCol t c 5 1) l (fun y => if isLeafPost d then sbRelease y op s.clk.cclk else y)
      | none => if isLeafPost d then t else addSb t l es)

/-- DMA_DESCRIPTOR_ACCEPT: the next bough post enters; a fenced column's is refused (R412, R414, R425, R427). -/
def execDmaDescriptorAccept (c : Nat) (s : State) : Out :=
  .next (
    match nextPost s (colOf s c) with
    | some d => if colThere s c then (enterPost s c d).getD s else s
    | none => s)

/-! ## DPOST request (R357, R370, R413, R414) -/

/-- Control-network descriptors in the column's queue. -/
def netPosts (x : Column) : Nat := (x.queue.filter (fun d => !isLeafPost d)).length

/-- The refusal of a DPOST request. While ready_phase is not COMPUTE R413's conditions rest on no shape, and are not evaluated. DESIGN
CHOICE, log 139: R47's list does not name them. -/
def dpostCode (s : State) (r : Req) : Option Nat :=
  let ep := r.dst
  let c := ep - 0x900
  let run := s.boot.phase = .compute
  if ep < 0x900 || 0x990 ≤ ep then some (if run && endpointOk s ep then 6 else 3)
  else if run && colFailed s c then some 3
  else if isCounter (placeOf (offOf r.addr)) || (run && (boughAt s c = none || netPosts (colOf s c) ≥ 4)) then some 6
  else if run && colFenced s c then some 7
  else if !run then some 1
  else none

/-- DPOST_REQUEST: the descriptor enters the column's queue on behalf of the origin chiplet, one in a cycle and behind the bough
posts, or is refused. -/
def execDpostRequest (r : Req) (s : State) : Out :=
  .next (
    let t := takeMsg s 6 r
    let c := r.dst - 0x900
    let bits := BitVec.ofNat 256 (ofWords ((List.range 8).map (fun i => r.data.getD i 0)))
    let l := boughLeaf ((boughAt s c).getD 0) (dSpLeaf bits)
    if overtakes s 6 r then keepMsg s 6 r
    else match admitCode s r 2 with
      | some k => refuse t r k
      | none => match dpostCode s r with
        | some k => refuse t r k
        | none =>
          if (nextPost s (colOf s c)).isSome || (colOf s c).netAt = s.clk.cclk + 1 then keepMsg s 6 r
          else match enterPost t c { bits := bits, poster := .net r.origin l, at_ := s.clk.cclk } with
            | some u => respond (modCol u c (fun x => { x with netAt := s.clk.cclk + 1 })) r 0x10 0 []
            | none => keepMsg s 6 r)

/-! ## Elements (R417, R419, R426) -/

/-- Far address of element `i` but for its index. -/
def farAddr (d : BitVec 256) (i idx : Nat) : Nat :=
  let off : Int :=
    if dKind d = 1 then
      (i % dN1 d : Nat) * dFs d 0 + (i / dN1 d % dN2 d : Nat) * dFs d 1 + (i / (dN1 d * dN2 d) : Nat) * dFs d 2
    else if dIndexed d then (idx * dElem d : Nat)
    else (i * dElem d : Nat)
  (((dGaddr d : Int) + off) % 2 ^ 64).toNat

/-- Physical scratchpad byte of offset `o` of element `i`. -/
def elemSpad (p : Poster) (d : BitVec 256) (i o : Nat) : Nat := dBase p + dSpOff d + i * dElem d + o

/-- The condition of R46, or R43, that an element's far range meets; what depends on the shape or on fences is known of this chiplet
alone. A linear element may span (R46, R426). -/
def elemCode (s : State) (far n : Nat) (write linear : Bool) : Option Nat :=
  let a : BitVec 64 := BitVec.ofNat 64 far
  let p := placeOf (offOf a)
  let q := placeOf (offOf a + n - 1)
  let own := isLocal s (chipOf a)
  let bad (k : Place) : Bool := k = .reserved || (own && (outOfShape s k || (isMirror k && mirrorObj s k = none)))
  if sourceRefused s (chipOf a) then some 2
  else if bad p || bad q then some 3
  else if p ≠ q && !isMirror p && !linear then some 4
  else if isCounter p || isCounter q then some 5
  else if denied s p false write || denied s q false write then some 6
  else if own && (placeFenced s p || placeFenced s q) then some 7
  else none

def modDescs (s : State) (c dseq : Nat) (f : DDesc → DDesc) : State :=
  modCol s c (fun x => { x with queue := x.queue.map (fun d => if d.dseq = dseq then f d else d)
                                active := x.active.map (fun d => if d.dseq = dseq then f d else d) })

def findDesc (x : Column) (dseq : Nat) : Option DDesc := (x.queue ++ x.active).find? (fun d => d.dseq = dseq)

/-- A refused element: counted once; the record takes the code of the first in element order (R426). -/
def refuseElem (s : State) (c dseq e code : Nat) : State :=
  match findDesc (colOf s c) dseq with
  | some d =>
    if d.bad.contains e then s
    else bumpCol (modDescs s c dseq (fun y => { y with
      bad := y.bad ++ [e]
      elemsRefused := y.elemsRefused + 1, firstCode := if y.bad.all (fun k => e < k) then code else y.firstCode })) c 6 1
  | none => s

/-- The descriptor goes on to its next element; after the last it leaves the queue (R414). -/
def nextElem (s : State) (c dseq : Nat) : State :=
  modCol s c (fun x =>
    let step (d : DDesc) : DDesc := { d with elem := d.elem + 1, off := 0, begun := false }
    match x.queue with
    | d :: r =>
      if d.dseq = dseq then
        let e := step d
        if e.elem ≥ dCount d.bits then { x with queue := r, active := x.active ++ [{ e with allSent := true }] }
        else { x with queue := e :: r }
      else x
    | [] => x)

/-- Words of an element wait until all its pieces have come; then they are written as their banks are granted, unless it was refused
(R123, R426). -/
def landElems (s : State) (c dseq : Nat) : State :=
  match findDesc (colOf s c) dseq with
  | none => s
  | some d =>
    let waits (e : Nat) : Bool := (d.elem = e && !d.allSent) || (colOf s c).pieces.any (fun p => p.dseq = dseq && p.elem = e)
    let l := dLeaf d.poster
    let land (r : State × List (Nat × Nat × List Byte × Bool)) (h : Nat × Nat × List Byte × Bool) :
        State × List (Nat × Nat × List Byte × Bool) :=
      if waits h.1 then (r.1, r.2 ++ [h])
      else if d.bad.contains h.1 then r
      else
        let a := slotAAsk r.1 l 3 (rowsOf h.2.1 h.2.2.1.length) true
        if a.1 then (slotAWrite a.2 l h.2.1 h.2.2.1 h.2.2.2, r.2) else (a.2, r.2 ++ [h])
    let f := d.held.foldl land (s, [])
    modDescs f.1 c dseq (fun y => { y with held := f.2 })

/-- `n` bytes of the element have gone; its end moves the descriptor on. -/
def advanceElem (s : State) (c : Nat) (d : DDesc) (n : Nat) : State :=
  if d.off + n ≥ dElem d.bits then landElems (nextElem s c d.dseq) c d.dseq
  else modDescs s c d.dseq (fun y => { y with off := y.off + n })

/-! ## LINE_LAUNCH (R403, R415, R419 to R422) -/

/-- A source word was bad: SOURCE_ERROR (R411, R419). -/
def sourceError (s : State) (c dseq : Nat) (par : Bool) : State :=
  modDescs s c dseq (fun d => { d with srcErr := true, errPoison := if d.srcErr then d.errPoison else !par })

/-- An element begins: its index word is read once its bank is granted, its far range checked. A bad index word or a refused
range ends it. -/
def beginElem (s : State) (c : Nat) (d : DDesc) : State :=
  let l := dLeaf d.poster
  let b := dBase d.poster + dIdxOff d.bits + 4 * d.elem
  let a := if dIndexed d.bits then slotAAsk s l 3 (rowsOf b 4) false else (true, s)
  let f := if dIndexed d.bits then slotARead a.2 l b 4 else (s, [], false, false)
  if !a.1 then a.2
  else if f.2.2.1 || f.2.2.2 then landElems (nextElem (sourceError f.1 c d.dseq f.2.2.1) c d.dseq) c d.dseq
  else
    let far := farAddr d.bits d.elem (ofLe f.2.1)
    match elemCode s far (dElem d.bits) (dDir d.bits) (dKind d.bits = 0) with
    | some code => landElems (nextElem (refuseElem f.1 c d.dseq d.elem code) c d.dseq) c d.dseq
    | none => modDescs f.1 c d.dseq (fun y => { y with begun := true, far := far })

/-- A line of the controller's own column is committed to the open slot with its source read, or the slot stays empty, or the line waits
(R397, R400 to R403, R420, R421, R423). -/
def launchLine (s : State) (c : Nat) (d : DDesc) (co : Nat) : State :=
  let x := colOf s c
  let line := co / 64
  let n := min (64 - co % 64) (dElem d.bits - d.off)
  let r := openSlot s
  let l := dLeaf d.poster
  let b := elemSpad d.poster d.bits d.elem d.off
  let a := if dDir d.bits then slotAAsk s l 3 (rowsOf b n) false else (true, s)
  if !slotFree s x || floorClaim s c then s
  else if bankBusy x r (bankKey line) then emptySlot s c
  else if !a.1 then a.2
  else
    let f := if dDir d.bits then slotARead a.2 l b n else (s, [], false, false)
    let bad := f.2.2.1 || f.2.2.2
    let s1 := if bad then sourceError f.1 c d.dseq f.2.2.1 else f.1
    let s2 := modCol s1 c (fun y =>
      { commitLine y r (bankKey line) (dDir d.bits && n < 64) with
        lines := y.lines ++ [{ dseq := d.dseq, elem := d.elem, off := co, len := n, spad := b, write := dDir d.bits,
                               src := f.2.1, srcBad := bad, at_ := s.clk.cclk }] })
    advanceElem (modDescs s2 c d.dseq (fun y => { y with out := y.out + 1, lastAt := some s.clk.cclk })) c d n

/-- A request of column `c` as it leaves (R354, R358, R380). -/
def colReq (s : State) (c : Nat) (d : BitVec 256) (far : Nat) (len : Nat) (data : List Word) (tag : BitVec 15) : Req :=
  let a : BitVec 64 := BitVec.ofNat 64 far
  { origin := originId s, src := 0x900 + c, dst := if isLocal s (chipOf a) then endpointOf (offOf a) else trunkEp s (0x900 + c),
    tag := tag, addr := a, acctEn := dAcctEn d, acctGc := BitVec.ofNat 12 (dAcctGc d), len := len, vc := 0, rsv := false,
    via := none, data := data }

/-- A non-home piece is sent, at most eight outstanding; one with a bad source word is not (R411, R420, R422). -/
def launchPiece (s : State) (c : Nat) (d : DDesc) : State :=
  let x := colOf s c
  let far := d.far + d.off
  let n := if far % 64 = 0 && d.off + 64 ≤ dElem d.bits then 64 else 4
  if x.pieces.length ≥ 8 then s
  else
    let l := dLeaf d.poster
    let b := elemSpad d.poster d.bits d.elem d.off
    let a := if dDir d.bits then slotAAsk s l 3 (rowsOf b n) false else (true, s)
    let f := if dDir d.bits then slotARead a.2 l b n else (s, [], false, false)
    if !a.1 then a.2
    else if f.2.2.1 || f.2.2.2 then advanceElem (sourceError f.1 c d.dseq f.2.2.1) c d n
    else
      let tag := tagFrom (x.pieces.map (fun p => p.tag)) x.nextTag
      let op : BitVec 5 := if dDir d.bits then (if n = 64 then 3 else 2) else (if n = 64 then 1 else 0)
      let r := colReq s c d.bits far (if dDir d.bits then n / 16 + b2n (n = 4) else 0) (wordsOfBytes f.2.1) tag
      let t := modCol f.1 c (fun y => { y with
        nextTag := (y.nextTag + 1) % 2 ^ 8
        pieces := y.pieces ++ [{ tag := tag, dseq := d.dseq, elem := d.elem, spad := b, len := n, write := dDir d.bits,
                                 sentAt := s.clk.cclk, timeout := odNat s 0x304001, addr := r.addr }] })
      advanceElem (launch (modDescs t c d.dseq (fun y => { y with out := y.out + 1, remote := true })) (.req op r)) c d n

/-- LINE_LAUNCH: the next element of the descriptor at the head begins, or its next line or piece goes (R403, R415). -/
def execLineLaunch (c : Nat) (s : State) : Out :=
  .next (
    match (colOf s c).queue with
    | d :: _ =>
      if !colRuns s c || d.refused ≠ none || (d.elem = 0 && d.off = 0 && !d.begun && dmaHeld s d) then s
      else if !d.begun then beginElem s c d
      else match ownOffset s c (d.far + d.off) with
        | some co => launchLine s c d co
        | none => launchPiece s c d
    | [] => s)

/-! ## LINE_COMPLETE (R404, R406, R408 to R411, R416, R421) -/

/-- What a home line found, in its descriptor's results. -/
def noteLine (d : DDesc) (corrected bad poison : Bool) : DDesc :=
  { d with out := d.out - 1, corrected := d.corrected + b2n corrected, poisoned := d.poisoned + b2n bad,
           poisonRes := d.poisonRes || poison }

/-- A read line is written into the scratchpad, its banks granted. -/
def completeRead (s : State) (c : Nat) (k : LineOp) (check : LineCheck) : State :=
  let f := lineFetch s c (k.off / 64) check
  match findDesc (colOf s c) k.dseq with
  | none => f.1
  | some d =>
    let bad := badRead f.2.2
    let l := dLeaf d.poster
    let bs := (f.2.1.drop (k.off % 64)).take k.len
    modDescs (slotAWrite f.1 l k.spad bs bad) c k.dseq (fun y => noteLine y (f.2.2 = .corrected) bad bad)

/-- Leaf and rows into which a launched line of a descriptor goes. -/
def lineRows (s : State) (c : Nat) (k : LineOp) : Option (Nat × List Nat) :=
  if k.write then none else (findDesc (colOf s c) k.dseq).map (fun d => (dLeaf d.poster, rowsOf k.spad k.len))

/-- The line's scratchpad banks are granted; a read line asks from the hundred and twelfth cycle after its launch on (R123, R405). -/
def lineAsk (s : State) (c : Nat) (k : LineOp) : Bool × State :=
  if !k.write && s.clk.cclk < k.at_ + 112 then (false, s)
  else match lineRows s c k with
    | some p => slotAAsk s p.1 3 p.2 true
    | none => (true, s)

def completeWrite (s : State) (c : Nat) (k : LineOp) (check : LineCheck) : State :=
  let line := k.off / 64
  let r := lineRead s c line check
  let f := lineWrite s c line (k.off % 64) k.src k.srcBad check
  match findDesc (colOf s c) k.dseq with
  | none => f.1
  | some d =>
    let t := modDescs f.1 c k.dseq (fun y => noteLine y (k.len < 64 && r = .corrected) f.2 (f.2 && k.len < 64 && badRead r))
    if dAcctEn d.bits then gcAdd t (dAcctGc d.bits) k.len else t

/-- LINE_COMPLETE: the oldest launched line. -/
def execLineComplete (c : Nat) (check : LineCheck) (s : State) : Out :=
  .next (
    match (colOf s c).lines with
    | k :: _ =>
      let a := lineAsk s c k
      if !colRuns s c then s
      else if !a.1 then a.2
      else
        let t := modCol a.2 c (fun x => { x with lines := x.lines.drop 1 })
        if k.write then completeWrite t c k check else completeRead t c k check
    | [] => s)

/-! ## Completion (R405, R411, R424, R427) -/

/-- Result record. -/
def dmaRecord (d : DDesc) (result : Nat) : BitVec 128 :=
  let replay : Bool := match d.poster with
    | .leaf _ _ r _ _ _ => r ≠ 0
    | .net _ _ => false
  BitVec.ofNat 128 (sat32 d.elemsRefused * 2 ^ 96 + sat32 d.poisoned * 2 ^ 64 + d.firstCode * 2 ^ 56
    + sat16 d.corrected * 2 ^ 32 + result * 2 ^ 28 + b2n replay * 2 ^ 27 + d.dseq % 2 ^ 24)

def putDmaRecord (s : State) (c : Nat) (d : DDesc) (result : Nat) : State :=
  modCol s c (fun x => { x with ring := mset 0 x.ring (d.dseq % 16) (dmaRecord d result) })

/-- The descriptor's counter advances, once for a post and its replays (R225, R424). -/
def dmaCount (s : State) (c : Nat) (d : DDesc) : State :=
  match d.poster with
  | .net _ l => if dCntEn d.bits then lcInc s l (dCnt d.bits) 1 else s
  | .leaf l post _ inStep _ _ =>
    if (colOf s c).counted.contains (l, post) then s
    else
      let t := modCol s c (fun x => { x with counted := if inStep then x.counted ++ [(l, post)] else x.counted })
      if dCntEn d.bits then lcInc t l (dCnt d.bits) 1 else t

def dmaResult (d : DDesc) : Nat :=
  if d.srcErr then 3 else if d.elemsRefused > 0 then 2 else if d.poisonRes then 1 else 0

/-- Every piece is done; with home lines alone the hundred and twentieth cycle after the last launch has come (R405). -/
def dmaDone (s : State) (d : DDesc) : Bool :=
  d.allSent && d.out = 0 && d.held = [] && (d.remote || match d.lastAt with
    | some t => t + 120 ≤ s.clk.cclk
    | none => true)

/-- What completion does: entries released, record, counter or error. -/
def finishDma (s : State) (c : Nat) (d : DDesc) : State :=
  let s1 := modCol s c (fun x => { x with active := x.active.filter (fun y => y.dseq ≠ d.dseq) })
  let s2 := modLeaf (putDmaRecord s1 c d (dmaResult d)) (dLeaf d.poster) (fun x => sbRelease x (dOpId d.poster d.dseq) s.clk.cclk)
  if d.srcErr then
    match d.poster with
    | .leaf l post _ _ pc _ => postError s2 l post pc s.clk.cclk d.errPoison
    | .net _ _ => s2
  else dmaCount s2 c d

/-- What descriptors still hold for the scratchpad asks for its banks again. -/
def landHeld (s : State) (c : Nat) : State :=
  ((colOf s c).active.filter (fun d => d.held ≠ [])).foldl (fun t d => landElems t c d.dseq) s

/-- DMA_COMPLETE: the first descriptor whose pieces are all done. -/
def execDmaComplete (c : Nat) (s : State) : Out :=
  .next (
    let t := landHeld s c
    if !colRuns s c then s
    else match (colOf t c).active.find? (dmaDone t) with
      | some d => finishDma t c d
      | none => t)

/-- DMA_REFUSED_AT_HEAD: record, counter and event (R425). -/
def execDmaRefusedAtHead (c : Nat) (s : State) : Out :=
  .next (
    match (colOf s c).queue with
    | d :: r =>
      match d.refused with
      | some code =>
        if colThere s c then
          raise (dmaCount (putDmaRecord (modCol s c (fun x => { x with queue := r })) c d code) c d) 0x85 c code (d.dseq % 2 ^ 24)
        else s
      | none => s
    | [] => s)

/-! ## Responses to pieces (R423, R426) -/

/-- A piece is answered: its data, or a NAK with its code. -/
def pieceDone (s : State) (c : Nat) (p : PieceOp) (nak : Option Nat) (data : List Word) : State :=
  let s1 := modCol s c (fun x => { x with pieces := x.pieces.filter (fun q => q.tag ≠ p.tag) })
  let s2 := modDescs s1 c p.dseq (fun d => { d with out := d.out - 1 })
  let hold (bs : List Byte) (bad : Bool) : State := modDescs s2 c p.dseq (fun d => { d with
    held := d.held ++ [(p.elem, p.spad, bs, bad)], poisoned := d.poisoned + b2n bad, poisonRes := d.poisonRes || bad })
  let s3 :=
    match nak with
    | none => if p.write then s2 else hold (bytesOfWords (data.take (p.len / 4))) false
    | some code =>
      if code = 9 && !p.write then hold (List.replicate p.len 0) true else refuseElem s2 c p.dseq p.elem code
  landElems s3 c p.dseq

/-! ## Maintenance (R398 to R402, R408, R428, R431 to R434) -/

/-- Heartwood maintenance goes on while PORST_N is high. -/
def heartLive (s : State) (c : Nat) : Bool := s.pins.porst && c < 144 && !colFailed s c

/-- Refresh of one tier in reserved slot `r`: in a free bank, or deferred, after four times in the due bank regardless. -/
def refreshTier (r : Nat) (x : Column) (t : Nat) : Column :=
  let busy (b : Nat) : Bool := x.banks.any (fun k => k.1 ≤ r + 7 && r ≤ k.1 + 7 && k.2 = t + 16 * b)
  let go : Column := { x with refreshAt := mmod 0 x.refreshAt t (fun n => (n + 1) % 65792)
                              deferred := mset 0 x.deferred t 0, forced := mset false x.forced t false }
  if mget false x.forced t then go
  else if (List.range 8).all busy then
    let n := mget 0 x.deferred t + 1
    { x with deferred := mset 0 x.deferred t n, forced := mset false x.forced t (decide (4 ≤ n)) }
  else go

/-- REFRESH: the reserved slot of the next frame that refreshes, once the seven slots after it are committed or past. -/
def execRefresh (c : Nat) (s : State) : Out :=
  .next (
    let x := colOf s c
    if !heartLive s c || committedTo s x < x.refSlot + 7 then s
    else
      let y := (List.range 16).foldl (refreshTier x.refSlot) x
      setCol s c { y with refSlot := x.refSlot + 32 })

/-- The patrol's next line is due: a pass takes the period's seconds (R432, R621). -/
def patrolDue (s : State) (x : Column) : Bool :=
  let period := (if x.fast then fastPeriod s else scrubPeriod s) * 1000000
  match x.passAt with
  | some t => if x.patrol = 0 then decide (t + period ≤ s.clk.us) else decide (x.patrol * period ≤ (s.clk.us - t) * 2 ^ 25)
  | none => true

/-- PATROL_SCRUB: the next line is read and checked in a reserved slot; at the end of a pass the next begins, and a whole pass
without a corrected error is counted (R432, R621). -/
def execPatrolScrub (c : Nat) (check : LineCheck) (s : State) : Out :=
  .next (
    let x := colOf s c
    let line := x.patrol
    match maintSlotFor s x line with
    | some r =>
      if !heartLive s c || !patrolDue s x then s
      else
        let t := noteRead (bumpCol s c 8 1) c line check
        modCol t c (fun x => { x with
          maintSlot := r, passAt := if line = 0 then some s.clk.us else x.passAt
          patrol := (line + 1) % 2 ^ 25
          passes := if line + 1 = 2 ^ 25 && x.fastClean then x.passes + 1 else x.passes
          fastClean := x.fastClean || line + 1 = 2 ^ 25 })
    | none => s)

/-- CORRECTION_WRITE_BACK: the oldest queued line is whole again, in a reserved slot (R431). -/
def execCorrectionWriteBack (c : Nat) (s : State) : Out :=
  .next (
    let x := colOf s c
    match x.writeBacks with
    | w :: rest => match maintSlotFor s x w.1 with
      | some r => if heartLive s c then
          setCol (mwrite s (lineOff c w.1) w.2) c { x with writeBacks := rest, maintSlot := r } else s
      | none => s
    | [] => s)

/-- The line that a retirement copies now. -/
def copyLine (r : Retire) : Nat := r.tier + 16 * r.bank + 128 * r.copied + 4096 * r.row

/-- The last line stands in the spare row: recorded and reported; the spare row's errors count anew (R433, R434, R576, R579). -/
def retireDone (s : State) (c : Nat) (r : Retire) : State :=
  let key := r.tier + 16 * r.bank + 128 * r.row
  let t := modCol s c (fun x => { x with
    retire := none, retired := x.retired ++ [key], rows := x.rows.filter (fun k => k.1 ≠ key) })
  let u := addDefect t { kind := 8, position := BitVec.ofNat 32 (c + r.tier * 2 ^ 8 + r.bank * 2 ^ 12 + r.row * 2 ^ 15),
                         test := 0x11, data := BitVec.ofNat 32 r.errors }
  raise u 0x82 c (r.tier + 1) (r.row + r.bank * 2 ^ 16)

/-- RETIREMENT_COPY: the next line's read, whose check finds what is open (log 137), or its write into the spare row, each in a
reserved slot. What a bad read delivers is stored poisoned there. DESIGN CHOICE, log 138: R434 does not say (R408, R409, R428). -/
def execRetirementCopy (c : Nat) (s : State) : Out :=
  .next (
    let x := colOf s c
    match x.retire with
    | none => s
    | some r => match maintSlotFor s x (copyLine r) with
      | none => s
      | some k =>
        let line := copyLine r
        let t := modCol s c (fun y => { y with maintSlot := k })
        if !heartLive s c then s
        else match r.got with
          | none =>
            let f := drawCheck t
            modCol (noteRead f.2 c line f.1) c (fun y => { y with
              retire := some { r with got := some (lineData s c line f.1, badRead (lineRead s c line f.1)) } })
          | some g =>
            let n : Retire := { r with copied := r.copied + 1, got := none }
            let u := modCol (setPoison (mwrite t (lineOff c line) g.1) c line g.2) c (fun y => { y with retire := some n })
            if n.copied = 32 then retireDone u c n else u)

end Sys2Proof.Machine
end

