-- ==== Sys2Proof/Machine/Boot.lean ====
section
/-! DEFINITION. Shared by start-up, resets and trust: the manifest check of R637, completion of commands (R555, R558),
defect-list clears and additions (R576, R580, R581), and what a crown reset clears (R372, R429, R517, R585, R586, R687). -/
namespace Sys2Proof.Machine

/-! ## Manifests (R636 to R638) -/

def manifestLen : Nat := 0x2230

def mField (m : List Byte) (o n : Nat) : Nat := ofLe ((m.drop o).take n)

def mKind (m : List Byte) : Nat := mField m 6 1
def mAuthority (m : List Byte) : Nat := mField m 7 1
def mVersion (m : List Byte) : Nat := mField m 8 4
def mSvn (m : List Byte) : Nat := mField m 0x0C 1
def mImageLen (m : List Byte) : Nat := mField m 0x18 4
def mDigest (m : List Byte) : List Byte := (m.drop 0x20).take 48
def mModulus (m : List Byte) : List Byte := (m.drop 0x50).take 384
def mPk (m : List Byte) : List Byte := (m.drop 0x1D0).take 32
def mSigned (m : List Byte) : List Byte := m.take 0x200
def mRsaSig (m : List Byte) : List Byte := (m.drop 0x200).take 384
def mSlhSig (m : List Byte) : List Byte := (m.drop 0x380).take 7856

/-- The signing authority (R631): 2 the owner, 1 the vendor. -/
def authority (s : State) : Nat := if s.fuse.ownerKeyState = 1 then 2 else 1

/-- SHA-384 of the authority's RSA modulus and SLH-DSA key (R631). -/
def keyHashes (s : State) : List Byte × List Byte :=
  if authority s = 2 then (s.fuse.ownerRsaHash, s.fuse.ownerSlhHash) else Config.vendorHashes

/-- Check 1 of R637. -/
def formatOk (m : List Byte) (kind : Nat) : Bool :=
  decide (manifestLen ≤ m.length) && mField m 0 4 = 0x4D424D59 && mField m 4 2 = 1 && mKind m = kind
    && mField m 0x0D 3 = 0 && mField m 0x1C 4 = 0 && mField m 0x1F0 16 = 0

/-- Checks 1 to 7 of R637: 0, or the REASON of the first that fails. -/
def manifestReason (s : State) (kind : Nat) (m : List Byte) : Nat :=
  let serial := mField m 0x10 8
  if !formatOk m kind then 1
  else if mAuthority m ≠ (if kind = 3 then 2 else authority s) then 2
  else if serial ≠ s.part.serial.toNat && (kind = 3 || kind = 4 || serial ≠ 0) || (serial = 0 && (kind = 3 || kind = 4)) then 3
  else if kind = 1 && mSvn m < s.fuse.secVer then 4
  else if kind ≠ 3 && (sha384 (mModulus m), sha384 (mPk m)) ≠ keyHashes s then 5
  else if !Config.rsaVerify (mModulus m) (mSigned m) (mRsaSig m) then 6
  else if !Config.slhVerify (mPk m) (mSigned m) (mSlhSig m) then 7
  else 0

/-- R637 for a manifest with an image: check 8 last. -/
def checkManifest (s : State) (kind : Nat) (m image : List Byte) : Nat :=
  let r := manifestReason s kind m
  if r ≠ 0 then r else if sha384 image ≠ mDigest m then 8 else 0

/-- Firmware as it stands in a slot or in fw_stage (R639, R643): its manifest is followed by its image. -/
def checkFirmware (s : State) (m : List Byte) : Nat :=
  checkManifest s 1 m ((m.drop manifestLen).take (mImageLen m))

/-- PAYLOAD of FW_SLOT_FALLBACK and SIGNATURE_REJECTED (R638). -/
def manifestPayload (m : List Byte) : Nat := mKind m + mAuthority m * 2 ^ 8 + mSvn m * 2 ^ 16 + mVersion m * 2 ^ 32

/-! ## Completion of commands (R555, R558) -/

/-- cmd_status of a command: [31:24] its state, [23:16] status, [15:0] SEQ. -/
def setCmdStatus (s : State) (sub st status seq : Nat) : State :=
  { s with mgmt := { s.mgmt with
      cmdStatus := mset 0 s.mgmt.cmdStatus sub (BitVec.ofNat 32 (st * 2 ^ 24 + status * 2 ^ 16 + seq)) } }

/-- The PENDING command completes: CMD_DONE and its cmd_status. -/
def finishCmd (s : State) (p : PendCmd) (status : Nat) : State :=
  let t : State := { s with mgmt := { s.mgmt with pend := none } }
  raise (setCmdStatus t p.sub 2 status p.seq.toNat) 0x04 p.sub status (p.seq.toNat + p.session.toNat * 2 ^ 16)

/-- A crown reset begins: a PENDING command other than CROWN_RESET is ABORTED (R558, R603). -/
def abortCmd (s : State) : State :=
  match s.mgmt.pend with
  | some p =>
    if p.sub = 6 then s
    else finishCmd { s with graft := { s.graft with load := none, bus := [] } } p 6
  | none => s

/-! ## Defects -/

/-- An entry with this KIND and POSITION is in the list (R576). -/
def listed (s : State) (x : Site) : Bool :=
  (s.mram.defects ++ s.boot.unlisted).any (fun d => d.kind = x.kind && d.position = x.position)

/-- A failure found by a test is appended unless it is already listed (R576). -/
def addNew (s : State) (x : Site) : State := if listed s x then s else addDefect s x

/-- The removals of DEFECT_CLEAR (R581, R585): a cleared row or module stays out until PORST_N. -/
def applyClears (s : State) (porst : Bool) : State :=
  if s.boot.clears = [] then s
  else
    let gone := s.mram.defects.filter (fun d => s.boot.clears.contains d)
    let stay := if porst then [] else gone.filter (fun d => d.kind = 7 || d.kind = 8)
    raise { s with
        mram := { s.mram with defects := s.mram.defects.filter (fun d => !s.boot.clears.contains d) }
        boot := { s.boot with clears := [], hidden := s.boot.hidden ++ stay } } 0x0C gone.length 0 0

/-- The physical bough is not disabled by a defect (R53, R577, R579). -/
def boughWorks (s : State) (p : Nat) : Bool :=
  !(effDefects s).any (fun d =>
    let q := d.position.toNat
    (d.kind = 1 && q / 192 * 12 + q % 48 / 4 = p) || ((d.kind = 2 || d.kind = 4) && q = p)
      || (d.kind = 3 && q % 256 = p))

/-! ## The governor's step at a phase (R626) -/

def stepPermitted (s : State) (k : Nat) : Bool := bit (odNat s 0x210002) k

/-- The fastest permitted step. -/
def fastestStep (s : State) : Nat := ((List.range 4).find? (stepPermitted s)).getD 3

def setStep (s : State) (k : Nat) : State :=
  { s with gov := { s.gov with step := k, vcrStep := k, change := none, decided := none, afterChange := false,
                               coolSince := none, powerSince := none } }

/-- START_TEST runs at step 0. -/
def enterStartTest (s : State) : State := setPhase (setStep s 0) .startTest

/-- On entry to COMPUTE: the fastest permitted step, or step 3 in an emergency. -/
def enterCompute (s : State) : State := setPhase (setStep s (if s.gov.emergency then 3 else fastestStep s)) .compute

/-! ## What a crown reset clears -/

/-- A line that a crown reset finds committed completes at its bank: a write is performed, a read is checked and delivers nothing; what
the check finds is open (R393, R408, R421, R429; log 137). -/
def drainLine (c : Nat) (s : State) (k : LineOp) : State :=
  if k.write && k.len = 64 then (lineWrite s c (k.off / 64) 0 k.src k.srcBad .clean).1
  else
    let f := drawCheck s
    if k.write then (lineWrite f.2 c (k.off / 64) (k.off % 64) k.src k.srcBad f.1).1 else (lineFetch f.2 c (k.off / 64) f.1).1

/-- A column controller after a crown reset: committed lines complete, maintenance goes on, the rest starts anew
(R429, R436). -/
def resetColumn (s : State) (c : Nat) : State :=
  let t := (colOf s c).lines.foldl (drainLine c) s
  modCol t c (fun x => { x with
    posts := [], queue := [], active := [], dseq := 0, counted := [], ring := [], counters := [], lines := [], pieces := [],
    nextTag := 0, served := [], floorAt := none, netAt := 0 })

/-- A collective at a crown reset: failed, or if confirmed kept without its writes (R517). -/
def resetColl (s : State) (k : Nat) : State :=
  match cslot s k with
  | none => s
  | some x =>
    if x.state = 3 then
      { s with coll := { s.coll with slots := mset none s.coll.slots k (some { x with crownReset := true }) } }
    else collFail s k 8 (slotRank s x) false true

/-- Requests from links and for the management controller stay in the network; the crown's own are gone. -/
def keepsMsg (m : NetMsg) : Bool :=
  match m with
  | .req _ r => r.via.isSome || r.dst = 0xA20
  | _ => false

/-- Values of a stored profile; none of an empty one. -/
def profileValues (s : State) (p : Nat) : SMap (List Byte) := (mget none s.mram.profiles p).getD []

/-- The profile that waits becomes active (R547, R551). -/
def applyProfile (s : State) : State :=
  if s.mgmt.profilePending = s.mgmt.profileActive then s
  else
    let keep (k : Nat) : Bool := !rwObjects.any (fun o => o.key = k && o.prof)
    raise { s with mgmt := { s.mgmt with profileActive := s.mgmt.profilePending,
                                         overlay := profileValues s s.mgmt.profilePending,
                                         rt := s.mgmt.rt.filter (fun p => keep p.1) } } 0x09 s.mgmt.profilePending 0 0

/-- The crown cleared (R57, R372, R575, R585 to R587, R651, R687). -/
def clearCrown (s : State) : State :=
  let s2 := (List.range 144).foldl resetColumn s
  { s2 with
    leaves := [], engines := [], hub := {}
    mem := zeroRange s2.mem spadBase (spadBase + 2304 * 0x40000)
    net := { s2.net with msgs := s2.net.msgs.filter keepsMsg, resps := s2.net.resps.filter (fun r => r.2.ep = 0xA40),
                         refusals := [], xtags := [], routes := 0, masks := [] }
    graft := { s2.graft with chain := List.replicate 48 0, log := [], grafts := 0, started := 0, load := none, bus := [] }
    coll := { s2.coll with posts := 0 }
    boot := { s2.boot with fencedLeaves := [], fencedBoughs := [], fencedColumns := [], fencedTrunks := [] } }

/-- A crown reset begins (R517, R558, R586, R627); the defect list loses what DEFECT_CLEAR named before it, unless it only
restarts (R581, R603). -/
def beginCrownReset (s : State) (cause : Nat) : State :=
  let t := abortCmd s
  let u := raise { t with
      boot := { t.boot with crownSeq := true, waitCrownRst := false, cause := cause, crownResets := t.boot.crownResets + 1 }
      gov := { t.gov with change := none, decided := none, afterChange := false } } 0x0E 0 cause 0
  let v := if u.boot.phase = .crownReset then u else setPhase u .crownReset
  (List.range 16).foldl resetColl (if s.boot.crownSeq then v else applyClears v false)

/-- The crown's needs of R583 have failed in a run: everything in it is fenced (R602). -/
def dropCrown (s : State) : State :=
  let all (n : Nat) : SMap Bool := (List.range n).map (fun i => (i, true))
  let t := fenceLeaves s (allLeaves s)
  setPhase { t with boot := { t.boot with crownNeeds := false, fencedBoughs := all 144, fencedColumns := all 144 } } .crownDown

end Sys2Proof.Machine
end

