-- ==== Sys2Proof/Machine/Startup.lean ====
section
/-! DEFINITION. PORST_N and what acts as it, the start-up phases, the crown-reset sequence, grid build, and failures of
units in a run (R35, R51 to R59, R547, R551, R570 to R586, R598 to R603, R626, R633, R640 to R642, R653, R673, R680). -/
namespace Sys2Proof.Machine

/-! ## PORST_N (R570, R571, R585, R673, R678, R685) -/

/-- Everything but MRAM, eFuse, the sampled straps, the pins and the test port starts anew (R585, R674). -/
def porstReset (s : State) : State :=
  { pending := s.pending
    pins := { s.pins with porst := false, ready := false, alert := true, therm := true }
    tap := s.tap, part := s.part, fuse := s.fuse, mram := s.mram
    boot := { slotId := s.boot.slotId, profSel := s.boot.profSel, clears := s.boot.clears }
    mem := s.mem, hwPoison := s.hwPoison, free := s.free }

/-- Start-up begins: PORST_N is high, and rails and REFCLK are within their limits. -/
def startUp (s : State) : State :=
  let t : State := { s with
    pins := { s.pins with porst := true }
    mram := { s.mram with bootCount := (s.mram.bootCount + 1) % 2 ^ 32
                          persisted := s.mram.persisted.map (fun e => { e with prior := true }) }
    boot := { s.boot with debugLocked := !(s.fuse.lifecycle = 1 || s.fuse.lifecycle = 4) }
    mgmt := { s.mgmt with profileActive := s.boot.profSel.toNat, profilePending := s.boot.profSel.toNat } }
  let u := applyClears t true
  if u.boot.slotId.toNat < 40 then u else raise u 0x02 u.boot.slotId.toNat 0 0

/-- Start-up begins once nothing holds the chiplet in reset. -/
def tryStart (s : State) : State :=
  if s.pins.porstPin && s.pins.railsOk && s.pins.refOk && !s.pins.porst then startUp s else s

/-- PORST_N_ASSERT. -/
def execPorstNAssert (s : State) : Out :=
  .next (let t := porstReset s
         { t with pins := { t.pins with porstPin := false } })

/-- PORST_N_RELEASE: the straps are sampled (R35, R551, R678). -/
def execPorstNRelease (slotId : BitVec 6) (profSel : BitVec 2) (s : State) : Out :=
  .next (
    if s.pins.porstPin then s
    else tryStart { s with pins := { s.pins with porstPin := true }, boot := { s.boot with slotId := slotId, profSel := profSel } })

/-- SUPPLY_FAULT: a rail outside its tolerance holds the chiplet in reset (R673). -/
def execSupplyFault (_rail : Nat) (s : State) : Out :=
  .next (let t := porstReset s
         { t with pins := { t.pins with railsOk := false } })

/-- SUPPLY_RESTORED: every rail is within its tolerance. -/
def execSupplyRestored (s : State) : Out := .next (tryStart { s with pins := { s.pins with railsOk := true } })

/-- REFCLK_LOSS: as a supply fault (R680). -/
def execRefclkLoss (s : State) : Out :=
  .next (let t := porstReset s
         { t with pins := { t.pins with refOk := false } })

/-- REFCLK_RESTORED. -/
def execRefclkRestored (s : State) : Out := .next (tryStart { s with pins := { s.pins with refOk := true } })

/-! ## Phases before the crown's (R570, R640 to R642) -/

/-- The phase runs: PORST_N is high and ready_phase shows it. -/
def inPhase (s : State) (p : Phase) : Bool := s.pins.porst && s.boot.phase = p && !s.boot.held

/-- ROM_BOOT. -/
def execRomBoot (s : State) : Out := .next (if inPhase s .romBoot then setPhase s .fwVerify else s)

def fwSlotOf (s : State) (k : Nat) : List Byte := mget [] s.mram.fwSlots k

/-- REASON with which a firmware slot fails, 0 where it passes (R637, R640). -/
def slotReason (s : State) (k : Nat) : Nat := if fwSlotOf s k = [] then 9 else checkFirmware s (fwSlotOf s k)

/-- The firmware of slot `k` starts. -/
def runFirmware (s : State) (k : Nat) : State :=
  let m := fwSlotOf s k
  setPhase { s with boot := { s.boot with fwSlot := k, fwVersion := BitVec.ofNat 32 (mVersion m), fwSvn := mSvn m,
                                          fwManifest := mSigned m } } .odAssembly

/-- FW_VERIFY: the preferred slot, else the other, else the recovery dictionary (R640, R641). -/
def execFwVerify (s : State) : Out :=
  .next (
    if !inPhase s .fwVerify then s
    else
      let k := s.mram.preferred
      let r := slotReason s k
      if r = 0 then runFirmware s k
      else
        let t := raise s 0x03 k r (manifestPayload (fwSlotOf s k) + (1 - k) * 2 ^ 64)
        if slotReason s (1 - k) = 0 then runFirmware t (1 - k)
        else setPhase { t with boot := { t.boot with recovery := true } } .odAssembly)

/-- OD_ASSEMBLY: the layers, the security-version fuses; start-up stops here without firmware, with a strap above 39 and
in RETIRED (R35, R546, R633, R641, R642). -/
def execOdAssembly (s : State) : Out :=
  .next (
    if !inPhase s .odAssembly then s
    else
      let t : State := { s with
        mgmt := { s.mgmt with nv := if s.boot.recovery then [] else s.mram.nvImage }
        fuse := { s.fuse with secVer := max s.fuse.secVer s.boot.fwSvn } }
      if s.boot.recovery || s.boot.slotId.toNat ≥ 40 || s.fuse.lifecycle = 5 then
        { t with boot := { t.boot with held := true } }
      else setPhase t .profileApply)

/-- PROFILE_APPLY: the strapped profile is active; every port leaves RESET for its first training (R466, R551, R573). -/
def execProfileApply (s : State) : Out :=
  .next (
    if !inPhase s .profileApply then s
    else
      let t : State := { s with mgmt := { s.mgmt with profileActive := s.boot.profSel.toNat
                                                      overlay := profileValues s s.boot.profSel.toNat } }
      setPhase ((List.range 4).foldl (fun u p => modPort u p (fun x => { x with state := 1, since := u.clk.us })) t) .calibration)

/-- CALIBRATION: what its items find is recorded (R573). -/
def execCalibration (found : List Site) (s : State) : Out :=
  .next (
    if !inPhase s .calibration then s
    else
      setPhase ((found.filter (fun x => [6, 9, 10, 12, 13].contains x.test.toNat)).foldl addNew s) .memoryInit)

/-! ## MEMORY_INIT (R434, R575, R579) -/

/-- Spare rows in use in a bank of a column, keyed as the column keys them. -/
def spareKey (pos : Nat) : Nat := pos / 2 ^ 8 % 16 + 16 * (pos / 2 ^ 12 % 8)

/-- The row of a HW_ROW position uses a spare row of its bank. -/
def useSpare (s : State) (pos : Nat) : State :=
  modCol s (pos % 256) (fun x => { x with
    retired := x.retired ++ [spareKey pos + 128 * (pos / 2 ^ 15)], spares := mmod 0 x.spares (spareKey pos) (fun n => n + 1) })

/-- A row that fails the march with correctable errors is retired, if its bank has a spare. -/
def marchRetire (s : State) (x : Site) : State :=
  let pos := x.position.toNat
  if x.kind ≠ 8 || hasDefect s 8 pos then s
  else if 32 ≤ mget 0 (colOf s (pos % 256)).spares (spareKey pos) then
    raise s 0x83 (pos % 256) (pos / 2 ^ 8 % 16 + 1) (pos / 2 ^ 12 % 8 * 2 ^ 16)
  else
    raise (addNew (useSpare s pos) { x with test := 0x11 }) 0x82 (pos % 256) (pos / 2 ^ 8 % 16 + 1)
      (pos / 2 ^ 15 % 2 ^ 13 + pos / 2 ^ 12 % 8 * 2 ^ 16)

/-- MEMORY_INIT: every line and word zero and whole, listed rows on their spares, new ones retired; CROWN_RST_N low holds
start-up after it (R572, R575). -/
def execMemoryInit (retire found : List Site) (s : State) : Out :=
  .next (
    if !inPhase s .memoryInit then s
    else
      let t : State := { s with
        mem := zeroRange s.mem 0 (spadBase + 2304 * 0x40000), hwPoison := [], leaves := [], columns := [] }
      let rows := (effDefects t).filter (fun d => d.kind = 8)
      let u := retire.foldl marchRetire (rows.foldl (fun v d => useSpare v d.position.toNat) t)
      let v := (found.filter (fun x => x.test.toNat = 0x0B)).foldl addNew u
      if v.pins.crownRst then enterStartTest v
      else setPhase { v with boot := { v.boot with waitCrownRst := true } } .crownReset)

/-! ## START_TEST and GRID_BUILD (R55, R576, R582 to R586) -/

/-- Tests of the start test; a crown reset runs those of R586 only. -/
def testRuns (s : State) (n : Nat) : Bool :=
  if s.boot.crownSeq then [1, 2, 3, 4, 5, 7, 8, 10, 13].contains n else 1 ≤ n && n ≤ 13

/-- START_TEST: failures not yet listed are appended. -/
def execStartTest (found : List Site) (s : State) : Out :=
  .next (
    if !inPhase s .startTest then s
    else setPhase ((found.filter (fun x => testRuns s x.test.toNat)).foldl addNew s) .gridBuild)

/-- Physical x of the working boughs of row `y`. -/
def workingRow (s : State) (y : Nat) : List Nat := (List.range 12).filter (fun x => boughWorks s (12 * y + x))

/-- Logical width: the graded width or the least count of working boughs in a row (R55). -/
def gridWidth (s : State) : Nat := (List.range 12).foldl (fun n y => min n (workingRow s y).length) s.part.gradedWidth

/-- bough_map for a width (R55, R56): logical bough index to physical bough number. -/
def gridMap (s : State) (n : Nat) : SMap Nat :=
  (List.range 12).flatMap (fun y => ((workingRow s y).take n).zipIdx.map (fun p => (12 * y + p.2, 12 * y + p.1)))

/-- GRID_BUILD: the logical map, the routers' route tables (R359), GRADE_DEGRADED, and COMPUTE or CROWN_DOWN (R582, R584). -/
def execGridBuild (s : State) : Out :=
  .next (
    if !inPhase s .gridBuild then s
    else
      let n := gridWidth s
      let failed : SMap Bool := ((List.range 144).filter (fun c => hasDefect s 4 c)).map (fun c => (c, true))
      let t : State := { s with boot := { s.boot with width := n, boughMap := gridMap s n, failedColumns := failed,
                                                      crownNeeds := crownNeedsNow s n, crownSeq := false }
                                net := { s.net with routes := n, masks := [] } }
      let u := if n < s.part.gradedWidth then raise t 0x0D (12 * n) 0 0 else t
      if u.boot.crownNeeds then enterCompute u else setPhase u .crownDown)

/-! ## Crown reset (R572, R585, R586, R603) -/

/-- CROWN_RST_N going low begins or restarts a crown reset, but not before START_TEST of a start-up (R572, R685). -/
def crownRstActs (s : State) : Bool :=
  s.pins.porst && match s.boot.phase with
    | .startTest => true
    | .gridBuild => true
    | .compute => true
    | .crownDown => true
    | .crownReset => s.boot.crownSeq
    | _ => false

/-- CROWN_RST_N. -/
def execCrownRstN (s : State) : Out :=
  .next (
    if !s.pins.crownRst then s
    else
      let t : State := { s with pins := { s.pins with crownRst := false } }
      if crownRstActs t then beginCrownReset t 2 else t)

/-- CROWN_RST_N_RELEASE: what waited goes on with START_TEST. -/
def execCrownRstNRelease (s : State) : Out :=
  .next (
    let t : State := { s with pins := { s.pins with crownRst := true } }
    if t.boot.waitCrownRst && t.boot.phase = .crownReset then
      enterStartTest { t with boot := { t.boot with waitCrownRst := false } }
    else t)

/-- CROWN_RESET_PHASE: the crown is cleared, the profile applied; then START_TEST, or the wait for
CROWN_RST_N. -/
def execCrownResetPhase (s : State) : Out :=
  .next (
    if !(inPhase s .crownReset && s.boot.crownSeq && !s.boot.waitCrownRst) then s
    else
      let t := applyProfile (clearCrown s)
      if t.pins.crownRst then enterStartTest t
      else { t with boot := { t.boot with waitCrownRst := true } })

/-! ## Failures in a run (R598 to R603) -/

/-- What a failing leaf router or trunk loses of the control network (R361, R599). -/
def loseUnit (s : State) (site : Site) : State :=
  let pos := site.position.toNat
  match site.kind.toNat with
  | 1 => match boughAt s (pos / 48 / 4 * 12 + pos % 48 / 4) with
    | some b => failRouter s (boughLeaf b (pos / 48 % 4 * 4 + pos % 4))
    | none => s
  | 5 => failTrunk s pos
  | _ => s

/-- UNIT_FAILURE: a leaf's router, bough, column or trunk is fenced and recorded; the crown's needs are evaluated again. -/
def execUnitFailure (site : Site) (s : State) : Out :=
  .next (
    let k := site.kind.toNat
    if s.boot.phase ≠ .compute || k = 0 || k > 5 || hasDefect s k site.position.toNat then s
    else
      let t := failUnit (loseUnit s site) { site with test := 0x0F }
      if crownNeedsNow t t.boot.width then t else dropCrown t)

/-- CROWN_DOWN: a crown core unit fails in a run. -/
def execCrownDown (core : Nat) (s : State) : Out :=
  .next (
    if s.boot.phase ≠ .compute then s
    else dropCrown (failUnit s { kind := 9, position := BitVec.ofNat 32 core, test := 0x0F, data := 0 }))

end Sys2Proof.Machine
end

