-- ==== Sys2Proof/Machine/Conas.lean ====
section
/-! DEFINITION. Conas messages as they arrive and are answered: header, sessions' bindings, management violations, the
inbox (R525 to R532, R539, R543 to R545, R566 to R568). -/
namespace Sys2Proof.Machine

/-! ## Header (R532) -/

/-- A message from its bytes, at least eight; in-band, the zeros that fill its last slot are not part of it (R528). -/
def parseConas (tr : Transport) (address : BitVec 17) (tag : BitVec 15) (bytes : List Byte) : ConasMsg :=
  let n := ofLe (bytes.take 8)
  let len := fld n 48 16
  let rest := bytes.drop 8
  let padded : Bool := tr = .sapline && (8 + len + 15) / 16 * 16 = bytes.length
  { h := { transport := tr, address := address, tag := tag, version := BitVec.ofNat 3 n, resp := bit n 3,
           rsv := fld n 4 4 ≠ 0 || fld n 16 4 ≠ 0, session := BitVec.ofNat 4 (fld n 20 4),
           status := BitVec.ofNat 8 (fld n 24 8), seq := BitVec.ofNat 16 (fld n 32 16), length := len }
    code := fld n 8 8
    body := if padded then rest.take len else rest }

/-- Header of a response: RESP = 1, VERSION 0b001. -/
def rspHeader (r : ConasRsp) : Nat :=
  9 + r.code.toNat * 2 ^ 8 + r.session.toNat * 2 ^ 20 + r.status.toNat * 2 ^ 24 + r.seq.toNat * 2 ^ 32
    + r.body.length % 2 ^ 16 * 2 ^ 48

/-! ## Answers (R526, R528, R533) -/

/-- The response travels to its requester: over MCTP, or as a CONAS_RSP packet. -/
def sendRsp (s : State) (h : ConasHdr) (r : ConasRsp) : State :=
  match h.transport with
  | .i3c => { s with mgmt := { s.mgmt with out := s.mgmt.out ++ [.rsp h.address h.tag r] } }
  | .sapline =>
    toRouter s (mkPkt (h.address.toNat * 2 ^ 47) (originId s).toNat h.tag.toNat 0 false 0x13 0
      (slotsOfBytes (leBytes (rspHeader r) 8 ++ r.body)))

def mkRsp (h : ConasHdr) (code status : Nat) (body : List Byte) : ConasRsp :=
  { code := BitVec.ofNat 8 code, seq := h.seq, session := h.session, status := BitVec.ofNat 8 status, body := body }

/-! ## Sessions (R539, R544, R545) -/

def sessionAt (s : State) (k : Nat) : Option Session := mget none s.mgmt.sessions k

def setSession (s : State) (k : Nat) (x : Option Session) : State :=
  { s with mgmt := { s.mgmt with sessions := mset none s.mgmt.sessions k x } }

/-- The open session that the request names, bound to its transport and address. -/
def boundSession (s : State) (h : ConasHdr) : Option Session :=
  match sessionAt s h.session.toNat with
  | some x => if x.transport = h.transport && x.address = h.address then some x else none
  | none => none

/-! ## Violations (R566, R568) -/

/-- The session has one violation more in this second of uptime, and is closed at its limit. -/
def sessionViolation (s : State) (h : ConasHdr) : State :=
  match boundSession s h with
  | none => s
  | some x =>
    let sec := s.clk.us / 1000000
    let n := (if x.violSec = sec then x.viol else 0) + 1
    if odNat s 0x120003 ≤ n then raise (setSession s h.session.toNat none) 0x06 h.session.toNat 0 h.address.toNat
    else setSession s h.session.toNat (some { x with viol := n, violSec := sec })

/-- A refused request: counted, reported, answered with the status and an empty body. -/
def violate (s : State) (h : ConasHdr) (code status ix sub : Nat) : State :=
  let s1 : State := { s with mgmt := { s.mgmt with
    violations := mmod 0 s.mgmt.violations (status - 0x20) (fun n => sat32 (n + 1)) } }
  let unit := if h.session.toNat < 8 then h.session.toNat else 0xF
  let s2 := raise s1 0x05 unit status
    (h.seq.toNat + ix * 2 ^ 16 + sub * 2 ^ 32 + code * 2 ^ 40 + h.address.toNat * 2 ^ 64)
  sendRsp (sessionViolation s2 h) h (mkRsp h code status [])

def knownCode (code : Nat) : Bool := [1, 2, 0x10, 0x11, 0x20, 0x30, 0x31, 0x32, 0x33].contains code

/-- Most bytes of a message on its transport (R525, R528). -/
def conasRoom (tr : Transport) : Nat := match tr with
  | .i3c => 1024
  | .sapline => 256

/-- Steps 1 to 3 of R688. -/
def headViolation (m : ConasMsg) : Option Nat :=
  if m.h.version ≠ 1 || m.h.resp || m.h.rsv then some 0x20
  else if m.h.length ≠ m.body.length || 8 + m.body.length > conasRoom m.h.transport then some 0x21
  else if !knownCode m.code then some 0x22
  else none

/-! ## Arrival (R529 to R531, R567) -/

def discardMgmt (s : State) : State := { s with mgmt := { s.mgmt with discards := sat32 (s.mgmt.discards + 1) } }

/-- Rank among the requests of one cycle: I3C first, then the lower session, sessionless last (R531). -/
def acceptRank (m : ConasMsg) : Nat := (match m.h.transport with
  | .i3c => 0
  | .sapline => 16) + m.h.session.toNat

/-- The request stands behind those accepted before it (R41, R531). -/
def acceptMsg (s : State) (m : ConasMsg) : State :=
  let k : ConasMsg := { m with at_ := rootCycle s }
  let later (q : ConasMsg) : Bool := q.at_ = k.at_ && acceptRank k < acceptRank q
  let box := s.mgmt.inbox
  { s with mgmt := { s.mgmt with inbox := box.takeWhile (fun q => !later q) ++ [k] ++ box.dropWhile (fun q => !later q) } }

/-- A message has arrived whole: discarded before OD_ASSEMBLY or when shorter than its header, refused at once when no code
names it, else waiting for its execution. -/
def conasArrives (s : State) (tr : Transport) (address : BitVec 17) (tag : BitVec 15) (bytes : List Byte) : State :=
  if phaseCode s.boot.phase < 2 || bytes.length < 8 then discardMgmt s
  else
    let m := parseConas tr address tag bytes
    if knownCode m.code then acceptMsg s m
    else violate s m.h m.code ((headViolation m).getD 0x22) 0 0

end Sys2Proof.Machine
end

