-- ==== Sys2Proof/Machine/Links.lean ====
section
/-! DEFINITION. Edge ports, flits, the ring router and Sapline violations (R36, R439 to R476). -/
namespace Sys2Proof.Machine

/-! ## Neighbours of a slot (R33, R468) -/

/-- The slot that a port faces; none for an outward-facing port. -/
def facingSlot (slot p : Nat) : Option Nat :=
  if slot ≥ 40 then none
  else match p with
  | 0 => if slot / 8 = 0 then none else some (slot - 8)
  | 1 => if slot % 8 = 7 then none else some (slot + 1)
  | 2 => if slot / 8 = 4 then none else some (slot + 8)
  | _ => if slot % 8 = 0 then none else some (slot - 1)

def outward (s : State) (p : Nat) : Bool := facingSlot s.boot.slotId.toNat p = none

/-! ## Credits (R445, R450 to R453) -/

/-- Initial credits that the chiplet advertises, by class. -/
def advertised (k : Nat) : Nat := [64, 64, 256, 256, 1024, 1024, 2048, 1024, 3072, 2048].getD k 0

/-- Slots have left a buffer or have been dropped: their credits go back. -/
def returnCredits (s : State) (p k n : Nat) : State :=
  modPort s p (fun x => { x with returned := mmod 0 x.returned k (fun v => v + n) })

/-- Slots of ours that class `k` holds, down by `n`. -/
def freeBuffer (s : State) (p k n : Nat) : State :=
  returnCredits (modPort s p (fun x => { x with used := mmod 0 x.used k (fun v => v - n) })) p k n

/-! ## Opening a port (R452, R466 to R468) -/

/-- The data slot of the chiplet's LINK_PARAM. -/
def linkParamSlot (s : State) (p : Nat) : BitVec 128 :=
  BitVec.ofNat 128 (2 ^ 120 + p * 2 ^ 116 + chipId s * 2 ^ 99
    + ((List.range 10).map (fun k => advertised k / 16 * 2 ^ (8 * k))).sum)

/-- The lowest-numbered working module. -/
def lowestModule (x : Port) : Nat := ((List.range 8).find? (fun m => x.modules.getLsbD m)).getD 0

/-- A packet is sent on a module: its slots follow those that still wait for a flit (R443, R444). -/
def sendOut (s : State) (p m : Nat) (q : SPkt) : State :=
  modPort { s with links := { s.links with out := s.links.out ++ [(p, m, q)] } } p (fun x => { x with
    outSlots := mmod [] x.outSlots m (fun l => l ++ (true, q.hdr) :: q.data.map (fun d => (false, d))) })

/-- A flit with up to fourteen slots and the credits by class: its control slot has VALID, START and CREDIT (R443). -/
def flitOf (slots : List (Bool × BitVec 128)) (credit : Nat → Nat) : Flit :=
  { ctl := BitVec.ofNat 128 (2 ^ slots.length - 1 + (slots.zipIdx.map (fun e => b2n e.1.1 * 2 ^ (14 + e.2))).sum
      + ((List.range 10).map (fun k => credit k * 2 ^ (28 + 8 * k))).sum)
    slots := slots.map Prod.snd ++ List.replicate (14 - slots.length) 0 }

/-- Credits of a class that the next flit carries. -/
def creditDue (x : Port) (k : Nat) : Nat := min 255 (mget 0 x.returned k - mget 0 x.carried k)

/-- One flit of a module, where it has slots to send or credits to return: these on the lowest working module. DESIGN CHOICE, log 142:
R450 allows any (R443, R450, R451, R466). -/
def sendFlit (s : State) (p m : Nat) : State :=
  let x := portOf s p
  let slots := (mget [] x.outSlots m).take 14
  let credit (k : Nat) : Nat := if m = lowestModule x then creditDue x k else 0
  if !x.modules.getLsbD m || !(3 ≤ x.state && x.state ≤ 5) || (slots = [] && (List.range 10).all (fun k => credit k = 0)) then s
  else
    modPort { s with links := { s.links with flits := s.links.flits ++ [(p, m, flitOf slots credit)] } } p (fun y => { y with
      outSlots := mset [] y.outSlots m ((mget [] y.outSlots m).drop 14)
      carried := (List.range 10).foldl (fun c k => mmod 0 c k (fun v => v + credit k)) y.carried })

/-- A nanosecond of the ports: a flit on every module that has something to carry. -/
def sendFlits (s : State) : State :=
  (List.range 4).foldl (fun t p => (List.range 8).foldl (fun u m => sendFlit u p m) t) s

/-- A partner's data slot meets R468. -/
def linkParamOk (s : State) (p : Nat) (d : BitVec 128) : Bool :=
  let n := d.toNat
  fld n 120 8 = 1 && fld n 119 1 = 0 && fld n 80 19 = 0 &&
    match facingSlot s.boot.slotId.toNat p with
    | some k => fld n 118 1 = 0 && fld n 116 2 = (p + 2) % 4 && fld n 99 6 = k && fld n 105 11 = groveId s
    | none => fld n 118 1 = 1

/-- A packet that a port accepts stands at the ring router. -/
def intoRouter (s : State) (p : Nat) (q : SPkt) : State :=
  { s with links := { s.links with router := s.links.router ++ [(p, q)] } }

/-- OPEN once both LINK_PARAMs have passed; what was held goes on (R467). -/
def tryOpen (s : State) (p : Nat) : State :=
  let x := portOf s p
  if x.state = 3 && x.armed && x.lpSent && x.lpOk then
    let t := setPort s p { x with state := 4, buf := [], since := s.clk.us, viol := 0, violSec := 0
                                  tookCtl := [], tookSync := [], tookAt := [], rr := [] }
    x.buf.foldl (fun u q => intoRouter u p q) t
  else s

/-- The partner's LINK_PARAM is checked: its credits taken, or MISMATCH (R452, R468). -/
def checkParam (s : State) (p : Nat) : State :=
  let x := portOf s p
  match x.lpRx with
  | none => s
  | some q =>
    let d := q.data.headD 0
    if linkParamOk s p d then
      setPort s p { x with lpRx := none, lpOk := true
                           credits := (List.range 10).foldl (fun m k => mset 0 m k (16 * fld d.toNat (8 * k) 8)) [] }
    else
      raise (setPort s p { x with state := 7, lpRx := none, buf := [], partials := [], dropping := [], outSlots := [] }) 0xA3 p 0 d.toNat

/-- An armed port in TRAINED sends its LINK_PARAM, checks its partner's and opens (R467). -/
def armTrained (s : State) (p : Nat) : State :=
  let x := portOf s p
  if x.state = 3 && x.armed then
    let t := if x.lpSent then s
      else sendOut (setPort s p { x with lpSent := true }) p (lowestModule x)
        (mkPkt 0 (chipId s) 0 0 false 0x0B 0 [linkParamSlot s p])
    tryOpen (checkParam t p) p
  else s

/-- Bits of the modules that the defect list keeps out of service (R577). -/
def listedModules (s : State) (p : Nat) : BitVec 8 :=
  BitVec.ofNat 8 ((List.range 8).map (fun m => b2n (hasDefect s 7 (8 * p + m)) * 2 ^ m)).sum

/-- A module fails R441: recorded, and reported. -/
def moduleUntrained (lanes : List Byte) (p : Nat) (s : State) (m : Nat) : State :=
  raise (addDefect s { kind := 7, position := BitVec.ofNat 32 (8 * p + m), test := 0x0C, data := (lanes.getD m 0).setWidth 32 })
    0xA4 (8 * p + m) 1 0

/-- PORT_TRAINING_COMPLETE: ABSENT without a partner (R36), FAILED without a working module, else TRAINED (R441, R466,
R467). -/
def execPortTrainingComplete (port : Nat) (partner : Bool) (modules : BitVec 8) (lanes : List Byte) (s : State) : Out :=
  .next (
    let x := portOf s port
    if port ≥ 4 || x.state > 1 || !s.pins.porst || phaseCode s.boot.phase < 4 then s
    else if !partner then
      let t := setPort s port { x with state := 2, since := s.clk.us, absentRaised := true }
      if x.absentRaised then t else raise t 0xA0 port 0 0
    else
      let listed := listedModules s port
      let up := modules &&& ~~~listed
      let t : State := { s with links := { s.links with
        lanes := (List.range 8).foldl (fun m k =>
          if up.getLsbD k then mset 0 m (8 * port + k) (lanes.getD k 0) else m) s.links.lanes } }
      let bad := (List.range 8).filter (fun m => !modules.getLsbD m && !listed.getLsbD m)
      let u := bad.foldl (moduleUntrained lanes port) t
      armTrained (setPort u port { x with state := if up = 0 then 6 else 3, modules := up, since := s.clk.us }) port)

/-- LINK_TRAINING_RETRY: an ABSENT port trains again every 100 ms. -/
def execLinkTrainingRetry (port : Nat) (s : State) : Out :=
  .next (
    let x := portOf s port
    if port < 4 && s.pins.porst && x.state = 2 && x.since + 100000 ≤ s.clk.us then
      setPort s port { x with state := 1, since := s.clk.us }
    else s)

/-- A port's own time: RESET ends, and an ABSENT port trains again every 100 ms (R466). -/
def portDue (s : State) (p : Nat) : State :=
  let x := portOf s p
  if phaseCode s.boot.phase < 4 then s
  else if x.state = 0 || (x.state = 2 && x.since + 100000 ≤ s.clk.us) then setPort s p { x with state := 1, since := s.clk.us }
  else s

/-! ## Violations (R473, R474) -/

/-- A violation that counts toward quarantine is added to its second. -/
def quarantineCount (s : State) (p : Nat) : State :=
  let x := portOf s p
  if x.state ≠ 4 then s
  else
    let sec := (s.clk.us - x.since) / 1000000
    let n := (if sec = x.violSec then x.viol else 0) + 1
    let t := setPort s p { x with viol := n, violSec := sec }
    if n ≥ odNat s 0x500004 then
      raise (setPort t p { portOf t p with state := 5, outSlots := [] }) 0xA2 p 0 0
    else t

/-- NAK code of a violation, 0 where the packet is dropped. -/
def violationNak (code : Nat) : Nat :=
  match code with
  | 2 => 0x0A
  | 5 => 0x0A
  | 7 => 0x21
  | 8 => 2
  | 9 => 0x20
  | 0x0A => 0x22
  | _ => 0

/-- The answer to a refused packet: a NAK for a request, nothing for a response. -/
def nakPacket (s : State) (q : SPkt) (nak : Nat) : State :=
  if nak = 0 || opRsp (pOp q) then s else toRouter s (rspPkt s (pSrc q) (pTag q) 0x12 nak (originVc q) [])

/-- A violation on a port, counted, reported and answered. -/
def violation (s : State) (p code : Nat) (q : SPkt) : State :=
  let t := nakPacket (countViolation s p code q.hdr) q (violationNak code)
  if 1 ≤ code && code ≤ 7 then quarantineCount t p else t

/-! ## Received packets (R446, R447, R460, R473) -/

def badHeader (q : SPkt) : Bool :=
  let op := pOp q
  !opKnown op || !lenOk op (pLen q) || (pAcctEn q && !(op = 2 || op = 3 || op = 8))
    || (opRsp op && (fld q.hdr.toNat 72 39 ≠ 0 || (op ≠ 0x12 && pCode q ≠ 0)))
    || (op = 6 && pAddr q % 2 ^ 47 / 2 ^ 12 ≠ 0 && !isCounter (placeOf (pAddr q % 2 ^ 47)))

/-- Credits of a class that the partner has spent and no flit has brought back (R450, R451). -/
def creditsTaken (x : Port) (k : Nat) : Nat := mget 0 x.used k + (mget 0 x.returned k - mget 0 x.carried k)

/-- The first violation of a received packet, 0 where it has none. -/
def packetCode (s : State) (p : Nat) (q : SPkt) : Nat :=
  let k := pClass q
  let dest := pDest q
  if pVc q ≥ 5 then 3
  else if badHeader q then 2
  else if creditsTaken (portOf s p) k + pSlots q > advertised k then 4
  else if !vcOk (pOp q) (pVc q) || (outward s p && pVc q ≠ 2) then 5
  else if dest = 0x1FFFF || pSrc q = 0x1FFFF || pSrc q % 64 > 39 then 6
  else if (outward s p || pVc q = 2) && dest / 64 ≠ groveId s then 7
  else if dest % 64 > 39 then 8
  else 0

/-- A LINK_PARAM arrives: held, checked when armed, a violation when repeated (R452, R468, R473, R477). -/
def receiveParam (s : State) (p : Nat) (q : SPkt) : State :=
  let x := portOf s p
  if x.state = 3 && !x.lpOk && x.lpRx = none then armTrained (setPort s p { x with lpRx := some q }) p
  else if x.state = 3 || x.state = 4 then violation s p 5 q
  else s

/-- A whole packet has arrived; a QUARANTINED port, or one that is not armed, drops it and returns its credits (R451, R466, R474). -/
def receivePacket (p : Nat) (s : State) (q : SPkt) : State :=
  let x := portOf s p
  if pOp q = 0x0B && !badHeader q && (pVc q = 0 || pVc q = 2) then receiveParam s p q
  else if !(x.state = 4 || (x.state = 3 && x.armed)) then returnCredits s p (pClass q) (pSlots q)
  else match packetCode s p q with
    | 0 =>
      let t := modPort s p (fun y => { y with used := mmod 0 y.used (pClass q) (fun v => v + pSlots q) })
      if x.state = 4 then intoRouter t p q else modPort t p (fun y => { y with buf := y.buf ++ [q] })
    | code => violation (returnCredits s p (pClass q) (pSlots q)) p code q

/-- LINK_PARAM. -/
def execLinkParam (port : Nat) (p : SPkt) (s : State) : Out :=
  .next (if port < 4 then receivePacket port s p else s)

/-! ## Flits (R443, R444) -/

/-- The slots of a flit as they are put together: slots of the packet under way, slots still to be dropped with their class, whole
packets, dropped slots by class, and whether R443 or R444 is broken. -/
structure FlitAsm where
  part : List (BitVec 128)
  drop : Nat × Nat
  pkts : List SPkt := []
  lost : List (Nat × Nat) := []
  bad : Bool := false
  deriving DecidableEq, Repr

def headerLen (w : BitVec 128) : Nat := fld w.toNat 14 5

/-- The packet under way is whole. -/
def closePacket (a : FlitAsm) : FlitAsm :=
  match a.part with
  | h :: r => if r.length ≥ headerLen h then { a with part := [], pkts := a.pkts ++ [{ hdr := h, data := r }] } else a
  | [] => a

/-- The packet under way is abandoned: its slots so far are dropped. -/
def abandon (a : FlitAsm) : FlitAsm :=
  match a.part with
  | h :: r => { a with part := [], lost := a.lost ++ [(pClass { hdr := h, data := r }, r.length + 1)] }
  | [] => a

def takeSlot (ctl : BitVec 128) (a : FlitAsm) (iw : Nat × BitVec 128) : FlitAsm :=
  let v := ctl.getLsbD iw.1
  let st := ctl.getLsbD (14 + iw.1)
  if !v then { a with bad := a.bad || st || iw.2 ≠ 0 || a.part ≠ [] || a.drop.1 ≠ 0, drop := (0, 0) }
  else if st then
    closePacket { abandon a with bad := a.bad || a.part ≠ [] || a.drop.1 ≠ 0 || headerLen iw.2 > 16, part := [iw.2], drop := (0, 0) }
  else if a.drop.1 > 0 then { a with drop := (a.drop.1 - 1, if a.drop.1 = 1 then 0 else a.drop.2), lost := a.lost ++ [(a.drop.2, 1)] }
  else match a.part with
    | [] => { a with bad := true }
    | _ => closePacket { a with part := a.part ++ [iw.2] }

/-- Slots dropped give their credits back (R451). -/
def returnLost (s : State) (p : Nat) (a : FlitAsm) : State := a.lost.foldl (fun t e => returnCredits t p e.1 e.2) s

/-- A malformed flit drops every packet with a slot in it, the one under way included (R473); a QUARANTINED port's count is over
(R474). -/
def dropFlit (s : State) (p m : Nat) (a : FlitAsm) : State :=
  let left : Nat × Nat := match a.part with
    | h :: r => if headerLen h ≤ r.length then (0, 0) else (headerLen h - r.length, pClass { hdr := h, data := r })
    | [] => (0, 0)
  let t := modPort s p (fun x => { x with partials := mset [] x.partials m [], dropping := mset (0, 0) x.dropping m left })
  let u := returnLost (a.pkts.foldl (fun w q => returnCredits w p (pClass q) (pSlots q)) t) p (abandon a)
  if (portOf s p).state = 5 then u else violation u p 1 { hdr := 0, data := [] }

/-- FLIT_RECEIVE: retries counted (R442), credits taken (R450), packets put together and received. -/
def execFlitReceive (port mod retries : Nat) (flit : Flit) (s : State) : Out :=
  .next (
    let x := portOf s port
    let carries : Bool := x.state = 3 || x.state = 4 || x.state = 5
    if port ≥ 4 || !s.pins.porst || !carries || !x.modules.getLsbD mod then s
    else
      let t : State := if retries = 0 then s else { s with links := { s.links with
        retries := mmod 0 s.links.retries (8 * port + mod) (fun n => sat32 (n + retries))
        retryLog := s.links.retryLog ++ [(8 * port + mod, s.clk.us, retries)] } }
      let u := modPort t port (fun y => { y with
        credits := (List.range 10).foldl (fun c k => mmod 0 c k (fun v => v + fld flit.ctl.toNat (28 + 8 * k) 8)) y.credits })
      let a0 : FlitAsm := { part := mget [] x.partials mod, drop := mget (0, 0) x.dropping mod
                            bad := fld flit.ctl.toNat 108 20 ≠ 0 }
      let a := (((List.range 14).map (fun i => (i, flit.slots.getD i 0)))).foldl (takeSlot flit.ctl) a0
      if a.bad then dropFlit u port mod a
      else
        let w := modPort (returnLost u port a) port (fun y => { y with partials := mset [] y.partials mod a.part
                                                                       dropping := mset (0, 0) y.dropping mod a.drop })
        a.pkts.foldl (receivePacket port) w)

/-! ## Routing (R456 to R462, R472) -/

inductive RouteTo where
  | here
  | port (p : Nat)
  | nowhere
  deriving DecidableEq, Repr

def tableRoute (e : Nat) : RouteTo :=
  if e = 0x40 then .here else if 0x80 ≤ e && e ≤ 0x83 then .port (e - 0x80) else .nowhere

def routeTo (s : State) (dest : Nat) : RouteTo :=
  if dest = chipId s then .here
  else if dest / 64 ≠ groveId s % 2048 then tableRoute (groveTable s (dest / 64))
  else tableRoute (slotTable s (dest % 64))

/-- HOPS that a packet has left before this chiplet sends it: the origin's router sets it (R462). -/
def hopsLeft (s : State) (i : Nat) (q : SPkt) : Nat := if i = 4 then odNat s 0x500002 else pHops q

/-- The packet as it leaves through port `p`: one hop less, and on ESC through an outward-facing port (R460, R462). -/
def leaving (s : State) (i p : Nat) (q : SPkt) : SPkt :=
  let r := setHops q (hopsLeft s i q - 1)
  if outward s p then setVc r 2 else r

/-- Working modules in increasing number. -/
def upModules (x : Port) : List Nat := (List.range 8).filter (fun m => x.modules.getLsbD m)

/-- The module that carries a packet (R455). -/
def moduleFor (x : Port) (q : SPkt) : Option Nat :=
  let ms := upModules x
  if ms = [] then none else ms[(pDest q + pSrc q) % ms.length]?

/-- What the ring router can do with a waiting packet. -/
inductive FwdState where
  | local
  | refuse (code : Nat)
  | waits
  | goes (p m : Nat) (q : SPkt)
  deriving DecidableEq, Repr

def fwdState (s : State) (iq : Nat × SPkt) : FwdState :=
  match routeTo s (pDest iq.2) with
  | .here => .local
  | .nowhere => .refuse 9
  | .port p =>
    let x := portOf s p
    if x.state ≠ 4 then .refuse 9
    else if hopsLeft s iq.1 iq.2 = 0 then .refuse 0x0A
    else
      let q := leaving s iq.1 p iq.2
      match moduleFor x q with
      | some m => if mget 0 x.credits (pClass q) ≥ pSlots q then .goes p m q else .waits
      | none => .waits

/-! ## Sharing a module (R454, R464) -/

/-- Packet slots that every module has sent or left empty since PORST_N: fourteen each nanosecond (R443). -/
def slotsGone (s : State) : Nat := (s.clk.us * 4504500 + s.clk.frac) * 14000 / 4504500

/-- What an allowance of 17 slots still holds, one slot regained for every eight gone by. -/
def allowance (s : State) (x : Port) (m : Nat) (took : SMap Nat) : Nat :=
  17 - (mget 0 took m - (slotsGone s - mget 0 x.tookAt m) / 8)

/-- The oldest packet of a class that waits for module `m` of port `p` (R464). -/
def headOf (s : State) (p m k : Nat) : Option (Nat × SPkt) :=
  s.links.router.find? (fun iq => match routeTo s (pDest iq.2) with
    | .port r => r = p && pClass (leaving s iq.1 p iq.2) = k && moduleFor (portOf s p) iq.2 = some m
    | _ => false)

/-- That packet when it can be sent now. -/
def readyHead (s : State) (p m k : Nat) : Option (Nat × SPkt) :=
  match headOf s p m k with
  | some iq => match fwdState s iq with
    | .goes _ _ _ => some iq
    | _ => none
  | none => none

/-- Next packet of a VC: requests and responses alternate when both are ready. -/
def vcHead (s : State) (p m vc : Nat) : Option (Nat × SPkt) :=
  match readyHead s p m (2 * vc), readyHead s p m (2 * vc + 1) with
  | some a, some b => if mget 0 (portOf s p).rr (16 * m + 8 + vc) = 0 then some a else some b
  | some a, none => some a
  | none, b => b

/-- Weight of ESC, COLL or P2P. -/
def vcWeight (s : State) (vc : Nat) : Nat := fld (odNat s 0x500003) (8 * (vc - 2)) 8

/-- The packet that a module sends next. -/
def modulePick (s : State) (p m : Nat) : Option (Nat × SPkt) :=
  let x := portOf s p
  let fits (vc : Nat) (took : SMap Nat) : Option (Nat × SPkt) :=
    (vcHead s p m vc).bind (fun iq => if pSlots iq.2 ≤ allowance s x m took then some iq else none)
  match fits 0 x.tookCtl with
  | some iq => some iq
  | none =>
    match fits 1 x.tookSync with
    | some iq => some iq
    | none =>
      let have_ := [2, 3, 4].filter (fun vc => (vcHead s p m vc).isSome)
      match have_.find? (fun vc => mget 0 x.rr (16 * m + vc) < vcWeight s vc) with
      | some vc => vcHead s p m vc
      | none => (have_.head?).bind (vcHead s p m)

/-- The books of a sending module after a packet. -/
def bookSend (s : State) (x : Port) (m : Nat) (q : SPkt) : Port :=
  let n := pSlots q
  let vc := pVc q
  let gone := slotsGone s
  let back := (gone - mget 0 x.tookAt m) / 8
  let left (t : SMap Nat) (mine : Bool) : SMap Nat := mset 0 t m (mget 0 t m - back + (if mine then n else 0))
  let fresh : Bool := 2 ≤ vc && mget 0 x.rr (16 * m + vc) ≥ vcWeight s vc
  let rr := if fresh then [2, 3, 4].foldl (fun r v => mset 0 r (16 * m + v) 0) x.rr else x.rr
  { x with
    credits := mmod 0 x.credits (pClass q) (fun v => v - n)
    tookCtl := left x.tookCtl (vc = 0), tookSync := left x.tookSync (vc = 1)
    tookAt := mset 0 x.tookAt m (mget 0 x.tookAt m + 8 * back)
    rr := mset 0 (if 2 ≤ vc then mmod 0 rr (16 * m + vc) (fun v => v + n) else rr) (16 * m + 8 + vc)
      (if opRsp (pOp q) then 0 else 1) }

/-! ## The local output (R356, R447, R449) -/

/-- A request from a link as it stands at its target, which it reaches through the trunk of the target's region; the management
controller's from the ring router itself (R21, R355, R447, R449). -/
def linkReq (s : State) (i : Nat) (q : SPkt) : Req :=
  let off := pAddr q % 2 ^ 47
  let ep := if pOp q = 6 && !isCounter (placeOf off) then off % 2 ^ 12 else endpointOf off
  { origin := BitVec.ofNat 17 (pSrc q), src := if ep = 0xA20 then ep else trunkEp s ep, dst := ep,
    tag := BitVec.ofNat 15 (pTag q), addr := BitVec.ofNat 64 (pAddr q), acctEn := pAcctEn q,
    acctGc := BitVec.ofNat 12 (pAcctGc q), len := pLen q, vc := originVc q, rsv := false, via := some i,
    data := wordsOfSlots q.data, hdr := q.hdr }

/-- A response from a link as it stands at endpoint `ep`, which it reaches through its trunk. -/
def linkResp (s : State) (i ep : Nat) (tag : BitVec 15) (q : SPkt) : BitVec 5 × Resp :=
  let r : Resp := { ep := ep, via := some i, tag := tag, code := BitVec.ofNat 8 (pCode q), len := pLen q, rsv := false,
                    data := wordsOfSlots q.data, src := trunkEp s ep }
  (BitVec.ofNat 5 (pOp q), { r with hdr := rspFlit (pOp q) r })

/-- A response for the crown: the trunk gives it back its requester's endpoint and tag; a NAK that a COLL request's tag
matches goes to the collective unit, 0xA40 here (R504); any other is discarded (R473; log 12). -/
def localResponse (s : State) (i : Nat) (q : SPkt) : State :=
  match mget none s.net.xtags (pTag q) with
  | some et =>
    { s with net := { s.net with xtags := mset none s.net.xtags (pTag q) none
                                 resps := s.net.resps ++ [linkResp s i et.1 et.2 q] } }
  | none =>
    if pOp q = 0x12 && collTagged s (pTag q) then
      { s with net := { s.net with resps := s.net.resps ++ [linkResp s i 0xA40 (BitVec.ofNat 15 (pTag q)) q] } }
    else { s with links := { s.links with discards := mmod 0 s.links.discards i (fun n => sat32 (n + 1)) } }

/-- A packet for this chiplet goes to the management controller, the collective unit or a trunk. -/
def deliverLocal (s : State) (i : Nat) (q : SPkt) : State :=
  let op := pOp q
  if op = 0x0A then
    conasArrives s .sapline (BitVec.ofNat 17 (pSrc q)) (BitVec.ofNat 15 (pTag q)) (bytesOfSlots q.data)
  else if op = 0x09 || op = 0x14 then { s with coll := { s.coll with inbox := s.coll.inbox ++ [q] } }
  else if op = 0x13 then { s with links := { s.links with discards := mmod 0 s.links.discards i (fun n => sat32 (n + 1)) } }
  else if opRsp op then localResponse s i q
  else { s with net := { s.net with msgs := s.net.msgs ++ [.req (BitVec.ofNat 5 op) (linkReq s i q)] } }

/-! ## PACKET_FORWARD (R456, R464, R472) -/

/-- The packet leaves the router's input, and its buffer slots with it. -/
def takeRouter (s : State) (iq : Nat × SPkt) : State :=
  let t : State := { s with links := { s.links with router := s.links.router.erase iq } }
  if iq.1 < 4 then freeBuffer t iq.1 (pClass iq.2) (pSlots iq.2) else t

/-- The packet can be dealt with now. -/
def canForward (s : State) (iq : Nat × SPkt) : Bool :=
  match fwdState s iq with
  | .local => true
  | .refuse _ => true
  | .waits => false
  | .goes p m _ => modulePick s p m = some iq

def forward (s : State) (iq : Nat × SPkt) : State :=
  let t := takeRouter s iq
  match fwdState s iq with
  | .local => deliverLocal t iq.1 iq.2
  | .refuse code => if iq.1 < 4 then violation t iq.1 code iq.2 else nakPacket t iq.2 (violationNak code)
  | .waits => s
  | .goes p m q => sendOut (modPort t p (fun x => bookSend s x m q)) p m q

/-- PACKET_FORWARD: the oldest packet whose turn it is. -/
def execPacketForward (s : State) : Out :=
  .next (match s.links.router.find? (canForward s) with
    | some iq => if s.pins.porst then forward s iq else s
    | none => s)

/-! ## Modules leaving and entering service (R441, R471, R599, R623) -/

/-- A module leaves service: what it held of a packet is abandoned; a port without modules is FAILED. -/
def dropModule (s : State) (p m : Nat) : State :=
  let x := portOf s p
  let up := x.modules &&& ~~~(BitVec.ofNat 8 (2 ^ m))
  let t := match mget [] x.partials m with
    | h :: r => returnCredits s p (pClass { hdr := h, data := [] }) (r.length + 1)
    | [] => s
  modPort t p (fun y => { y with
    modules := up, partials := mset [] y.partials m [], dropping := mset (0, 0) y.dropping m (0, 0), outSlots := mset [] y.outSlots m [] })

/-- The port has no working module (R441). -/
def failPort (s : State) (p : Nat) : State :=
  let x := portOf s p
  if x.modules = 0 && (x.state = 3 || x.state = 4 || x.state = 5) then
    { setPort s p { x with state := 6, buf := [], outSlots := [] } with
      links := { (setPort s p { x with state := 6, buf := [], outSlots := [] }).links with
        router := s.links.router.filter (fun iq => iq.1 ≠ p) } }
  else s

/-- MODULE_FAILURE: fenced, recorded and reported. -/
def execModuleFailure (port mod : Nat) (s : State) : Out :=
  .next (
    if port < 4 && mod < 8 && s.pins.porst && (portOf s port).modules.getLsbD mod then
      let t := raise (dropModule s port mod) 0xA4 (8 * port + mod) 2 0
      failPort (failUnit t { kind := 7, position := BitVec.ofNat 32 (8 * port + mod), test := 0x0F, data := 0 }) port
    else s)

/-- MODULE_RETRAINED: a module out for lane sparing returns, or fails R441. -/
def execModuleRetrained (port mod : Nat) (ok : Bool) (lanes : Byte) (s : State) : Out :=
  .next (
    let k := 8 * port + mod
    if port ≥ 4 || mod ≥ 8 || !mget false s.gov.retraining k then s
    else
      let t : State := { s with gov := { s.gov with retraining := mset false s.gov.retraining k false } }
      if ok then
        modPort { t with links := { t.links with lanes := mset 0 t.links.lanes k lanes } } port
          (fun x => { x with modules := x.modules ||| BitVec.ofNat 8 (2 ^ mod) })
      else failPort (moduleUntrained (List.replicate mod 0 ++ [lanes]) port t mod) port)

end Sys2Proof.Machine
end

