-- ==== Sys2Proof/Machine/Governor.lean ====
section
/-! DEFINITION. The governor: samples, the evaluation, step decisions and changes, emergencies and the trip, scrub,
retirement and lane sparing (R435, R604 to R627). -/
namespace Sys2Proof.Machine

/-! ## F32 readings as exact numbers -/

/-- A finite F32 value, scaled by 2^149; infinities lie beyond every finite value. -/
def f32Int (w : Word) : Int :=
  let sgn (s : Bool) (n : Nat) : Int := if s then -(n : Int) else n
  match decodeF fF32 w.toNat with
  | .fin s m e => sgn s (m * 2 ^ (e + 149).toNat)
  | .inf s => sgn s (2 ^ 300)
  | .nan s _ => sgn s (2 ^ 300)

def one149 : Int := 2 ^ 149

/-- `n / (d × 2^k)` as the nearest F32 (ties to even), exact quotient bits below the last kept as a sticky bit. -/
def f32Quot (n : Int) (d k : Nat) : Word :=
  let q := n.natAbs * 2 ^ 64 / d
  let sticky := b2n (n.natAbs * 2 ^ 64 % d ≠ 0)
  BitVec.ofNat 32 (ieeeRound fF32 .rne (decide (n < 0)) (2 * q + sticky) (-(k : Int) - 65)).1

def f32Nat (n : Nat) : Word := f32Quot n 1 0

/-- Mean of F32 readings. -/
def f32Mean (ws : List Word) : Word := f32Quot ((ws.map f32Int).sum) (max ws.length 1) 149

/-- Volts × amperes summed over VIN_CORE, VHW, VPP_HW, VROOT, VLINK and VAUX, scaled by 2^298 (R604). -/
def stackPower (r : Readings) : Int :=
  ((List.range 6).map (fun i => f32Int (r.rails.getD (2 * i) 0) * f32Int (r.rails.getD (2 * i + 1) 0))).sum

def hottest (ws : List Word) : Word := ws.foldl (fun a w => if f32Int a < f32Int w then w else a) (ws.headD 0)

def anyAbove (ws : List Word) (deg : Nat) : Bool := ws.any (fun w => decide (deg * one149 < f32Int w))

def allWithin (ws : List Word) (deg : Nat) : Bool := !anyAbove ws deg

/-! ## GOV_DECISION (R605, R625) -/

def govRaise (s : State) (unit cause : Nat) (measured limit : Word) (target : Nat) (advisory : Bool) : State :=
  raise s 0xE0 unit cause (measured.toNat * 2 ^ 96 + limit.toNat * 2 ^ 64 + target * 2 ^ 32 + b2n advisory)

/-- An element of gov_mode: 0 clock, 1 scrub, 2 retirement, 3 lane sparing, 4 power cap. -/
def govMode (s : State) (i : Nat) : Nat := ((odBytes s 0x210005).getD i 0).toNat

def hysteresisUs (s : State) : Nat := odNat s 0x210004 * 1000

def budget (s : State) : Nat := odNat s 0x210003

def stepTarget (new old : Nat) : Nat := new + 16 * old

/-! ## Step changes (R608, R609, R613, R615 to R617) -/

/-- F × 100,000 of a step (R608). -/
def stepF (k : Nat) : Int := match k with
  | 0 => 63700
  | 1 => 47916
  | 2 => 34596
  | _ => 25200

/-- VCR in millivolts: nominal plus the part's offset (R608, R609). -/
def vcrMv (s : State) : Nat :=
  (match s.gov.vcrStep with
    | 0 => 700
    | 1 => 660
    | 2 => 620
    | _ => 600) + s.part.vcrOffset

/-- The change begins: a slower one stops the crown clock, a faster one slews VCR first. -/
def beginChange (s : State) (c : StepChange) : State :=
  { s with gov := { s.gov with decided := none
                               change := some { c with old := s.gov.step, stage := if s.gov.step < c.target then 1 else 0 } } }

/-- No leaf core runs. -/
def crownIdle (s : State) : Bool := s.leaves.all (fun p => p.2.run ≠ .running)

/-- STEP_POINT: a combined barrier arrival applied at the hub, or an idle crown, after a decision. -/
def execStepPoint (barrier : Bool) (s : State) : Out :=
  .next (
    match s.gov.decided, s.gov.change with
    | some c, none => if s.boot.phase = .compute && (barrier || crownIdle s) then beginChange s c else s
    | _, _ => s)

/-- STEP_DEADLINE: 10 ms after the decision. -/
def execStepDeadline (s : State) : Out :=
  .next (
    match s.gov.decided, s.gov.change with
    | some c, none => if s.boot.phase = .compute && s.gov.decidedAt + 10000 ≤ s.clk.us then beginChange s c else s
    | _, _ => s)

def emergencyChange (s : State) : StepChange :=
  let hot := anyAbove ((s.gov.samples.getLast?.map (fun r => r.hw)).getD []) 105
  let rs := (s.gov.samples.getLast?.map (fun r => if hot then r.hw else r.crown)).getD []
  { target := 3, old := s.gov.step, unit := 0, cause := 6, measured := hottest rs,
    limit := f32Nat (if hot then 105 else 110), stage := 1 }

/-- The crown goes to step 3 at once, or is there already (R618). -/
def toStepThree (s : State) : State :=
  let c := emergencyChange s
  if s.gov.step = 3 then govRaise s 0 6 c.measured c.limit (stepTarget 3 3) false else beginChange s c

/-- The change is over; an emergency that began during it follows at once (R627). -/
def endChange (s : State) : State :=
  let t : State := { s with gov := { s.gov with change := none, afterChange := false } }
  if s.gov.afterChange then toStepThree t else t

/-- PLL_RELOCK_DONE: the crown clock restarts, cclk_step takes the new value, and the decision is reported. -/
def execPllRelockDone (s : State) : Out :=
  .next (
    match s.gov.change with
    | some c =>
      if c.stage ≠ 1 then s
      else
        let t := govRaise { s with gov := { s.gov with step := c.target, lastChange := some s.clk.us, coolSince := none,
                                                       powerSince := none, change := some { c with stage := 2 } } }
          c.unit c.cause c.measured c.limit (stepTarget c.target c.old) false
        if c.old < c.target then t else endChange t
    | none => s)

/-- VCR_SLEW_DONE: a slower change is over; a faster one stops the crown clock. -/
def execVcrSlewDone (s : State) : Out :=
  .next (
    match s.gov.change with
    | some c =>
      let t : State := { s with gov := { s.gov with vcrStep := c.target } }
      if c.stage = 2 then endChange t
      else if c.stage = 0 then { t with gov := { t.gov with change := some { c with stage := 1 } } }
      else s
    | none => s)

/-! ## SENSOR_SAMPLE (R435, R604, R618, R619) -/

/-- HW_OVERTEMP for every heartwood sensor above 105 °C. -/
def overtemp (s : State) (r : Readings) : State :=
  r.hw.zipIdx.foldl (fun t w =>
    if decide (105 * one149 < f32Int w.1) then raise t 0x84 (w.2 / 4 + 1) (w.2 % 4) w.1.toNat else t) s

/-- The start of an uninterrupted period. -/
def since (ok : Bool) (old : Option Nat) (now : Nat) : Option Nat := if ok then some (old.getD now) else none

def noteTemps (s : State) (r : Readings) : State :=
  { s with gov := { s.gov with
      samples := (s.gov.samples ++ [r]).drop (s.gov.samples.length + 1 - 10)
      coolSince := since (allWithin r.crown 95 && allWithin r.hw 98) s.gov.coolSince s.clk.us
      calmSince := since (allWithin r.crown 100 && allWithin r.hw 102) s.gov.calmSince s.clk.us } }

/-- An emergency begins: a decision that waits is discarded (R618, R627). -/
def beginEmergency (s : State) : State :=
  let t : State := { s with gov := { s.gov with emergency := true, decided := none } }
  if t.boot.phase ≠ .compute then
    govRaise t 0 6 (emergencyChange t).measured (emergencyChange t).limit (stepTarget 3 t.gov.step) false
  else if t.gov.change = none then toStepThree t
  else { t with gov := { t.gov with afterChange := true } }

/-- An emergency ends after gov_hysteresis of calm (R619). -/
def tryCalm (s : State) (r : Readings) : State :=
  match s.gov.calmSince with
  | some t0 =>
    if s.gov.emergency && s.gov.change = none && t0 + hysteresisUs s ≤ s.clk.us then
      govRaise { s with gov := { s.gov with emergency := false } } 0 7 (hottest r.crown) (f32Nat 100)
        (stepTarget s.gov.step s.gov.step) false
    else s
  | none => s

/-- SENSOR_SAMPLE. -/
def execSensorSample (r : Readings) (s : State) : Out :=
  .next (
    if !s.pins.porst then s
    else
      let t := overtemp (noteTemps s r) r
      let hot : Bool := r.crown.any (fun w => decide (110 * one149 ≤ f32Int w)) || anyAbove r.hw 105
      if hot && !t.gov.emergency then beginEmergency t else tryCalm t r)

/-- THERMAL_TRIP: a crown sensor at 115 °C or more (R620). -/
def execThermalTrip (sensor : Nat) (reading : Word) (s : State) : Out :=
  .next (
    if !s.pins.porst || s.gov.tripped || decide (f32Int reading < 115 * one149) then s
    else
      let t := raise { s with
        pins := { s.pins with therm := false }
        gov := { s.gov with tripped := true, change := none, decided := none, afterChange := false } }
        0xE1 sensor 0 reading.toNat
      if t.boot.phase = .compute then dropCrown t else t)

/-! ## Choosing the step (R607, R610 to R614) -/

/-- P(j) × F(k), scaled by 2^149 × 100,000 (R610). -/
def predicted (s : State) (j : Nat) : Int :=
  let c := (s.gov.bough.map f32Int).sum
  (f32Int s.gov.stack - c) * stepF s.gov.step + c * stepF j

/-- P(j) ≤ pct/100 × gov_power_budget. -/
def withinBudget (s : State) (j pct : Nat) : Bool :=
  decide (100 * predicted s j ≤ pct * budget s * one149 * stepF s.gov.step)

def overBudget (s : State) : Bool := decide (budget s * one149 < f32Int s.gov.stack)

/-- A proposal: step, UNIT, cause, MEASURED and LIMIT. -/
structure Proposal where
  step : Nat
  unit : Nat
  cause : Nat
  measured : Word
  limit : Word
  deriving DecidableEq, Repr

def stay (s : State) (unit : Nat) : Proposal := { step := s.gov.step, unit := unit, cause := 0, measured := 0, limit := 0 }

/-- The period that began then has lasted gov_hysteresis. -/
def lasted (s : State) (t : Option Nat) : Bool :=
  match t with
  | some t0 => t0 + hysteresisUs s ≤ s.clk.us
  | none => false

def clockProposal (s : State) : Proposal :=
  let k := s.gov.step
  let hc := hottest s.gov.crown
  let hh := hottest s.gov.hw
  if anyAbove s.gov.crown 100 then { step := min 3 (k + 1), unit := 0, cause := 3, measured := hc, limit := f32Nat 100 }
  else if anyAbove s.gov.hw 102 then { step := min 3 (k + 1), unit := 0, cause := 5, measured := hh, limit := f32Nat 102 }
  else if lasted s s.gov.coolSince then
    { step := k - 1, unit := 0, cause := 4, measured := if f32Int hc < f32Int hh then hh else hc
      limit := f32Nat (if f32Int hc < f32Int hh then 98 else 95) }
  else stay s 0

def powerProposal (s : State) : Proposal :=
  let k := s.gov.step
  if overBudget s then
    { step := ((List.range 4).find? (fun j => k ≤ j && withinBudget s j 100)).getD 3, unit := 4, cause := 1,
      measured := s.gov.stack, limit := f32Nat (budget s) }
  else if lasted s s.gov.powerSince then
    { step := k - 1, unit := 4, cause := 2, measured := s.gov.stack, limit := f32Quot (95 * budget s) 100 0 }
  else stay s 4

/-- The fastest permitted step no faster than `k`, or the slowest permitted (R612). -/
def permittedFrom (s : State) (k : Nat) : Nat :=
  match (List.range 4).find? (fun j => k ≤ j && stepPermitted s j) with
  | some j => j
  | none => ((List.range 4).reverse.find? (stepPermitted s)).getD 3

/-- The slowest of the automatic proposals, replaced by a permitted step; with neither automatic, the fastest permitted
(R607, R612). A change that the policy objects alone force has cause 0x08, and the spec gives it neither MEASURED nor LIMIT (log 9). -/
def target (s : State) : Proposal :=
  let auto := (if govMode s 0 = 2 then [clockProposal s] else []) ++ (if govMode s 4 = 2 then [powerProposal s] else [])
  let policy (j : Nat) : Proposal :=
    { step := j, unit := 0, cause := 8, measured := Config.freeWord s.free, limit := Config.freeWord (s.free + 1) }
  match auto with
  | [] => policy (fastestStep s)
  | p :: r =>
    let q := r.foldl (fun a b => if a.step < b.step then b else a) p
    let j := permittedFrom s q.step
    if q.step = s.gov.step then policy j else { q with step := j }

/-- A decision replaces what waited; a faster one waits for gov_hysteresis after the last change (R612, R613). -/
def decide1 (s : State) : State :=
  let p := target s
  let early : Bool := p.step < s.gov.step && (match s.gov.lastChange with
    | some t => s.clk.us < t + hysteresisUs s
    | none => false)
  if p.step = s.gov.step || early then { s with gov := { s.gov with decided := none } }
  else { s with free := if p.cause = 8 then s.free + 2 else s.free, gov := { s.gov with
    decided := some { target := p.step, old := s.gov.step, unit := p.unit, cause := p.cause, measured := p.measured,
                      limit := p.limit, stage := 0 }
    decidedAt := s.clk.us } }

/-- A write of gov_steps_permitted or gov_power_budget evaluates a waiting target again (R627). -/
def policyWritten (s : State) : State := if s.gov.decided = none then s else decide1 s

/-- An advisory adaptation reports the step it would take (R605). -/
def advise (s : State) (p : Proposal) : State :=
  let j := permittedFrom s p.step
  if p.step = s.gov.step || j = s.gov.step then s
  else govRaise s p.unit p.cause p.measured p.limit (stepTarget j s.gov.step) true

/-- OVER_BUDGET_AT_FLOOR, at most once a second (R614). -/
def floorCheck (s : State) : State :=
  let k := s.gov.step
  let floor : Bool := k = 3 || !(List.range 4).any (fun j => k < j && stepPermitted s j)
  let recent : Bool := match s.gov.floorAt with
    | some t => s.clk.us < t + 1000000
    | none => false
  if govMode s 4 ≠ 0 && overBudget s && floor && !recent then
    govRaise { s with gov := { s.gov with floorAt := some s.clk.us } } 4 0x0D s.gov.stack (f32Nat (budget s))
      (stepTarget k k) (govMode s 4 = 1)
  else s

/-- The clock and power-cap part of an evaluation; in an emergency R611 to R613 rest, R614 does not (R619). -/
def evalStep (s : State) : State :=
  if s.boot.phase ≠ .compute then s
  else if s.gov.emergency then floorCheck s
  else
    let t1 := floorCheck s
    let t2 := if govMode s 0 = 1 then advise t1 (clockProposal t1) else t1
    let t3 := if govMode s 4 = 1 then advise t2 (powerProposal t2) else t2
    if t3.gov.decided = none && t3.gov.change = none then decide1 t3 else t3

/-! ## Scrub, retirement, lane sparing (R621 to R624) -/

/-- A column's patrol rate. -/
def evalScrub (s : State) (c : Nat) : State :=
  let x := colOf s c
  let es := x.errTimes.filter (fun t => s.clk.us < t + 60000000)
  let n := es.length
  let y : Column := { x with errTimes := es }
  let tgt (sec : Nat) : Nat := c + sec % 2 ^ 24 * 2 ^ 8
  match govMode s 1 with
  | 2 =>
    if !x.fast && 8 ≤ n then
      govRaise (setCol s c { y with fast := true, fastClean := false, passes := 0 }) 1 9 (f32Nat n) (f32Nat 8)
        (tgt (fastPeriod s)) false
    else if x.fast && 1 ≤ x.passes then
      govRaise (setCol s c { y with fast := false }) 1 0x0A (f32Nat n) (f32Nat 8) (tgt (scrubPeriod s)) false
    else setCol s c y
  | 1 =>
    let t := setCol s c { y with fast := false }
    if 8 ≤ n then govRaise t 1 9 (f32Nat n) (f32Nat 8) (tgt (fastPeriod s)) true else t
  | _ => setCol s c { y with fast := false }

/-- TARGET of a retirement decision for a row of the column. -/
def rowTarget (c key : Nat) : Nat := c + key % 16 * 2 ^ 8 + key / 16 % 8 * 2 ^ 12 + key / 128 * 2 ^ 15

/-- The copy into a spare row starts, or no spare is left (R434). -/
def startRetire (s : State) (c key errors : Nat) : State :=
  let x := colOf s c
  let bank := key % 128
  if 32 ≤ mget 0 x.spares bank then raise s 0x83 c (key % 16 + 1) (key / 16 % 8 * 2 ^ 16)
  else setCol s c { x with
    spares := mmod 0 x.spares bank (fun n => n + 1)
    retire := some { tier := key % 16, bank := key / 16 % 8, row := key / 128, spare := mget 0 x.spares bank,
                     copied := 0, errors := errors, got := none } }

/-- A row at its threshold (R622); one row of a column is copied at a time. -/
def evalRetire (s : State) (c : Nat) : State :=
  let x := colOf s c
  match x.retireDue with
  | [] => s
  | (key, n) :: r =>
    if x.retire ≠ none then s
    else
      let t := setCol s c { x with retireDue := r }
      let m := govMode s 2
      if m = 0 then t
      else
        let u := govRaise t 2 0x0B (f32Nat n) (f32Nat (odNat s 0x400102)) (rowTarget c key) (m = 1)
        if m = 2 then startRetire u c key n else u

/-- Retries of a module in the last second. -/
def recentRetries (s : State) (k : Nat) : Nat :=
  ((s.links.retryLog.filter (fun e => e.1 = k && s.clk.us < e.2.1 + 1000000)).map (fun e => e.2.2)).sum

/-- The module may be retrained now (R624). -/
def canSpare (s : State) (k : Nat) : Bool :=
  let p := k / 8
  let busy := (List.range 8).any (fun m => mget false s.gov.retraining (8 * p + m))
  let last := (upModules (portOf s p)).length ≤ 1
  let recent := match mget none s.gov.sparedAt k with
    | some t => s.clk.us < t + 60000000
    | none => false
  !busy && !last && !recent

/-- A module with more than 1,000 retries in the last second (R623). -/
def evalSpare (s : State) (k : Nat) : State :=
  let n := recentRetries s k
  let m := govMode s 3
  if m = 0 || n ≤ 1000 || !(portOf s (k / 8)).modules.getLsbD (k % 8) || !canSpare s k then s
  else if m = 1 then govRaise s 3 0x0C (f32Nat n) (f32Nat 1000) k true
  else
    let t := dropModule s (k / 8) (k % 8)
    let u : State := { t with gov := { t.gov with retraining := mset false t.gov.retraining k true
                                                  sparedAt := mset none t.gov.sparedAt k (some s.clk.us) } }
    raise (govRaise u 3 0x0C (f32Nat n) (f32Nat 1000) k false) 0xA4 k 3 0

/-! ## GOVERNOR_EVALUATION (R604, R611) -/

/-- The readings of the last millisecond. -/
def refreshReadings (s : State) : State :=
  let rs := s.gov.samples
  match rs.getLast? with
  | none => s
  | some r =>
    let mean (i : Nat) : Word := f32Mean (rs.map (fun q => q.bough.getD i 0))
    let t : State := { s with gov := { s.gov with
      crown := r.crown, hw := r.hw, rails := r.rails, bough := (List.range 144).map mean
      stack := f32Quot ((rs.map stackPower).sum) rs.length 298 } }
    { t with gov := { t.gov with
      powerSince := since (withinBudget t (t.gov.step - 1) 95) t.gov.powerSince t.clk.us } }

/-- GOVERNOR_EVALUATION, by running firmware. -/
def execGovernorEvaluation (s : State) : Out :=
  .next (
    if !identityOk s || phaseCode s.boot.phase < 4 then s
    else
      let t := evalStep (refreshReadings s)
      let u := (List.range 144).foldl (fun v c => evalRetire (evalScrub v c) c) t
      let v := (List.range 32).foldl evalSpare u
      { v with links := { v.links with retryLog := v.links.retryLog.filter (fun e => v.clk.us < e.2.1 + 1000000) } })

end Sys2Proof.Machine
end

