-- ==== Sys2Proof/Machine/Mgmt.lean ====
section
/-! DEFINITION. What Conas requests do: sessions, reads of objects and events, writes of objects; the MCTP endpoint under
them (R39, R40, R199, R200, R368, R438, R459, R522 to R568, R688). -/
namespace Sys2Proof.Machine

/-- What performing an accepted request gives: the state, the status and the response's body. -/
abbrev Perf := State × Nat × List Byte

/-! ## Bodies (R533, R563, R648) -/

def bodyNat (body : List Byte) (o n : Nat) : Nat := ofLe ((body.drop o).take n)

def odIndex (body : List Byte) : Nat := bodyNat body 0 2
def odSub (body : List Byte) : Nat := bodyNat body 2 1
def odKey (body : List Byte) : Nat := odIndex body * 256 + odSub body
def odOffset (body : List Byte) : Nat := bodyNat body 4 4

/-- Room for data in a response (R533). -/
def dataRoom (tr : Transport) : Nat := match tr with
  | .i3c => 1008
  | .sapline => 240

/-! ## Sessions (R540, R541) -/

/-- SESSION_OPEN: resumes the session of this token, transport and address, or opens the lowest free one. -/
def openSession (s : State) (h : ConasHdr) (body : List Byte) : Perf :=
  let token : BitVec 64 := BitVec.ofNat 64 (bodyNat body 0 8)
  let mine (k : Nat) : Bool := match sessionAt s k with
    | some x => x.token = token && x.transport = h.transport && x.address = h.address
    | none => false
  let answer (x : Session) (k resumed : Nat) : List Byte := leBytes (x.lastSeq.toNat + k * 2 ^ 16 + resumed * 2 ^ 20) 8
  match (List.range 8).find? mine with
  | some k =>
    match sessionAt s k with
    | some x => (s, 0, answer x k 1)
    | none => (s, 4, [])
  | none =>
    match (List.range 8).find? (fun k => sessionAt s k = none) with
    | some k =>
      let x : Session := { token := token, transport := h.transport, address := h.address,
                           privileged := bit (bodyNat body 8 8) 0 }
      (setSession s k (some x), 0, answer x k 0)
    | none => (s, 4, [])

def closeSession (s : State) (h : ConasHdr) : Perf := (setSession s h.session.toNat none, 0, [])

/-! ## OD_READ (R533, R536) -/

def readObject (s : State) (h : ConasHdr) (body : List Byte) : Perf :=
  match objOf s (odIndex body) (odSub body) with
  | none => (s, 0, [])
  | some o =>
    let want := bodyNat body 8 4
    let n := min (if want = 0 then dataRoom h.transport else want) (dataRoom h.transport)
    (s, 0, leBytes (o.ty + o.acc * 2 ^ 8 + o.val.length * 2 ^ 32) 8 ++ (o.val.drop (odOffset body)).take n)

/-! ## EVENT_READ (R559, R563, R564) -/

/-- An event-log entry. -/
def entryBytes (e : Event) : List Byte :=
  leBytes (e.seq % 2 ^ 32 + e.detail % 2 ^ 8 * 2 ^ 32 + b2n e.prior * 2 ^ 45 + e.sev * 2 ^ 46 + e.code * 2 ^ 48
    + e.unit % 2 ^ 16 * 2 ^ 64 + e.timeUs % 2 ^ 48 * 2 ^ 80 + e.payload.toNat * 2 ^ 128) 32

def eventPrefix (first head missed count : Nat) : List Byte :=
  leBytes (first % 2 ^ 32 + head % 2 ^ 32 * 2 ^ 32 + missed * 2 ^ 64 + count * 2 ^ 96) 16

def readEvents (s : State) (h : ConasHdr) (body : List Byte) : Perf :=
  let from_ := bodyNat body 0 4
  let n := min (bodyNat body 4 1) (if h.transport = .i3c then 31 else 7)
  if bit (bodyNat body 5 1) 0 then
    let es := (s.mram.persisted.drop from_).take n
    (s, 0, eventPrefix from_ s.mram.persisted.length 0 es.length ++ es.flatMap entryBytes)
  else
    let es := (s.log.entries.filter (fun e => from_ ≤ e.seq)).take n
    let first := match es with
      | e :: _ => e.seq
      | [] => from_
    (s, 0, eventPrefix first s.log.head (s.log.oldest - from_) es.length ++ es.flatMap entryBytes)

/-! ## Writes (R536 to R538) -/

/-- The ports have been opened to system traffic (R40, R467). -/
def portsOpened (s : State) : Bool := (portOf s 0).armed

/-- A value that a writable object takes, in the state it is in (R538). -/
def valueOk (s : State) (key : Nat) (bs : List Byte) : Bool :=
  let n := ofLe bs
  let within (lo hi : Nat) : Bool := lo ≤ n && n ≤ hi
  let collIdle : Bool := (List.range 16).all (fun k => cslot s k = none)
  match key with
  | 0x120003 => within 8 65535
  | 0x130006 => within 0 4
  | 0x210002 => within 1 15
  | 0x210003 => within 100 460
  | 0x210004 => within 10 10000
  | 0x210005 => bs.all (fun b => b.toNat ≤ 2)
  | 0x304001 => within 0x10000 0x40000000
  | 0x310002 => within 1 3
  | 0x400101 => within 60 86400
  | 0x400102 => within 1 255
  | 0x500002 => within 12 63
  | 0x500003 => n < 2 ^ 24 && (List.range 3).all (fun i => fld n (8 * i) 8 ≠ 0)
  | 0x500004 => within 16 65535
  | 0x510001 => within 0 2047 && !portsOpened s
  | 0x510002 => bs.all (fun b => b = 0 || (0x80 ≤ b.toNat && b.toNat ≤ 0x83))
  | 0x510004 => n < 2 ^ 40
  | 0x600001 => (n = 2 ^ 64 - 1 || (n % 64 = 0 && inRegions n 1024)) && collIdle
  | 0x600002 => (n ≤ 4095 || n = 0xFFFF) && collIdle
  | 0x600003 => (n ≤ 4095 || n = 0xFFFF) && collIdle
  | 0x600004 => within 10 10000000
  | 0x800004 => n ≤ 1 && s.fuse.lifecycle = 3
  | _ => true

/-- Bytes of one element of an object's type (R535). -/
def elemLen (ty : Nat) : Nat := match ty % 0x80 with
  | 3 => 2
  | 4 => 4
  | 5 => 8
  | 6 => 4
  | 7 => 4
  | _ => 1

/-- OFFSET and length of a write fit the object (R537). -/
def writeSpanOk (o : Obj) (off n : Nat) : Bool :=
  if o.acc = 5 then off = 0 && n = o.val.length
  else if o.ty = 9 then off + n ≤ o.val.length
  else if 0x80 ≤ o.ty then off % elemLen o.ty = 0 && n % elemLen o.ty = 0 && 0 < n && off + n ≤ o.val.length
  else off = 0 && n = o.val.length

/-- The object's bytes with `bs` at `off`. -/
def splice (old : List Byte) (off : Nat) (bs : List Byte) : List Byte := old.take off ++ bs ++ old.drop (off + bs.length)

/-- The command needs a privileged session (R557). -/
def privilegedCmd (key : Nat) : Bool := key = 0xF0000D

/-- An argument that a command's card allows (R479, R554, R557, R588); reserved bits are zero. -/
def argOk (sub : Nat) (bs : List Byte) : Bool :=
  let n := ofLe bs
  match sub with
  | 0x02 => n = 1 || n = 2
  | 0x03 => n ≤ 3
  | 0x04 => n ≤ 3
  | 0x05 => n ≤ 3
  | 0x07 => n ≤ 3
  | 0x0A => fld n 8 8 = 0 && 1 ≤ fld n 16 16 && fld n 16 16 ≤ 4096
  | 0x0B => true
  | 0x0C => fld n 28 4 = 0 && fld n 79 17 = 0 && fld n 112 16 = 0 && fld n 0 16 ≠ 0xFFFF
  | 0x0D => true
  | 0x0E => n ≤ 1
  | _ => n = 1

/-- A write of an object that is no command takes effect. -/
def writeObject (s : State) (key off : Nat) (bs : List Byte) : State :=
  if key = 0x800006 then
    { s with mgmt := { s.mgmt with
        fwStage := bs.zipIdx.foldl (fun m b => mset 0 m (off + b.2) b.1) s.mgmt.fwStage } }
  else
    let t : State := { s with mgmt := { s.mgmt with rt := mset [] s.mgmt.rt key (splice (odBytes s key) off bs) } }
    if key = 0x130006 || key = 0x130007 then refreshAlert t
    else if key = 0x210002 || key = 0x210003 then policyWritten t
    else t

/-! ## Checks of R688 -/

/-- What the checks find: a violation, an answer from the cache, or acceptance. -/
inductive Verdict where
  | refuse (status : Nat)
  | cached (r : ConasRsp)
  | ok
  deriving DecidableEq, Repr

/-- The code requires a session (R533). -/
def needsSession (code : Nat) : Bool := code = 2 || code = 0x11 || code = 0x32 || code = 0x33

/-- Step 4: the session (R544). -/
def badSession (s : State) (h : ConasHdr) (code : Nat) : Bool :=
  if h.session = 0xF then needsSession code
  else code = 1 || 8 ≤ h.session.toNat || boundSession s h = none

/-- Step 6: the body is not of the size that the code requires. -/
def badBody (code : Nat) (body : List Byte) : Bool :=
  match code with
  | 0x01 => body.length ≠ 16
  | 0x02 => body.length ≠ 0
  | 0x10 => body.length ≠ 12
  | 0x11 => body.length < 8
  | 0x20 => body.length ≠ 8
  | 0x30 => body.length ≠ 4
  | 0x31 => body.length ≠ 40
  | _ => body.length ≠ 8

/-- Steps 7 to 10 for OD_READ. -/
def readVerdict (s : State) (body : List Byte) : Verdict :=
  match objOf s (odIndex body) (odSub body) with
  | none => .refuse 0x23
  | some o =>
    if o.acc = 3 || o.acc = 5 then .refuse 0x24
    else if o.val.length < odOffset body then .refuse 0x21
    else if bodyNat body 3 1 ≠ 0 then .refuse 0x24
    else .ok

/-- Steps 7 to 10 for OD_WRITE; RETIRED refuses every write (R633). -/
def writeVerdict (s : State) (h : ConasHdr) (body : List Byte) : Verdict :=
  let key := odKey body
  let bs := body.drop 8
  let privileged : Bool := match boundSession s h with
    | some x => x.privileged
    | none => false
  match objOf s (odIndex body) (odSub body) with
  | none => .refuse 0x23
  | some o =>
    if o.acc = 1 || s.fuse.lifecycle = 5 || (privilegedCmd key && !privileged) then .refuse 0x24
    else if !writeSpanOk o (odOffset body) bs.length then .refuse 0x21
    else if bodyNat body 3 1 ≠ 0 then .refuse 0x24
    else if o.acc = 5 then (if argOk (odSub body) bs then .ok else .refuse 0x24)
    else if key = 0x800006 then .ok
    else if valueOk s key (if o.ty < 0x80 then bs else splice o.val (odOffset body) bs) then .ok
    else .refuse 0x24

/-- Steps 7 to 10: privilege, and values outside what a body's card lists. -/
def bodyVerdict (s : State) (h : ConasHdr) (code : Nat) (body : List Byte) : Verdict :=
  let when (bad : Bool) : Verdict := if bad then .refuse 0x24 else .ok
  match code with
  | 0x01 =>
    let flags := bodyNat body 8 8
    when (2 ≤ flags || bodyNat body 0 8 = 0 || (flags = 1 && s.fuse.lifecycle ≠ 1 && s.fuse.lifecycle ≠ 4))
  | 0x10 => readVerdict s body
  | 0x11 => writeVerdict s h body
  | 0x20 => when (bodyNat body 4 1 = 0 || 31 < bodyNat body 4 1 || 2 ≤ bodyNat body 5 3)
  | 0x31 => when (bodyNat body 4 4 ≠ 0)
  | 0x33 => when (2 ≤ bodyNat body 0 1 || bodyNat body 2 6 ≠ 0)
  | _ => .ok

/-- The checks, in order; the first that fails answers (R688). -/
def verdict (s : State) (h : ConasHdr) (code : Nat) (body : List Byte) : Verdict :=
  match headViolation { h := h, code := code, body := body } with
  | some st => .refuse st
  | none =>
    if badSession s h code then .refuse 0x26
    else
      let rest : Verdict := if badBody code body then .refuse 0x21 else bodyVerdict s h code body
      match boundSession s h with
      | none => rest
      | some x =>
        let d := (h.seq - x.lastSeq).toNat
        if d = 0 then (match x.cached with
          | some r => .cached r
          | none => .refuse 0x25)
        else if 256 < d then .refuse 0x25
        else rest

/-! ## The MCTP endpoint (R522 to R529) -/

/-- DYNAMIC_ADDRESS_ASSIGNMENT: identifier, BCR and DCR offered, an address taken (R523). -/
def execDynamicAddressAssignment (addr : BitVec 7) (s : State) : Out :=
  .next (
    if !s.pins.porst then s
    else
      let pid : BitVec 48 := BitVec.ofNat 48 (0x6E41 * 2 ^ 33 + 0xC288 * 2 ^ 16 + s.boot.slotId.toNat * 2 ^ 10
        + s.part.serial.toNat % 2 ^ 10)
      { s with mgmt := { s.mgmt with dynAddr := some addr, out := s.mgmt.out ++ [.daa pid 0x06 0x00] } })

/-- An MCTP control command is answered, once the port has its address. -/
def ctlAnswer (s : State) (m : MctpCtl) (bytes : List Byte) : State :=
  { s with mgmt := { s.mgmt with out := s.mgmt.out ++ [.mctp m.eid m.tag bytes] } }

def ctlServed (s : State) : Bool := s.pins.porst && s.mgmt.dynAddr.isSome

/-- Set Endpoint ID: the null and broadcast identifiers are invalid data (log 13). -/
def ctlSetEid (s : State) (m : MctpCtl) (eid : Byte) : State :=
  if eid = 0 || eid = 0xFF then ctlAnswer s m [2]
  else ctlAnswer { s with mgmt := { s.mgmt with eid := eid } } m [0, 0, eid, 0]

def ctlGetEid (s : State) (m : MctpCtl) : State := ctlAnswer s m [0, s.mgmt.eid, 0, 0]

/-- One version entry, which the spec does not give (log 9). -/
def ctlVersion (s : State) (m : MctpCtl) : State :=
  let d := draw s
  ctlAnswer d.2 m ([0, 1] ++ leBytes d.1.toNat 4)

def ctlTypes (s : State) (m : MctpCtl) : State := ctlAnswer s m [0, 1, 0x7F]

/-- Vendor by IANA number; the command-set version is not given (log 9). -/
def ctlVendor (s : State) (m : MctpCtl) : State :=
  let d := draw s
  ctlAnswer d.2 m ([0, 0xFF, 1, 0x00, 0x03, 0xE1, 0xA5] ++ leBytes d.1.toNat 2)

/-- SET_ENDPOINT_ID. -/
def execSetEndpointId (m : MctpCtl) (eid : Byte) (s : State) : Out := .next (if ctlServed s then ctlSetEid s m eid else s)

/-- GET_ENDPOINT_ID. -/
def execGetEndpointId (m : MctpCtl) (s : State) : Out := .next (if ctlServed s then ctlGetEid s m else s)

/-- GET_MCTP_VERSION_SUPPORT. -/
def execGetMctpVersionSupport (m : MctpCtl) (s : State) : Out := .next (if ctlServed s then ctlVersion s m else s)

/-- GET_MESSAGE_TYPE_SUPPORT. -/
def execGetMessageTypeSupport (m : MctpCtl) (s : State) : Out := .next (if ctlServed s then ctlTypes s m else s)

/-- GET_VENDOR_DEFINED_MESSAGE_SUPPORT. -/
def execGetVendorDefinedMessageSupport (m : MctpCtl) (s : State) : Out := .next (if ctlServed s then ctlVendor s m else s)

/-- An MCTP control message: the five commands of R524, and an answer to every other. -/
def ctlMessage (s : State) (m : MctpCtl) (bytes : List Byte) : State :=
  match (bytes.getD 2 0).toNat with
  | 1 => ctlSetEid s m (bytes.getD 4 0)
  | 2 => ctlGetEid s m
  | 4 => ctlVersion s m
  | 5 => ctlTypes s m
  | 6 => ctlVendor s m
  | _ => ctlAnswer s m [5]

/-- A whole MCTP message (R525, R529). -/
def mctpMessage (s : State) (src : Byte) (tag : BitVec 3) (bytes : List Byte) : State :=
  match bytes with
  | 0x7F :: 0x00 :: 0x03 :: 0xE1 :: 0xA5 :: msg => conasArrives s .i3c (src.setWidth 17) (tag.setWidth 15) msg
  | 0x00 :: _ => if bytes.length < 3 then discardMgmt s else ctlMessage s { eid := src, tag := tag } bytes
  | _ => discardMgmt s

/-- The unit continues this assembly. -/
def sameAssembly (u : MctpUnit) (a : Assembly) : Bool := a.srcEid = u.srcEid && a.tag = u.tag && a.owner = u.owner

def setAssembling (s : State) (as : List Assembly) : State := { s with mgmt := { s.mgmt with assembling := as } }

/-- MCTP_PACKET: one transmission unit, at most eight messages in assembly (R524, R529). -/
def execMctpPacket (u : MctpUnit) (s : State) : Out :=
  .next (
    let rest := s.mgmt.assembling.filter (fun a => !sameAssembly u a)
    let old := s.mgmt.assembling.find? (sameAssembly u)
    if !ctlServed s then s
    else if !u.pecOk || u.payload = [] || 64 < u.payload.length || (!u.eom && u.payload.length ≠ 64)
        || (u.dstEid ≠ s.mgmt.eid && u.dstEid ≠ 0) then discardMgmt s
    else if u.som then
      let t := setAssembling (if old = none then s else discardMgmt s) rest
      if u.eom then mctpMessage t u.srcEid u.tag u.payload
      else if 8 ≤ rest.length then discardMgmt t
      else setAssembling t (rest ++ [{ srcEid := u.srcEid, tag := u.tag, owner := u.owner, next := u.pktSeq + 1,
                                       bytes := u.payload }])
    else match old with
      | none => discardMgmt s
      | some a =>
        if a.next ≠ u.pktSeq then discardMgmt (setAssembling s rest)
        else if u.eom then mctpMessage (setAssembling s rest) u.srcEid u.tag (a.bytes ++ u.payload)
        else setAssembling s (rest ++ [{ a with next := u.pktSeq + 1, bytes := a.bytes ++ u.payload }]))

end Sys2Proof.Machine
end

