-- ==== Sys2Proof/Machine/Trust.lean ====
section
/-! DEFINITION. Identity document, quotes, owner provisioning, lifecycle requests, firmware installation and the test access
port (R628 to R655). -/
namespace Sys2Proof.Machine

/-- A trust response with status FAILED: its REASON (R637). -/
def trustFail (s : State) (reason : Nat) : Perf := (s, 5, leBytes reason 4)

/-- SIGNATURE_REJECTED (R638). -/
def rejectSig (s : State) (unit reason extra : Nat) (m : List Byte) : State :=
  raise s 0x101 unit reason (manifestPayload m + extra * 2 ^ 64)

/-- Bytes of fw_stage. -/
def staged (s : State) (o n : Nat) : List Byte := (List.range n).map (fun i => mget 0 s.mgmt.fwStage (o + i))

/-- `bs` in a field of `n` bytes. -/
def padTo (n : Nat) (bs : List Byte) : List Byte := (bs ++ List.replicate n 0).take n

/-- A document's bytes from OFFSET, with the prefix of R648. -/
def docRead (s : State) (h : ConasHdr) (doc : List Byte) (off : Nat) : Perf :=
  (s, 0, leBytes doc.length 8 ++ (doc.drop off).take (dataRoom h.transport))

/-! ## Identity document and quote (R648 to R651) -/

def tierIdBytes (s : State) : List Byte := (List.range 18).flatMap (fun t => leBytes (tierId s t) 8)

def identityDoc (s : State) : List Byte :=
  leBytes 0x49424D59 4 ++ leBytes 1 4 ++ leBytes s.part.serial.toNat 8 ++ tierIdBytes s
    ++ padTo 384 Config.deviceRsa ++ padTo 32 Config.deviceSlh ++ padTo 384 Config.endorseRsa ++ padTo 7856 Config.endorseSlh

/-- TRUST_GET_IDENTITY. -/
def getIdentity (s : State) (h : ConasHdr) (body : List Byte) : Perf := docRead s h (identityDoc s) (bodyNat body 0 4)

/-- A measurement entry (R650). -/
def measure (kind index version : Nat) (digest : List Byte) : List Byte :=
  leBytes (kind + index * 2 ^ 16 + version % 2 ^ 32 * 2 ^ 32) 16 ++ padTo 48 digest

def fixedEntries (s : State) : List Byte :=
  measure 1 s.boot.fwSlot s.boot.fwVersion.toNat (sha384 s.boot.fwManifest)
    ++ measure 2 0 s.mram.commitCount (sha384 (Config.storedBytes s.mgmt.nv))
    ++ measure 3 s.mgmt.profileActive 0 (match mget none s.mram.profiles s.mgmt.profileActive with
        | some m => sha384 (Config.storedBytes m)
        | none => [])
    ++ measure 4 0 s.mram.defects.length (sha384 (defectBytes s))
    ++ measure 5 0 s.fuse.ownerKeyState.toNat
        (if s.fuse.ownerKeyState = 1 then sha384 (s.fuse.ownerRsaHash ++ s.fuse.ownerSlhHash) else [])
    ++ measure 6 0 s.graft.log.length s.graft.chain

/-- The newest 32 grafts, oldest first, with their positions in the chain. -/
def graftEntries (s : State) : List Byte :=
  let n := s.graft.log.length
  (s.graft.log.zipIdx.drop (n - 32)).flatMap (fun g => measure 7 g.1.1.toNat (g.2 + 1) g.1.2)

def quoteBody (s : State) (nonce : List Byte) : List Byte :=
  leBytes 0x51424D59 4 ++ leBytes 1 2 ++ [s.fuse.lifecycle] ++ leBytes s.fuse.secVer 1 ++ leBytes s.part.serial.toNat 8
    ++ nonce ++ leBytes s.mram.bootCount 4 ++ leBytes (6 + min 32 s.graft.log.length) 2 ++ [0, 0] ++ leBytes s.clk.us 8
    ++ fixedEntries s ++ graftEntries s

def signedQuote (s : State) (nonce : List Byte) : List Byte :=
  let q := quoteBody s nonce
  q ++ padTo 384 (Config.rsaSign q) ++ padTo 17088 (Config.slhSign q)

/-- The last quote of a session, or of all sessionless requests (R649). -/
def quoteOf (s : State) (h : ConasHdr) : Option Quote :=
  match sessionAt s h.session.toNat with
  | some x => x.quote
  | none => s.mgmt.quote0

def setQuote (s : State) (h : ConasHdr) (q : Quote) : State :=
  match sessionAt s h.session.toNat with
  | some x => setSession s h.session.toNat (some { x with quote := some q })
  | none => { s with mgmt := { s.mgmt with quote0 := some q } }

/-- TRUST_GET_QUOTE: OFFSET 0 builds and signs; above 0 reads what was built, for the same NONCE (R632, R649). -/
def getQuote (s : State) (h : ConasHdr) (body : List Byte) : Perf :=
  let off := bodyNat body 0 4
  let nonce := body.drop 8
  if s.fuse.wrapDisabled || !s.mram.keys then trustFail s 0x13
  else if off = 0 then
    let bytes := signedQuote s nonce
    docRead (setQuote s h { nonce := nonce, bytes := bytes }) h bytes 0
  else match quoteOf s h with
    | none => trustFail s 0x11
    | some q => if q.nonce = nonce then docRead s h q.bytes off else trustFail s 0x12

/-! ## Lifecycle (R630 to R635, R644, R645, R654) -/

/-- The lifecycle state moves: LIFECYCLE_CHANGED; DEBUG and RETIRED blow the wrap-disable fuse; debug is locked again until
the release of R653. -/
def moveLifecycle (s : State) (goal : BitVec 8) : State :=
  raise { s with
    fuse := { s.fuse with lifecycle := goal, wrapDisabled := s.fuse.wrapDisabled || goal = 4 || goal = 5 }
    boot := { s.boot with debugLocked := true } } 0x100 goal.toNat s.fuse.lifecycle.toNat 0

/-- TRUST_OWNER_PROVISION. -/
def ownerProvision (s : State) (body : List Byte) : Perf :=
  let m := staged s 0 manifestLen
  if !s.part.ownerKeyable || s.fuse.lifecycle ≠ 2 || s.fuse.ownerKeyState ≠ 0 then trustFail s 0x10
  else if bodyNat body 0 8 ≠ s.part.serial.toNat then trustFail s 3
  else
    let r := manifestReason s 3 m
    if r ≠ 0 then trustFail (rejectSig s 3 r 0 m) r
    else
      (moveLifecycle { s with fuse := { s.fuse with
          ownerRsaHash := sha384 (mModulus m), ownerSlhHash := sha384 (mPk m), ownerKeyState := 1 } } 3, 0, [])

/-- A transition of R630 that a lifecycle request makes, MANUFACTURE goal VENDOR only with device keys (R635). -/
def listedMove (s : State) (goal : Nat) : Bool :=
  match s.fuse.lifecycle.toNat, goal with
  | 1, 2 => s.mram.keys
  | 2, 4 => true
  | 3, 4 => true
  | 1, 5 => true
  | 2, 5 => true
  | 3, 5 => true
  | 4, 5 => true
  | _, _ => false

/-- STEP 0: a fresh challenge of 32 bytes, which replaces any earlier one (log 9). -/
def newChallenge (s : State) : Perf :=
  let c := padTo 32 (Config.challenge s.free)
  ({ s with free := s.free + 1, mgmt := { s.mgmt with challenge := some c } }, 0, c)

/-- STEP 1: the staged manifest of KIND 0x04, the challenge and target in its digest field, the transition. -/
def unlockMove (s : State) (body : List Byte) : Perf :=
  let goal := bodyNat body 1 1
  let m := staged s 0 manifestLen
  match s.mgmt.challenge with
  | none => trustFail s 0x11
  | some c =>
    let r0 := manifestReason s 4 m
    let r := if r0 ≠ 0 then r0 else if mDigest m = c ++ leBytes goal 1 ++ List.replicate 15 0 then 0 else 8
    if r ≠ 0 then trustFail (rejectSig s 4 r 0 m) r
    else if !listedMove s goal then trustFail s 0x10
    else (moveLifecycle { s with mgmt := { s.mgmt with challenge := none } } (BitVec.ofNat 8 goal), 0, [])

/-- TRUST_DEBUG_UNLOCK. -/
def debugUnlock (s : State) (body : List Byte) : Perf := if bodyNat body 0 1 = 0 then newChallenge s else unlockMove s body

/-! ## FW_INSTALL (R643) -/

/-- The staged firmware: written and preferred, or rejected. -/
def installFirmware (s : State) (slot : Nat) : State × Nat :=
  let m := staged s 0 manifestLen
  let image := staged s manifestLen (min (mImageLen m) 1039824)
  let r := checkManifest s 1 m image
  if r = 0 then
    ({ s with mram := { s.mram with fwSlots := mset [] s.mram.fwSlots slot (m ++ image), preferred := slot } }, 0)
  else (rejectSig s 1 r 0 m, 5)

/-! ## TEST_ACCESS_PORT (R652, R653) -/

/-- Bits of a value, least significant first. -/
def bitsOf (n w : Nat) : List Bool := (List.range w).map (fun i => bit n i)

/-- What the port shifts out of a unit whose bits the spec does not give: free bits (log 9). -/
def freeBits (s : State) : List Bool := bitsOf (Config.freeWord s.free).toNat 32

/-- An instruction that debug_locked keeps from the port selects BYPASS (log 14). -/
def lockedOp (s : State) (t : Tap) : State :=
  if s.boot.debugLocked then { s with tap := { t with ir := 0, bypass := false, out := [false] } }
  else { s with free := s.free + 1, tap := { t with out := freeBits s } }

/-- TEST_ACCESS_PORT: BYPASS, IDCODE, SAMPLE/PRELOAD and EXTEST at all times, the rest while debug_locked reads 0; of MRAM
never the wrapped-key area. -/
def execTestAccessPort (op : TapOp) (s : State) : Out :=
  .next (match op with
    | .trst => { s with tap := {} }
    | .bypass bits =>
      { s with tap := { s.tap with ir := 0, bypass := (bits.getLast?).getD false, out := (false :: bits).take bits.length } }
    | .idcode => { s with tap := { s.tap with ir := 1, out := bitsOf 0x1C288FE7 32 } }
    | .samplePreload pre => { s with free := s.free + 1, tap := { s.tap with ir := 2, cells := pre, out := freeBits s } }
    | .extest => { s with tap := { s.tap with ir := 3, out := s.tap.cells } }
    | .ieee1838 _ => lockedOp s { s.tap with ir := 4 }
    | .startTestAccess => lockedOp s { s.tap with ir := 5 }
    | .mramRead wrapped =>
      if wrapped then { s with tap := { s.tap with ir := if s.boot.debugLocked then 0 else 6, out := [] } }
      else lockedOp s { s.tap with ir := 6 }
    | .unknown => { s with tap := { s.tap with ir := 0, bypass := false, out := [false] } })

end Sys2Proof.Machine
end

