-- ==== Sys2Proof/Machine/Commands.lean ====
section
/-! DEFINITION. The commands of range 0xF000, their completion, and the execution of every Conas request (R372, R467, R469,
R479 to R481, R531, R542 to R558, R581, R587 to R589, R647, R651). -/
namespace Sys2Proof.Machine

/-! ## NV image and profiles (R548 to R550) -/

/-- Current values of the objects that `p` selects, by key. -/
def currentValues (s : State) (p : ObjDef → Bool) : SMap (List Byte) :=
  (rwObjects.filter p).foldl (fun m o => mset [] m o.key (odValue s o)) []

def valuesLen (m : SMap (List Byte)) : Nat := (m.map (fun p => p.2.length)).sum

/-- NV_COMMIT, done. -/
def nvCommit (s : State) : State :=
  let m := currentValues s (fun o => o.nv)
  let n := (s.mram.commitCount + 1) % 2 ^ 32
  raise { s with mram := { s.mram with nvImage := m, nvUsed := valuesLen m, commitCount := n } } 0x08 0 0 n

/-- FACTORY_RESTORE, done: the image, and with 2 every profile. -/
def factoryRestore (s : State) (which : Nat) : State :=
  { s with mram := { s.mram with nvImage := [], nvUsed := 0, profiles := if which = 2 then [] else s.mram.profiles } }

/-- PROFILE_STORE, done. -/
def profileStore (s : State) (p : Nat) : State :=
  let m := currentValues s (fun o => o.prof)
  { s with mram := { s.mram with profiles := mset none s.mram.profiles p (some m) }
           mgmt := { s.mgmt with overlay := if s.mgmt.profileActive = p then m else s.mgmt.overlay } }

/-! ## RUN_BEGIN (R372, R483) -/

/-- Nothing of the leaf is under way: core, remote operations, reads, wait, misses. -/
def leafIdle (x : Leaf) : Bool := x.run ≠ .running && x.rem = [] && x.loads = [] && x.wait = none && x.cache.misses = []

def engineIdle (e : Engine) : Bool := e.queue = [] && !e.run.isSome

def columnIdle (c : Column) : Bool := c.posts = [] && c.queue = [] && c.active = []

/-- No leaf core runs and no engine operation, DMA, collective, remote operation or wait is outstanding. -/
def runMayBegin (s : State) : Bool :=
  s.leaves.all (fun p => leafIdle p.2) && s.engines.all (fun p => engineIdle p.2) && s.columns.all (fun p => columnIdle p.2)
    && (List.range 16).all (fun k => cslot s k = none)

def runBegin (s : State) : State :=
  { s with hub := { s.hub with gcs := [] }, leaves := mmap {} s.leaves (fun _ x => { x with lcs := [], lcOld := [] })
           coll := { s.coll with posts := 0 } }

/-! ## Ports (R467, R469) -/

/-- PORT_RESET: the port starts anew; what its buffers held is gone. -/
def portReset (s : State) (p : Nat) : State :=
  let x := portOf s p
  let t := setPort s p { armed := x.armed, absentRaised := x.absentRaised, since := s.clk.us }
  { t with links := { t.links with router := t.links.router.filter (fun iq => iq.1 ≠ p) } }

/-- PORTS_OPEN: every port is armed. -/
def portsOpen (s : State) : State :=
  (List.range 4).foldl (fun t p => armTrained (modPort t p (fun x => { x with armed := true })) p) s

/-! ## Groups (R479 to R481) -/

/-- A collective of the group occupies a slot. -/
def groupBusy (s : State) (g : Nat) : Bool :=
  (List.range 16).any (fun k => match cslot s k with
    | some x => x.group = g
    | none => false)

/-- The list lies in the heartwood, or in one window that admits this chiplet with RD. -/
def listInside (s : State) (off n : Nat) : Bool :=
  off + n ≤ 0x4800000000 || match placeOf off with
    | .spad l => placeOf (off + n - 1) = .spad l && windowAdmits s l (off % 0x40000) n false (originId s)
    | _ => false

def wordOk (w : Nat) : Bool := w < 0x1FFFF && w % 64 < 40

/-- Members that all other groups hold. -/
def otherMembers (s : State) (g : Nat) : Nat :=
  ((s.coll.groups.filter (fun p => p.1 ≠ g)).map (fun p => p.2.members.length)).sum

/-- The list's words read, where R479 allows the installation. -/
def groupRead (s : State) (arg : Nat) : State × Option (List Nat) :=
  let g := fld arg 0 8
  let n := fld arg 16 16
  let off := fld arg 32 64
  if groveId s = 0xFFFF || groupBusy s g || !listInside s off (4 * n) || 262144 < otherMembers s g + n then (s, none)
  else
    let f := collRead s off (4 * n)
    let ws := (wordsOfBytes (f.2.getD [])).map BitVec.toNat
    (f.1, if f.2.isSome && ws.all wordOk && ws.eraseDups.length = n && ws.contains (chipId s) then some ws else none)

def groupList (s : State) (arg : Nat) : Option (List Nat) := (groupRead s arg).2

def groupInstall (s : State) (arg : Nat) (ws : List Nat) : State :=
  let x : CGroup :=
    { members := ws.map (fun w => BitVec.ofNat 17 w), rank := ws.idxOf (chipId s), nextSeq := 0,
      crc := crc32c (ws.flatMap (fun w => leBytes w 4)) }
  { s with coll := { s.coll with groups := mset {} s.coll.groups (fld arg 0 8) x } }

/-! ## GRAFT_LOAD (R587 to R589, R592, R647, R651) -/

/-- A LEAF_RECORD that GRAFT_LOAD does not broadcast. -/
def recordRefused (q : BitVec 4 × Canopy) : Bool := q.1 = 3 && recBad (recOf q.2)

/-- Packet `i` of the image breaks R587 to R589. -/
def pktRefused (s : State) (image : BitVec 16) (q : BitVec 4 × Canopy) (i : Nat) : Bool :=
  q.2.seq.toNat ≠ i || q.2.image ≠ image || 4 < q.1.toNat || q.2.rsv
    || (pktTooFar q.1.toNat q.2 && (allLeaves s).any (inTarget q.2)) || !crcOk q.2 || recordRefused q

/-- The next slot that the image's packets leave at leaf `l`. -/
def imageSlot (ps : List (BitVec 4 × Canopy)) (l : Nat) : Slot :=
  (ps.filter (fun q => q.1 = 2 && inTarget q.2 l)).foldl
    (fun m q => (payDwords q.2).zipIdx.foldl (fun n w => slotWord n (q.2.offset.toNat + w.2) w.1) m) {}

/-- At leaf `l`, whose record selects a cache, a task window, initial contents or a timed deposit of the image reaches a row
of it (R161). -/
def reachesCache (ps : List (BitVec 4 × Canopy)) (r : BitVec 1024) (l : Nat) : Bool :=
  let lim := rowsUnder (recCache r)
  let n := imageSlot ps l
  (List.range 4).any (fun i => let w := (recTask r true i).toNat
    lim < fld w 0 12 + fld w 16 13)
    || ps.any (fun q => q.1 = 0 && inTarget q.2 l && lim < q.2.offset.toNat + q.2.payload.length / 2)
    || (slotValid n && (List.range 2).any (fun k => ptrPlanes n k ≠ [] && (ptrRows n k).any (fun i => lim ≤ i)))

/-- A record of the image selects a cache that the image reaches into (R161). -/
def imageInCache (s : State) (ps : List (BitVec 4 × Canopy)) : Bool :=
  ps.any (fun q => q.1 = 3 && recCache (recOf q.2) ≠ 0
    && (allLeaves s).any (fun l => inTarget q.2 l && reachesCache ps (recOf q.2) l))

/-- A targeted leaf runs or is fenced. -/
def targetBusy (s : State) (ls : List Nat) : Bool := ls.any (fun l => (leafOf s l).run = .running || leafFenced s l)

/-- The lines that the image occupies read whole, and none of them lies outside the heartwood. -/
def imageReadable (s : State) (off n : Nat) : Bool :=
  off + n ≤ 0x4800000000
    && s.hwPoison.all (fun p => p.1 < off / 64 || (off + n - 1) / 64 < p.1)
    && (List.range (n / 0x80000000 + 2)).all (fun i =>
        let c := off / 0x80000000 + i
        off + n ≤ c * 0x80000000 || (!colFailed s c && !colFenced s c))

/-- GRAFT_LOAD is accepted: the image is checked, and broadcast with the END of round 0, or nothing is. -/
def graftLoad (s : State) (arg : Nat) : State :=
  let image : BitVec 16 := BitVec.ofNat 16 arg
  let off := fld arg 32 47
  let n := fld arg 96 16 + 1
  let done := fld arg 16 12
  let ps := readImage s off n
  let len := imageLen ps
  let targets := imageTargets s ps
  let bytes := mread s off len
  let bad : Bool := 32768 < n || !imageReadable s off len || ps.zipIdx.any (fun q => pktRefused s image q.1 q.2)
    || targetBusy s targets || imageInCache s ps
  let m := if off < manifestLen then [] else mread s (off - manifestLen) manifestLen
  let sig := if bad || odNat s 0x800004 = 0 then 0 else checkManifest s 2 m bytes
  let s1 := if sig = 0 then s else rejectSig s 2 sig image.toNat m
  let g : GraftLoad :=
    { off := off, packets := n, image := image, doneGc := done, startValue := (gcGet s done).toNat + targets.length,
      endAt := s.clk.us, targets := targets, digest := sha384 bytes, failed := bad || sig ≠ 0 }
  let bus : List BusPkt := ps.map (fun q => { leaf := none, kind := q.1, p := q.2 })
    ++ [{ leaf := none, kind := 5, p := endPacket g 0 }]
  { s1 with graft := { s1.graft with load := some g, grafts := s1.graft.grafts + 1, bus := if g.failed then [] else onBus s.clk.cclk bus } }

/-- The image is in place: graft_image_id, the chain and its log (R597, R651). -/
def graftDone (s : State) (g : GraftLoad) : State :=
  { s with graft := { s.graft with load := none, imageId := g.image, chain := sha384 (s.graft.chain ++ g.digest)
                                   log := s.graft.log ++ [(g.image, g.digest)] } }

/-! ## Commands (R554 to R557) -/

/-- The command's precondition holds (R557). -/
def precondition (s : State) (sub arg : Nat) : Bool :=
  match sub with
  | 0x05 => arg ≠ s.mgmt.profileActive
  | 0x06 => s.boot.phase = .compute || s.boot.phase = .crownDown
  | 0x08 => groveId s ≠ 0xFFFF
  | 0x09 => runMayBegin s
  | 0x0A => (groupList s arg).isSome
  | 0x0B => !groupBusy s arg
  | 0x0C => s.boot.phase = .compute
  | 0x0E => s.boot.recovery || arg ≠ s.boot.fwSlot
  | _ => true

/-- Commands that answer PENDING. -/
def runsOn (sub : Nat) : Bool := [0x01, 0x02, 0x04, 0x06, 0x0A, 0x0C, 0x0E].contains sub

/-- Effect of a command that completes within its request. -/
def commandNow (s : State) (sub arg : Nat) : State :=
  match sub with
  | 0x03 => { s with mgmt := { s.mgmt with profilePending := arg } }
  | 0x05 => { s with mram := { s.mram with profiles := mset none s.mram.profiles arg none } }
  | 0x07 => portReset s arg
  | 0x08 => portsOpen s
  | 0x09 => runBegin s
  | 0x0B => { s with coll := { s.coll with groups := mset {} s.coll.groups arg {} } }
  | 0x0D =>
    let gone := if arg = 0xFFFF then s.mram.defects else (s.mram.defects.drop arg).take 1
    { s with boot := { s.boot with clears := s.boot.clears ++ gone } }
  | _ => s

/-- What a command that runs on does when it is accepted. -/
def commandStart (s : State) (sub arg : Nat) : State :=
  match sub with
  | 0x06 => beginCrownReset s 1
  | 0x0C => graftLoad s arg
  | _ => s

/-- An accepted command: BUSY, PRECONDITION, PENDING or OK, shown in cmd_status. -/
def runCommand (s : State) (h : ConasHdr) (sub : Nat) (bs : List Byte) : Perf :=
  let arg := ofLe bs
  let seq := h.seq.toNat
  let running : Bool := match s.mgmt.pend with
    | some p => p.sub = sub
    | none => false
  if s.mgmt.pend ≠ none then (if running then s else setCmdStatus s sub 2 2 seq, 2, [])
  else if !precondition s sub arg then (setCmdStatus s sub 2 3 seq, 3, [])
  else if runsOn sub then
    let p : PendCmd := { sub := sub, session := h.session, seq := h.seq, arg := bs }
    let t := setCmdStatus { s with mgmt := { s.mgmt with pend := some p } } sub 1 1 seq
    (commandStart t sub arg, 1, [])
  else (commandNow (setCmdStatus s sub 2 0 seq) sub arg, 0, [])

/-- Final status of the PENDING command and the state with its effect, once it can complete (R555, R557). -/
def completion (s : State) (p : PendCmd) : Option (State × Nat) :=
  let arg := ofLe p.arg
  match p.sub with
  | 0x01 => some (nvCommit s, 0)
  | 0x02 => some (factoryRestore s arg, 0)
  | 0x04 => some (profileStore s arg, 0)
  | 0x06 =>
    if s.boot.crownSeq then none
    else if s.boot.phase = .compute then some (s, 0)
    else if s.boot.phase = .crownDown then some (s, 5)
    else none
  | 0x0A => match groupRead s arg with
    | (t, some ws) => some (groupInstall t arg ws, 0)
    | (t, none) => some (t, 5)
  | 0x0C => match s.graft.load with
    | some g =>
      if g.failed then some ({ s with graft := { s.graft with load := none, bus := [] } }, 5)
      else if g.startValue ≤ (gcGet s g.doneGc).toNat then some (graftDone s g, 0)
      else none
    | none => some (s, 6)
  | _ => some (installFirmware s arg)

/-- CMD_DONE: the PENDING command completes. -/
def execCmdDone (s : State) : Out :=
  .next (match s.mgmt.pend with
    | some p => match completion s p with
      | some r => finishCmd r.1 p r.2
      | none => s
    | none => s)

/-! ## Execution of a request (R531, R542 to R544, R688) -/

/-- OD_WRITE: a command, or a value. -/
def performWrite (s : State) (h : ConasHdr) (body : List Byte) : Perf :=
  if odIndex body = 0xF000 then runCommand s h (odSub body) (body.drop 8)
  else (writeObject s (odKey body) (odOffset body) (body.drop 8), 0, [])

def perform (s : State) (h : ConasHdr) (code : Nat) (body : List Byte) : Perf :=
  match code with
  | 0x01 => openSession s h body
  | 0x02 => closeSession s h
  | 0x10 => readObject s h body
  | 0x11 => performWrite s h body
  | 0x20 => readEvents s h body
  | 0x30 => getIdentity s h body
  | 0x31 => getQuote s h body
  | 0x32 => ownerProvision s body
  | _ => debugUnlock s body

/-- An accepted request: LAST_SEQ, execution, the response cached and sent. -/
def accepted (s : State) (h : ConasHdr) (code : Nat) (body : List Byte) : State :=
  let k := h.session.toNat
  let s1 := match boundSession s h with
    | some x => setSession s k (some { x with lastSeq := h.seq })
    | none => s
  let r := perform s1 h code body
  let rsp := mkRsp h code r.2.1 r.2.2
  let s2 := match boundSession r.1 h with
    | some x => setSession r.1 k (some { x with cached := some rsp })
    | none => r.1
  sendRsp s2 h rsp

/-- A request is executed: it leaves the inbox, is checked under R688, and answered; before OD_ASSEMBLY it is discarded
(R530). Behind another it waits; one that is not in the inbox arrives now (R41, R531). -/
def serve (s0 : State) (h : ConasHdr) (code : Nat) (body : List Byte) : State :=
  let same (m : ConasMsg) : Bool := m.h = h && m.code = code && m.body = body
  let s : State := { s0 with mgmt := { s0.mgmt with inbox := s0.mgmt.inbox.eraseP same } }
  if !s.pins.porst then s0
  else if s0.mgmt.inbox ≠ [] && !s0.mgmt.inbox.head?.any same then
    (if s0.mgmt.inbox.any same || phaseCode s.boot.phase < 2 then s0 else acceptMsg s0 { h := h, code := code, body := body })
  else if phaseCode s.boot.phase < 2 then discardMgmt s
  else match verdict s h code body with
    | .refuse st =>
      violate s h code st (if code = 0x10 || code = 0x11 then odIndex body else 0)
        (if code = 0x10 || code = 0x11 then odSub body else 0)
    | .cached r => sendRsp s h r
    | .ok => accepted s h code body

/-- The body of an OD request. -/
def odBody (ix sub rsv off : Nat) (data : List Byte) : List Byte :=
  leBytes (ix + sub * 2 ^ 16 + rsv * 2 ^ 24 + off * 2 ^ 32) 8 ++ data

/-- An OD_WRITE of one object. -/
def serveWrite (s : State) (ix sub : Nat) (q : CmdReq) : State := serve s q.h 0x11 (odBody ix sub 0 q.offset.toNat q.data)

/-- SESSION_OPEN (R540, R541). -/
def execSessionOpen (q : Conas) (s : State) : Out := .next (serve s q.h 0x01 q.body)

/-- SESSION_CLOSE (R545). -/
def execSessionClose (q : Conas) (s : State) : Out := .next (serve s q.h 0x02 q.body)

/-- OD_READ (R533). -/
def execOdRead (q : OdReq) (s : State) : Out :=
  .next (serve s q.h 0x10 (odBody q.index.toNat q.sub.toNat q.zero.toNat q.offset.toNat q.data))

/-- OD_WRITE (R542). -/
def execOdWrite (q : OdReq) (s : State) : Out :=
  .next (serve s q.h 0x11 (odBody q.index.toNat q.sub.toNat q.zero.toNat q.offset.toNat q.data))

/-- A write of grove_id (R39, R40). -/
def execGroveId (q : CmdReq) (s : State) : Out := .next (serveWrite s 0x5100 0x01 q)

/-- A write of alert_ack_seq (R527). -/
def execAlertAckSeq (q : CmdReq) (s : State) : Out := .next (serveWrite s 0x1300 0x07 q)

/-- A write of gov_power_budget (R627). -/
def execGovPowerBudget (q : CmdReq) (s : State) : Out := .next (serveWrite s 0x2100 0x03 q)

/-- A write of gov_steps_permitted (R627). -/
def execGovStepsPermitted (q : CmdReq) (s : State) : Out := .next (serveWrite s 0x2100 0x02 q)

/-- EVENT_READ (R563). -/
def execEventRead (q : Conas) (s : State) : Out := .next (serve s q.h 0x20 q.body)

/-- EVENTS_SUPPRESSED: at the start of a second, the last one's suppressed counts (R562). -/
def execEventsSuppressed (s : State) : Out := .next (if s.pins.porst then flushSuppressed (rollSecond s) else s)

/-- TRUST_GET_IDENTITY (R648). -/
def execTrustGetIdentity (q : Conas) (s : State) : Out := .next (serve s q.h 0x30 q.body)

/-- QUOTE_BUILD: TRUST_GET_QUOTE with OFFSET 0 (R649). -/
def execQuoteBuild (q : Conas) (s : State) : Out := .next (if bodyNat q.body 0 4 = 0 then serve s q.h 0x31 q.body else s)

/-- QUOTE_READ: TRUST_GET_QUOTE with OFFSET above 0 (R649). -/
def execQuoteRead (q : Conas) (s : State) : Out := .next (if bodyNat q.body 0 4 ≠ 0 then serve s q.h 0x31 q.body else s)

/-- TRUST_OWNER_PROVISION (R644, R645). -/
def execTrustOwnerProvision (q : Conas) (s : State) : Out := .next (serve s q.h 0x32 q.body)

/-- TRUST_DEBUG_UNLOCK with STEP 0 (R654). -/
def execDebugUnlockChallenge (q : Conas) (s : State) : Out :=
  .next (if bodyNat q.body 0 1 = 0 then serve s q.h 0x33 q.body else s)

/-- TRUST_DEBUG_UNLOCK with STEP 1 (R654). -/
def execDebugUnlockTransition (q : Conas) (s : State) : Out :=
  .next (if bodyNat q.body 0 1 ≠ 0 then serve s q.h 0x33 q.body else s)

/-- NV_COMMIT (R548). -/
def execNvCommit (q : CmdReq) (s : State) : Out := .next (serveWrite s 0xF000 0x01 q)

/-- FACTORY_RESTORE (R548). -/
def execFactoryRestore (q : CmdReq) (s : State) : Out := .next (serveWrite s 0xF000 0x02 q)

/-- PROFILE_SELECT (R551). -/
def execProfileSelect (q : CmdReq) (s : State) : Out := .next (serveWrite s 0xF000 0x03 q)

/-- PROFILE_STORE (R550). -/
def execProfileStore (q : CmdReq) (s : State) : Out := .next (serveWrite s 0xF000 0x04 q)

/-- PROFILE_CLEAR (R557). -/
def execProfileClear (q : CmdReq) (s : State) : Out := .next (serveWrite s 0xF000 0x05 q)

/-- CROWN_RESET (R586). -/
def execCrownReset (q : CmdReq) (s : State) : Out := .next (serveWrite s 0xF000 0x06 q)

/-- PORT_RESET (R469). -/
def execPortReset (q : CmdReq) (s : State) : Out := .next (serveWrite s 0xF000 0x07 q)

/-- PORTS_OPEN (R467). -/
def execPortsOpen (q : CmdReq) (s : State) : Out := .next (serveWrite s 0xF000 0x08 q)

/-- RUN_BEGIN (R372). -/
def execRunBegin (q : CmdReq) (s : State) : Out := .next (serveWrite s 0xF000 0x09 q)

/-- GROUP_INSTALL (R479, R480). -/
def execGroupInstall (q : CmdReq) (s : State) : Out := .next (serveWrite s 0xF000 0x0A q)

/-- GROUP_REMOVE (R481). -/
def execGroupRemove (q : CmdReq) (s : State) : Out := .next (serveWrite s 0xF000 0x0B q)

/-- GRAFT_LOAD (R588, R589). -/
def execGraftLoad (q : CmdReq) (s : State) : Out := .next (serveWrite s 0xF000 0x0C q)

/-- DEFECT_CLEAR (R581). -/
def execDefectClear (q : CmdReq) (s : State) : Out := .next (serveWrite s 0xF000 0x0D q)

/-- FW_INSTALL (R643). -/
def execFwInstall (q : CmdReq) (s : State) : Out := .next (serveWrite s 0xF000 0x0E q)

end Sys2Proof.Machine
end

