-- ==== Sys2Proof/Machine/Flow.lean ====
section
/-! DEFINITION. The flow fabric: transfers and credits, growth rings, spill areas, and deadlock detection at the members and
at the hub (R319, R320, R322, R324 to R350). -/
namespace Sys2Proof.Machine

/-! ## Routes (R320, R327) -/

/-- The sink that a source feeds in a configuration: 0–3 N E S W, 4–7 queues, 8 the deposit path. -/
def sinkOf (x : Slot) (p src : Nat) : Option Nat :=
  match (List.range 8).find? (fun i => routeSel (routeOf x p) i = src) with
  | some i => some i
  | none => if flowDep x p = src then some 8 else none

/-- The source that a sink of the current slot takes from, 0 where none. -/
def curSource (x : Leaf) (p i : Nat) : Nat :=
  if i < 8 then routeSel (routeOf x.sw.cur p) i else flowDep x.sw.cur p

/-- What becomes of a token or marker at the head of a source. -/
inductive FlowRoute where
  | waits
  | nowhere
  | stale
  | sink (i : Nat) (next : Bool)
  deriving DecidableEq, Repr

def sinkRoute (o : Option Nat) (next : Bool) : FlowRoute :=
  match o with
  | some i => .sink i next
  | none => .nowhere

/-- The configuration that routes a ring (R327). -/
def flowRoute (x : Leaf) (p src : Nat) (ring : BitVec 2) : FlowRoute :=
  let r := slotRing x.sw.cur
  if ring = r then sinkRoute (sinkOf x.sw.cur p src) false
  else if ring = r + 1 then
    if slotValid x.sw.nxt && planeFlow x.sw.nxt p then sinkRoute (sinkOf x.sw.nxt p src) true else .waits
  else if ring = r + 2 then .waits
  else .stale

/-- The sink has flipped, or has no current source (R333). -/
def sinkFlipped (x : Leaf) (p i : Nat) : Bool := curSource x p i = 0 || mget false x.sw.flips (i + 9 * p)

/-! ## Sources: links 1–4 from N E S W, ports 5 and 6 -/

def flowToks (x : Leaf) (p src : Nat) : List Tok :=
  if src ≤ 4 then mget [] x.sw.lbuf (linkKey (src - 1) p) else portToks x (2 * p + (src - 5))

/-- Cycles count in CCLK at a link and in the core's own time at a port (R89, R300). -/
def sourceNow (s : State) (l src : Nat) : Nat := if src ≤ 4 then s.clk.cclk else leafNow s (leafOf s l)

/-- The head that a source offers in this cycle. -/
def flowHead (s : State) (l p src : Nat) : Option Tok :=
  match flowToks (leafOf s l) p src with
  | t :: _ => if t.ready ≤ sourceNow s l src then some t else none
  | [] => none

/-- The head leaves its source; a link input returns its credit after the hop latency (R325). -/
def takeFlow (s : State) (l p src : Nat) : State :=
  if src ≤ 4 then
    let d := src - 1
    let t := modLeaf s l (fun x => { x with sw := { x.sw with
      lbuf := mmod [] x.sw.lbuf (linkKey d p) (fun ts => ts.drop 1) } })
    match neighbour s l d with
    | some n => modLeaf t n (fun y => { y with sw := { y.sw with
        returning := mmod [] y.sw.returning (linkKey (opposite d) p) (fun cs => cs ++ [s.clk.cclk + hopLat l n]) } })
    | none => t
  else modLeaf s l (fun x => setPortToks x (2 * p + (src - 5)) ((portToks x (2 * p + (src - 5))).drop 1))

/-! ## Spill areas (R344, R346) -/

/-- Tokens that the spill area of queue `q` holds. -/
def spillCap (x : Leaf) (q : Nat) : Nat := if q < 4 then spVRows x.sw.cur else 8 * spSRows x.sw.cur

def spillUsed (x : Leaf) (q : Nat) : Nat := mget 0 x.sw.spillWr q - mget 0 x.sw.spillRd q

/-- First word of the area's `k`-th place. -/
def spillWord (x : Leaf) (q k : Nat) : Nat :=
  let c := x.sw.cur
  let j := k % spillCap x q
  if q < 4 then (spBase c + q * spVRows c + j) * 16
  else (spBase c + 4 * spVRows c + (q - 4) * spSRows c) * 16 + 2 * j

def inSpill (x : Leaf) (q : Nat) : Bool := mget false x.sw.spilling q

def spillRoom (x : Leaf) (q : Nat) : Bool := spillUsed x q < spillCap x q

/-- The words of a token in its spill place. -/
def spillVals (q : Nat) (t : Tok) : List Word := if q < 4 then t.data else [lane t.data 0, t.tag.setWidth 32]

/-- The token goes to the tail of the area through the deposit path (R346, R347). -/
def spillTok (x : Leaf) (q : Nat) (t : Tok) (c : Nat) : Leaf :=
  let k := mget 0 x.sw.spillWr q
  { x with
    deposits := x.deposits ++ [{ at_ := c, word := spillWord x q k, vals := spillVals q t, spill := true }]
    sw := { x.sw with spillWr := mset 0 x.sw.spillWr q (k + 1) }
    netCounters := mmod 0 x.netCounters 21 (fun v => sat32 (v + 1)) }

/-! ## Acceptance (R325, R328, R333, R345, R346) -/

/-- Queue number of a queue sink. -/
def sinkQueue (p i : Nat) : Nat := 4 * p + (i - 4)

/-- The token or marker needs the deposit path: a flow deposit's, or a spill write's. -/
def usesPath (x : Leaf) (p i : Nat) : Bool := i = 8 || (4 ≤ i && inSpill x (sinkQueue p i))

/-- The place behind the sink has room for the token or marker. -/
def sinkRoom (s : State) (l p i : Nat) : Bool :=
  let x := leafOf s l
  if i < 4 then
    match neighbour s l i with
    | some n => mget 0 x.sw.spent (linkKey i p) < linkCap l n
    | none => false
  else if i = 8 then true
  else
    let q := sinkQueue p i
    if inSpill x q then spillRoom x q else (queueOf x q).toks.length < qcap q

/-- A head that passes its switch in this cycle, and the cycles it has waited. -/
structure FlowMove where
  p : Nat
  src : Nat
  tok : Tok
  waited : Nat
  route : FlowRoute
  deriving DecidableEq, Repr

/-- A token at a port that no sink takes waits there; at a link input it is discarded, as a marker is anywhere (R322,
R332). -/
def moveOf (s : State) (l p src : Nat) : Option FlowMove :=
  match flowHead s l p src with
  | none => none
  | some t =>
    let x := leafOf s l
    let w := sourceNow s l src - t.ready
    match flowRoute x p src t.ring with
    | .waits => none
    | .stale => some ⟨p, src, t, w, .stale⟩
    | .nowhere => if src ≤ 4 || t.marker then some ⟨p, src, t, w, .nowhere⟩ else none
    | .sink i next =>
      if sinkFlipped x p i = next && sinkRoom s l p i then some ⟨p, src, t, w, .sink i next⟩ else none

def movePath (x : Leaf) (m : FlowMove) : Bool :=
  match m.route with
  | .sink i _ => usesPath x m.p i
  | _ => false

def moveSpills (m : FlowMove) : Bool :=
  match m.route with
  | .sink i _ => i ≠ 8
  | _ => false

/-- `a` goes before `b` on the deposit path: it has waited longer, or as long and is a spill write (R328). -/
def pathBefore (a b : FlowMove) : Bool :=
  b.waited < a.waited || (a.waited = b.waited && moveSpills a && !moveSpills b)

/-- Every head that its sink can take. -/
def flowWants (s : State) (l : Nat) : List FlowMove :=
  (List.range 2).flatMap (fun p =>
    if planeFlow (leafOf s l).sw.cur p then (List.range 6).filterMap (fun k => moveOf s l p (k + 1)) else [])

/-- A spill write waits at its sink (R337). -/
def spillWaits (s : State) (l : Nat) : Bool :=
  (flowWants s l).any (fun m => movePath (leafOf s l) m && moveSpills m && !m.tok.marker)

/-- The heads that pass in this cycle: of those that want the deposit path one, and none while a timed deposit uses it. -/
def flowMoves (s : State) (l : Nat) : List FlowMove :=
  let x := leafOf s l
  let ms := flowWants s l
  let path := ms.filter (movePath x)
  let busy := x.deposits.any (fun d => d.at_ = s.clk.cclk)
  let best := path.foldl (fun (o : Option FlowMove) m => match o with
    | some b => if pathBefore m b then some m else o
    | none => some m) none
  ms.filter (fun m => !movePath x m || (!busy && best = some m))

/-! ## Transfers -/

/-- A marker passes into its sink: the sink flips, or flips again once the next slot is current (R333). -/
def flipSink (x : Leaf) (c p i : Nat) (next : Bool) : Leaf :=
  { x with sw := { x.sw with flipAt := c, flips := mset false x.sw.flips (i + 9 * p + (if next then 18 else 0)) true } }

/-- A token or marker goes out on a link and spends a credit; at a timed plane it is a stray (R306, R325, R326). -/
def sendFlow (s : State) (l p d : Nat) (t : Tok) : State :=
  match neighbour s l d with
  | none => s
  | some n =>
    let s1 := modLeaf s l (fun x => { x with sw := { x.sw with
      spent := mmod 0 x.sw.spent (linkKey d p) (fun v => v + 1) } })
    let y := leafOf s1 n
    if slotValid y.sw.cur && !planeFlow y.sw.cur p then bumpNet s1 n 3 1
    else setLeaf s1 n { y with sw := { y.sw with
      lbuf := mmod [] y.sw.lbuf (linkKey (opposite d) p) (fun ts => ts ++ [{ t with ready := s.clk.cclk + hopLat l n }]) } }

/-- The deposit pointers of the configuration that routes the token (R284, R329, R334). -/
def flowDeposit (x : Leaf) (next : Bool) (t : Tok) (c : Nat) : Leaf :=
  let sl := if next then x.sw.nxt else x.sw.cur
  let one := bit sl.vroute.toNat 31
  let p := if one then sl.dp1 else sl.dp0
  let upd := if one then { sl with dp1 := dpNext p } else { sl with dp0 := dpNext p }
  { x with sw := if next then { x.sw with nxt := upd } else { x.sw with cur := upd },
           deposits := x.deposits ++ [{ at_ := c, word := dpWord p (dpIndex p), vals := t.data }] }

/-- The head enters its sink. -/
def enterSink (s : State) (l p i : Nat) (next : Bool) (t : Tok) : State :=
  let s1 := if t.marker then modLeaf s l (fun x => flipSink x s.clk.cclk p i next) else s
  if i < 4 then sendFlow s1 l p i t
  else if t.marker then s1
  else if i = 8 then modLeaf s1 l (fun x => flowDeposit x next t s.clk.cclk)
  else
    let q := sinkQueue p i
    modLeaf s1 l (fun x =>
      if inSpill x q then spillTok x q t s.clk.cclk
      else
        let v := queueOf x q
        setQueue x q { v with toks := v.toks ++ [{ t with ready := leafNow s x + 1 }] })

def doMove (l : Nat) (s : State) (m : FlowMove) : State :=
  let t := takeFlow s l m.p m.src
  match m.route with
  | .waits => s
  | .nowhere => if m.tok.marker then t else bumpNet t l 17 1
  | .stale => raise (bumpNet t l 18 1) 0x47 l m.tok.ring.toNat 0
  | .sink i next => enterSink t l m.p i next m.tok

/-- The leaf is no longer flow-quiet in cycle `c`: what it has sent as QUIET it takes back with CLEAR (R338). -/
def notQuiet (c : Nat) (x : Leaf) : Leaf :=
  { x with sw := { x.sw with
      quietFor := 0, quietSent := false
      flags := if x.sw.quietSent then x.sw.flags ++ [(false, c)] else x.sw.flags } }

def fabricRuns (s : State) (l : Nat) : Bool := crownRuns s && leafOk s l && !leafFenced s l

/-- FLOW_TRANSFER: one cycle of the leaf's flow-mode sinks, after a timed plane's entry of the same cycle, whose deposit goes first
(R325, R326, R328, R338). -/
def execFlowTransfer (l : Nat) (s : State) : Out :=
  .next (
    let x := leafOf s l
    if !fabricRuns s l || !slotFlow x.sw.cur || x.sw.xferAt = s.clk.cclk + 1 || (canAdvance s l && !x.sw.held) then s
    else
      let ms := flowMoves s l
      let t := ms.foldl (doMove l) s
      modLeaf t l (fun y =>
        let z := if ms = [] then y else notQuiet s.clk.cclk y
        { z with sw := { z.sw with xferAt := s.clk.cclk + 1, moved := z.sw.moved || ms ≠ [] } }))

/-- FLOW_CREDIT_RETURN: a returned credit can be spent again; `sink` is a link output, direction + 4 × plane (R325). -/
def execFlowCreditReturn (l sink : Nat) (s : State) : Out :=
  .next (
    let x := leafOf s l
    match mget [] x.sw.returning sink with
    | c :: r =>
      if fabricRuns s l && c ≤ s.clk.cclk then
        modLeaf (setLeaf s l { x with sw := { x.sw with
          returning := mset [] x.sw.returning sink r, spent := mmod 0 x.sw.spent sink (fun v => v - 1), moved := true } })
          l (notQuiet s.clk.cclk)
      else s
    | [] => s)

/-! ## Growth rings (R330, R331, R333, R334) -/

/-- A marker behind the last token of a port that the current slot routes on a flow plane. -/
def placeMarker (c : Nat) (x : Leaf) (k : Nat) : Leaf :=
  let p := k / 2
  if planeFlow x.sw.cur p && slotValid x.sw.cur && (sinkOf x.sw.cur p (5 + k % 2)).isSome then
    setPortToks x k (portToks x k ++ [{ data := [], ring := slotRing x.sw.cur, marker := true, ready := c }])
  else x

/-- RING_MARKER: in the cycle after the ring point (R331). -/
def execRingMarker (l : Nat) (s : State) : Out :=
  .next (
    let x := leafOf s l
    if !fabricRuns s l || !x.sw.markerDue || !decide (x.sw.ringAt < s.clk.cclk) then s
    else
      let y := (List.range 4).foldl (placeMarker (leafNow s x)) x
      setLeaf s l { y with ring := slotRing x.sw.nxt, sw := { y.sw with markerDue := false } })

/-- Every sink of the current slot's flow planes has flipped. -/
def allFlipped (x : Leaf) : Bool :=
  (List.range 2).all (fun p => !(slotValid x.sw.cur && planeFlow x.sw.cur p) || (List.range 9).all (fun i => sinkFlipped x p i))

/-- NEXT_SLOT_CURRENT: in the cycle after the ring point and the last flip (R334). -/
def execNextSlotCurrent (l : Nat) (s : State) : Out :=
  .next (
    let x := leafOf s l
    if fabricRuns s l && x.sw.ringPoint && !x.sw.markerDue && decide (max x.sw.ringAt x.sw.flipAt < s.clk.cclk) && allFlipped x then
      slotStarts s l x
    else s)

/-! ## Refills (R346, R347, R350) -/

/-- The head of a queue's spill area stands in the bank order before a read granted in this cycle (R119, R347). -/
def spillHeadWritten (now : Nat) (x : Leaf) (q : Nat) : Bool :=
  let w := spillWord x q (mget 0 x.sw.spillRd q)
  !x.deposits.any (fun d => d.word = w && !d.settled && decide (now ≤ d.at_))

/-- A refill can start: the queue spills, its area holds a token and the queue has an entry that is neither used nor reserved. -/
def refillDue (x : Leaf) (q : Nat) : Bool :=
  inSpill x q && 0 < spillUsed x q
    && decide ((queueOf x q).toks.length + (x.sw.refills.filter (fun r => r.q = q)).length < qcap q)

/-- The token read from a spill place. -/
def refillTok (q : Nat) (bs : List Byte) (bad : Bool) : Tok :=
  let ws := wordsOfBytes bs
  if q < 4 then { data := ws, bad := bad }
  else { data := [ws.getD 0 0], tag := (ws.getD 1 0).setWidth 8, bad := bad }

/-- A refill enters its queue; the last of an empty area ends the spill (R346, R347). -/
def landRefill (s : State) (l : Nat) (r : Refill) : State :=
  modLeaf s l (fun x =>
    let v := queueOf x r.q
    let y := setQueue x r.q { v with toks := v.toks ++ [{ r.tok with ready := leafNow s x + 1 }] }
    let rest := x.sw.refills.erase r
    notQuiet s.clk.cclk { y with sw := { y.sw with
      refills := rest, moved := true
      spilling := if spillUsed x r.q = 0 && !rest.any (fun k => k.q = r.q) then mset false y.sw.spilling r.q false
                  else y.sw.spilling } })

/-- The refills that enter in this cycle. -/
def landRefills (s : State) (l : Nat) : State :=
  ((leafOf s l).sw.refills.filter (fun r => r.at_ ≤ s.clk.cclk)).foldl (fun t r => landRefill t l r) s

/-- The read of the area's head asks as DMA, one granted a cycle in a leaf (R347). -/
def refillAsk (s : State) (l q : Nat) : State :=
  let x := leafOf s l
  let k := mget 0 x.sw.spillRd q
  if !refillDue x q || !spillHeadWritten s.clk.cclk x q || x.sw.refillAt = s.clk.cclk + 1 then s
  else
    let a := slotAAsk s l 3 [spillWord x q k / 16] false
    if !a.1 then a.2
    else
      let f := slotARead a.2 l (4 * spillWord x q k) (if q < 4 then 64 else 8)
      modLeaf f.1 l (fun y => notQuiet s.clk.cclk { y with sw := { y.sw with
        refillAt := s.clk.cclk + 1, spillRd := mset 0 y.sw.spillRd q (k + 1)
        refills := y.sw.refills ++ [{ at_ := s.clk.cclk + 3, q := q, tok := refillTok q f.2.1 (f.2.2.1 || f.2.2.2) }] } })

/-- REFILL: a granted one enters its queue three cycles later, and the next of the queue asks for its grant (R346, R347). -/
def execRefill (l q : Nat) (s : State) : Out :=
  .next (if !fabricRuns s l then s else refillAsk (landRefills s l) l q)

/-! ## Deadlock detection (R336 to R343) -/

/-- JOIN: the report raises the region's ACTIVE count and cancels its window (R336, R339). -/
def execJoin (l : Nat) (s : State) : Out :=
  .next (
    let x := leafOf s l
    if !crownRuns s || !x.sw.joinDue || x.sw.leaveDue ≠ none then s
    else
      match regionNow x with
      | none => setLeaf s l { x with sw := { x.sw with joinDue := false } }
      | some g =>
        let r := regionOf s g
        setLeaf (setRegion s g { r with active := if r.active.contains l then r.active else r.active ++ [l], window := none })
          l { x with sw := { x.sw with joinDue := false, joined := some g } })

/-- Every active member has QUIET standing: the confirmation window opens (R339). -/
def openWindow (s : State) (r : Region) : Region :=
  if r.active ≠ [] && r.active.all (fun l => r.quiet.contains l) && r.window = none && !r.awaiting then
    { r with window := some s.clk.cclk }
  else r

/-- LEAVE: the report lowers the ACTIVE count; a region without members has no window (R336, R339). -/
def execLeave (l : Nat) (s : State) : Out :=
  .next (
    let x := leafOf s l
    match x.sw.leaveDue with
    | none => s
    | some g =>
      if !crownRuns s then s
      else
        let r := regionOf s g
        let left := { r with active := r.active.filter (fun m => m ≠ l), quiet := r.quiet.filter (fun m => m ≠ l)
                             asked := r.asked.filter (fun m => m ≠ l), answers := r.answers.filter (fun a => a.1 ≠ l) }
        let r1 := if left.active = [] then { left with window := none, awaiting := false } else openWindow s left
        setLeaf (setRegion s g r1) l { x with sw := { x.sw with
          leaveDue := none, joined := none, quietFor := 0, quietSent := false, flags := [], spillDue := false,
          abortDue := false } })

/-- QUIET: after 64 flow-quiet cycles the member reports (R338). -/
def execQuiet (l : Nat) (s : State) : Out :=
  .next (
    let x := leafOf s l
    if fabricRuns s l && x.sw.joined ≠ none && 64 ≤ x.sw.quietFor && !x.sw.quietSent then
      setLeaf s l { x with sw := { x.sw with quietSent := true, flags := x.sw.flags ++ [(true, s.clk.cclk)] } }
    else s)

/-- A flag of the member reaches the hub (R338, R339). -/
def flagAtHub (s : State) (l : Nat) (quiet : Bool) (f : Region → Region) : State :=
  let x := leafOf s l
  match x.sw.flags, x.sw.joined with
  | b :: r, some g =>
    if crownRuns s && b.1 = quiet then
      setLeaf (setRegion s g (f (regionOf s g))) l { x with sw := { x.sw with flags := r } }
    else s
  | _, _ => s

/-- QUIET_AT_HUB. -/
def execQuietAtHub (l : Nat) (s : State) : Out :=
  .next (flagAtHub s l true (fun r => openWindow s { r with quiet := if r.quiet.contains l then r.quiet else r.quiet ++ [l] }))

/-- CLEAR_AT_HUB: the window is cancelled. -/
def execClearAtHub (l : Nat) (s : State) : Out :=
  .next (flagAtHub s l false (fun r => { r with quiet := r.quiet.filter (fun m => m ≠ l), window := none }))

/-- CONFIRMATION_WINDOW_END: 4,096 cycles without a cancel; SPILL goes to every active member (R339, R340). -/
def execConfirmationWindowEnd (g : Nat) (s : State) : Out :=
  .next (
    let r := regionOf s g
    match r.window with
    | none => s
    | some c =>
      if !crownRuns s || s.clk.cclk < c + 4096 then s
      else
        r.active.foldl (fun t l => modLeaf t l (fun x => { x with sw := { x.sw with spillDue := true } }))
          (setRegion s g { r with window := none, awaiting := true, asked := r.active, answers := [] }))

/-- A token waits at the sink of queue `q` for room in it. -/
def sinkWaits (s : State) (l q : Nat) : Bool :=
  let x := leafOf s l
  let p := q / 4
  let i := 4 + q % 4
  (List.range 6).any (fun k => match flowHead s l p (k + 1) with
    | some t => !t.marker && (match flowRoute x p (k + 1) t.ring with
      | .sink j next => j = i && sinkFlipped x p i = next
      | _ => false)
    | none => false)

/-- The queue enters spill (R345). -/
def entersSpill (s : State) (l q : Nat) : Bool :=
  let x := leafOf s l
  slotValid x.sw.cur && planeFlow x.sw.cur (q / 4) && !inSpill x q && decide (qcap q ≤ (queueOf x q).toks.length)
    && sinkWaits s l q && spillRoom x q

/-- SPILL: the member answers 0 ACTIVE, 1 SPILLED or 2 CANNOT (R340, R345, R348). -/
def execSpill (l : Nat) (s : State) : Out :=
  .next (
    let x := leafOf s l
    match x.sw.spillDue, x.sw.joined with
    | true, some g =>
      if !crownRuns s then s
      else
        let qs := (List.range 8).filter (entersSpill s l)
        let a := if !x.sw.quietSent then 0 else if qs ≠ [] then 1 else 2
        let r := regionOf s g
        setLeaf (setRegion s g { r with answers := r.answers ++ [(l, a)] }) l { x with sw := { x.sw with
          spillDue := false
          spilling := if a = 1 then qs.foldl (fun m q => mset false m q true) x.sw.spilling else x.sw.spilling } }
    | _, _ => s)

/-- ANSWER: every member that SPILL asked, and that is still active, has answered; the hub resolves the region, and a new window
starts where every QUIET stands (R339, R341). -/
def execAnswer (g : Nat) (s : State) : Out :=
  .next (
    let r := regionOf s g
    if !crownRuns s || !r.awaiting || !r.asked.all (fun l => r.answers.any (fun a => a.1 = l)) then s
    else
      let done := openWindow s { r with awaiting := false, asked := [], answers := [] }
      if r.answers.any (fun a => a.2 = 0) then setRegion s g { done with cancelled := sat32 (r.cancelled + 1) }
      else if r.answers.any (fun a => a.2 = 1) then
        raise (setRegion s g { done with spills := sat32 (r.spills + 1) }) 0x45 g 0 (sat32 (r.spills + 1))
      else
        raise (r.active.foldl (fun t l => modLeaf t l (fun x => { x with sw := { x.sw with abortDue := true } }))
          (setRegion s g { done with aborted := true })) 0x46 g 0 r.active.length)

/-- ABORT: the member faults DEADLOCK_UNRESOLVED (R342). -/
def execAbort (l : Nat) (s : State) : Out :=
  .next (
    let x := leafOf s l
    if !crownRuns s || !x.sw.abortDue then s
    else
      let t := setLeaf s l { x with sw := { x.sw with abortDue := false } }
      if x.run = .running then leafFault t l 0x10 (pcOf x) 0 else t)

end Sys2Proof.Machine
end

