-- ==== Sys2Proof/Machine/LeafMem.lean ====
section
/-! DEFINITION. Loads and stores of the leaf through its task data window (R64, R77, R83, R121 to R136, R152). -/
namespace Sys2Proof.Machine

/-- Readiness key of the scratchpad path that a VLDX or VSTX keeps (R124). -/
def spadKey : Nat := 96

/-! ## Shapes -/

/-- CORE asks for the banks of `rows` in the cycle it would issue; ungranted, it does not issue and asks again (R122, R123). -/
def coreAsk (s : State) (l : Nat) (rows : List Nat) (write : Bool) (fin : State → Res) : Res :=
  let r := askBanks (leafOf s l) s.clk.cclk 0 rows write
  let t := setLeaf s l { r.2 with coreReq := s.clk.cclk + 1 }
  if r.1 then fin (settle t l rows) else .hold t .bank

/-- A load of the step in progress returns its data in core cycle `c` (R101). -/
def noteLoad (x : Leaf) (c : Nat) : Leaf :=
  if x.step.shadow = none then x else { x with step := { x.step with loadAt := max x.step.loadAt c } }

/-- A load of `n` bytes at task-relative offset `o`: the words go to `put` (R64, R121, R126, R134, R152, R156). -/
def loadBody (l o n : Nat) (put : Leaf → Lanes → Nat → Option Leaf) : State → Nat → Res := fun s t =>
  let x := leafOf s l
  match dataAddr x o n with
  | .error c => .fault c o
  | .ok b =>
    let ws := wordsOf b n
    if sbHolds x ws false then .block (.stall .scoreboard)
    else coreAsk s l [b / 64] false (fun u =>
      let r := loadWords u l ws
      let e := rowErrors r.1 l (pcOf x) true ws
      match put (leafOf e l) r.2 t with
      | some y => .done (setLeaf e l (noteLoad y (t + 3)))
      | none => .fault 0x08 0)

/-- A store of the lanes `mask` of a row, or of one word, into the gather buffer (R129, R130, R152). -/
def storeBody (l o n : Nat) (mask : Nat → BitVec 16) (val : Leaf → Nat → Lanes) (fin : Leaf → Leaf) : State → Nat → Res :=
  fun s _ =>
    let x := leafOf s l
    match dataAddr x o n with
    | .error c => .fault c o
    | .ok b =>
      let m := mask b
      let ws := ((List.range 16).filter (fun i => m.getLsbD i)).map (fun i => b / 64 * 16 + i)
      if sbHolds x ws true then .block (.stall .scoreboard)
      else match gatherPut x s.clk.cclk (b / 64) m (val x b) with
        | some y => .done (setLeaf s l (fin y))
        | none => .hold (setLeaf s l (wantOldest x s.clk.cclk)) .gatherFull

/-- Bit of the word of byte `b` in its row. -/
def wordBit (b : Nat) : BitVec 16 := BitVec.ofNat 16 (2 ^ (b / 4 % 16))

/-- A scalar word in its lane of the row. -/
def wordLane (b : Nat) (v : Word) : Lanes := mkLanes (fun i => if i = b / 4 % 16 then v else 0)

/-- Task-relative offset sA + IMM × k. -/
def immAddr (x : Leaf) (f : RI) (k : Word) : Nat := (sreg x f.a.toNat + f.imm.signExtend 32 * k).toNat

/-- A vector load's destination: register or port (R72, R89). -/
def putRow16 (d : Nat) : Leaf → Lanes → Nat → Option Leaf := fun x v t => putV x d 0xFFFF v t 4

/-- Obstacle of a vector load whose destination is a port. -/
def dBlock (x : Leaf) (d : Nat) : Option Block := if d ≥ 24 then pushBlock x (d - 24) else none

def withBlock (b : Option Block) (r : Res) : Res :=
  match b with
  | some k => .block k
  | none => r

/-! ## Instructions -/

/-- LDW: sD = [sA + IMM × 4] (R77). -/
def execLdw (l : Nat) (f : RI) (s : State) : Out :=
  .next (issue s l (wRI 0x10 f) f.g [f.a.toNat, spadKey] false (fun s t =>
    loadBody l (immAddr (leafOf s l) f 4) 4 (fun x v t => some (writeS x f.d.toNat (lane v 0) t 4)) s t))

/-- STW: [sA + IMM × 4] = sD (R77, R129). -/
def execStw (l : Nat) (f : RI) (s : State) : Out :=
  .next (issue s l (wRI 0x11 f) f.g [f.a.toNat, f.d.toNat, spadKey] false (fun s t =>
    storeBody l (immAddr (leafOf s l) f 4) 4 wordBit (fun x b => wordLane b (sreg x f.d.toNat)) id s t))

/-- Advances the generator once the access has issued (R83). -/
def stepAg (n : Nat) (x : Leaf) : Leaf := setAg x n (agStep (agOf x n))

/-- LDA: scalar word at the generator (R83). -/
def execLda (l : Nat) (f : AGf) (s : State) : Out :=
  .next (issue s l (wAG 0 0 f) f.g [spadKey] false (fun s t =>
    loadBody l (agAddr (agOf (leafOf s l) f.ag.toNat)) 4
      (fun x v t => some (stepAg f.ag.toNat (writeS x f.d.toNat (lane v 0) t 4))) s t))

/-- STA: scalar word at the generator (R83, R129). -/
def execSta (l : Nat) (f : AGf) (s : State) : Out :=
  .next (issue s l (wAG 0 1 f) f.g [f.d.toNat, spadKey] false (fun s t =>
    storeBody l (agAddr (agOf (leafOf s l) f.ag.toNat)) 4 wordBit (fun x b => wordLane b (sreg x f.d.toNat))
      (stepAg f.ag.toNat) s t))

/-- VLDA: row at the generator (R83). -/
def execVlda (l : Nat) (f : AGf) (s : State) : Out :=
  .next (issue s l (wAG 1 0 f) f.g [spadKey] false (fun s t =>
    withBlock (dBlock (leafOf s l) f.d.toNat)
      (loadBody l (agAddr (agOf (leafOf s l) f.ag.toNat)) 64
        (fun x v t => (putRow16 f.d.toNat x v t).map (stepAg f.ag.toNat)) s t)))

/-- VSTA: selected lanes of a row at the generator (R83, R129). -/
def execVsta (l : Nat) (f : AGf) (s : State) : Out :=
  .next (issue s l (wAG 1 1 f) f.g (spadKey :: vkey f.d.toNat ++ mkey f.msk.toNat) false (fun s t =>
    let x := leafOf s l
    withBlock (vBlock x t [f.d.toNat] 0)
      (storeBody l (agAddr (agOf x f.ag.toNat)) 64 (fun _ => selMask x f.msk.toNat) (fun x _ => vval x f.d.toNat)
        (fun y => stepAg f.ag.toNat (popAll y (vqs [f.d.toNat]))) s t)))

/-- VLD: vD = [sA + IMM × 64] (R77). -/
def execVld (l : Nat) (f : RI) (s : State) : Out :=
  .next (issue s l (wRI 0x13 f) f.g [f.a.toNat, spadKey] false (fun s t =>
    withBlock (dBlock (leafOf s l) f.d.toNat)
      (loadBody l (immAddr (leafOf s l) f 64) 64 (putRow16 f.d.toNat) s t)))

/-- VST: [sA + IMM × 64] = vD, all lanes (R77, R129). -/
def execVst (l : Nat) (f : RI) (s : State) : Out :=
  .next (issue s l (wRI 0x14 f) f.g (f.a.toNat :: spadKey :: vkey f.d.toNat) false (fun s t =>
    let x := leafOf s l
    withBlock (vBlock x t [f.d.toNat] 0)
      (storeBody l (immAddr x f 64) 64 (fun _ => 0xFFFF) (fun x _ => vval x f.d.toNat)
        (fun y => popAll y (vqs [f.d.toNat])) s t)))

/-! ## Indexed access (R64, R124, R136) -/

/-- Task-relative offset of each selected lane, with its lane. -/
def laneOffs (x : Leaf) (f : RR) : List (Nat × Nat) :=
  let idx := vval x f.b.toNat
  ((List.range 16).filter (fun i => (selMask x f.msk.toNat).getLsbD i)).map
    (fun i => (i, (sreg x f.a.toNat + lane idx i * 4).toNat))

/-- First misaligned lane, else first lane outside the window (R64). -/
def laneFault (x : Leaf) (os : List (Nat × Nat)) : Option (Nat × Nat) :=
  match os.find? (fun p => p.2 % 4 ≠ 0) with
  | some p => some (0x04, p.2)
  | none => match os.find? (fun p => match dataAddr x p.2 4 with
      | .error _ => true
      | .ok _ => false) with
    | some p => some (0x03, p.2)
    | none => none

/-- Physical word of a lane inside the window. -/
def laneWord (x : Leaf) (o : Nat) : Nat := (fld (mget 0 x.tdata x.task).toNat 0 12 * 64 + o) / 4

/-- The first row that each bank serves (R124). -/
def firstRows (ws : List Nat) : List Nat :=
  let rows := (ws.map (fun w => w / 16)).eraseDups
  rows.filter (fun r => rows.all (fun q => decide (r ≤ q) || q % 16 ≠ r % 16))

/-- The lanes of a granted row are read, or written with the highest lane winning (R77, R124). -/
def serveRow (s : State) (l row : Nat) : State :=
  match (leafOf s l).idx with
  | none => s
  | some o =>
    let lw := o.todo.filter (fun p => p.2 / 16 = row)
    let rest := o.todo.filter (fun p => p.2 / 16 ≠ row)
    if o.store then
      let m := lw.foldl (fun m p => m ||| BitVec.ofNat 16 (2 ^ (p.2 % 16))) 0
      let v := lw.foldl (fun v p => mkLanes (fun i => if i = p.2 % 16 then lane o.vals p.1 else lane v i)) zeroLanes
      modLeaf (putRow (keepWindows s l [row]) l row m 0 v) l (fun x => { x with idx := some { o with todo := rest } })
    else
      let ws := (lw.map Prod.snd).eraseDups
      let r := loadWords s l ws
      let e := rowErrors r.1 l o.pc (!o.dropped) ws
      let v := mkLanes (fun i => match lw.find? (fun p => p.1 = i) with
        | some p => lane r.2 (ws.findIdx (fun w => w = p.2))
        | none => lane o.vals i)
      modLeaf e l (fun x => { x with idx := some { o with todo := rest, vals := v } })

/-- Tokens of a port that wait for the rows of their VLDX. -/
def unread : Nat := 2 ^ 64

/-- The last row is granted in core cycle `t`: a VLDX's lanes reach its destination, usable four cycles later (R76, R124). -/
def finishIdx (x : Leaf) (t : Nat) : Leaf :=
  match x.idx with
  | some o =>
    if o.todo ≠ [] then x
    else
      let y : Leaf := { x with idx := none }
      if o.store then y
      else if o.d < 16 then
        if o.dropped then y
        else (fun z => if o.inStep then noteLoad z (t + 3) else z) (writeV y o.d (mergeLanes o.sel o.vals (vreg y o.d)) t 4)
      else if o.pushed then
        setPortToks y (o.d - 24) ((portToks y (o.d - 24)).map (fun k =>
          if k.ready = unread then { k with data := o.vals, ready := t + 4 } else k))
      else y
  | none => x

/-- The rows of a VLDX or VSTX granted in this cycle, and its end with the last of them. -/
def serveRows (s : State) (l t : Nat) (rows : List Nat) : State :=
  modLeaf (rows.foldl (fun u r => serveRow u l r) s) l (fun x => finishIdx x t)

/-- A VLDX or VSTX starts once the first row of every bank is granted (R124; log 126). -/
def idxBody (s : State) (l t : Nat) (o : IdxOp) (fin : Leaf → Leaf) : Res :=
  let rows := firstRows (o.todo.map Prod.snd)
  if sbHolds (leafOf s l) (o.todo.map Prod.snd) o.store then .block (.stall .scoreboard)
  else coreAsk s l rows o.store (fun u =>
    .done (serveRows (modLeaf u l (fun x => { fin x with idx := some o })) l t rows))

/-- The push of a VLDX to a port takes its entry at issue; its data comes with the last row (R89, R106). -/
def pushUnread (x : Leaf) (d : Nat) : Option (Bool × Leaf) :=
  if d < 16 then some (false, x)
  else (effect x).map (fun e => if e.1 then (true, pushP e.2 (d - 24) { data := zeroLanes, ready := unread }) else e)

/-- VLDX: selected lanes vD[i] = [sA + vB[i] × 4] (R77, R124). -/
def execVldx (l : Nat) (f : RR) (s : State) : Out :=
  .next (issue s l (wVV 0x15 0 f) f.g (f.a.toNat :: spadKey :: vkey f.b.toNat ++ mkey f.msk.toNat) false (fun s t =>
    let x := leafOf s l
    withBlock (vBlock x t [f.b.toNat] f.d.toNat)
      (let os := laneOffs x f
       match laneFault x os with
       | some p => .fault p.1 p.2
       | none => match pushUnread x f.d.toNat with
         | none => .fault 0x08 0
         | some e =>
           let o : IdxOp := { store := false, todo := os.map (fun p => (p.1, laneWord x p.2)), vals := zeroLanes,
                              d := f.d.toNat, sel := selMask x f.msk.toNat, pc := pcOf x, pushed := e.1,
                              inStep := decide (x.step.shadow ≠ none) }
           idxBody s l t o (fun y => match pushUnread y f.d.toNat with
             | some z => popAll z.2 (vqs [f.b.toNat])
             | none => y))))

/-- VSTX: selected lanes [sA + vB[i] × 4] = vD[i], the highest lane winning, once the buffered rows it touches have drained
(R77, R124, R136). -/
def execVstx (l : Nat) (f : RR) (s : State) : Out :=
  .next (issue s l (wVV 0x15 1 f) f.g (f.a.toNat :: spadKey :: vkey f.b.toNat ++ vkey f.d.toNat ++ mkey f.msk.toNat) false
    (fun s t =>
      let x := leafOf s l
      withBlock (vBlock x t [f.b.toNat, f.d.toNat] 0)
        (let os := laneOffs x f
         match laneFault x os with
         | some p => .fault p.1 p.2
         | none =>
           let lw := os.map (fun p => (p.1, laneWord x p.2))
           let rows := (lw.map (fun p => p.2 / 16)).eraseDups
           if buffered x rows && !sbHolds x (lw.map Prod.snd) true then
             .hold (setLeaf s l (wantRows x s.clk.cclk rows)) .drain
           else
             idxBody s l t { store := true, todo := lw, vals := vval x f.d.toNat, pc := pcOf x }
               (fun y => popAll y (vqs [f.b.toNat, f.d.toNat])))))

end Sys2Proof.Machine
end

