-- ==== Sys2Proof/Machine/Approx.lean ====
section
/-! DEFINITION. The bounds of R82 on VEXP2, VLOG2, VTANH and VSIGM: each function's value to 256 fraction bits, and the encodings that
lie within the bound of it. -/
namespace Sys2Proof.Machine

/-- Fraction bits of the fixed-point values here, and one in them. -/
def fixBits : Nat := 256

def fixOne : Nat := 2 ^ fixBits

/-- ln 2 in `fixBits` bits, cut off. -/
def fixLn2 : Nat := 80260960185991308862233904206310070533990667611589946606122867505419956976171

/-- 2^−200: more than the error of every value below, in units of its last place at exponent 0. -/
def fixSlack : Nat := 2 ^ 56

/-- The series of exp at `t` from term `k` on, whose value is `term`. -/
def expTerms (t : Nat) : Nat → Nat → Nat → Nat
  | 0, _, _ => 0
  | fuel + 1, k, term => term + expTerms t fuel (k + 1) (term * t / fixOne / (k + 1))

/-- exp of `t` / 2^256 as mantissa / 2^256 and power of two. -/
def fixExp (t : Nat) : Nat × Nat := (expTerms (t % fixLn2) 64 0 fixOne, t / fixLn2)

/-- The series of atanh at `z`, in odd powers: `p` is z^k. -/
def atanhTerms (zz : Nat) : Nat → Nat → Nat → Nat
  | 0, _, _ => 0
  | fuel + 1, k, p => p / k + atanhTerms zz fuel (k + 2) (p * zz / fixOne)

/-- log2 of `m` / 2^b in [1, 2). -/
def fixLog2 (m b : Nat) : Nat :=
  let z := (m - 2 ^ b) * fixOne / (m + 2 ^ b)
  2 * atanhTerms (z * z / fixOne) 84 1 z * fixOne / fixLn2

/-- |m × 2^e| in fixed point, cut off and held to at most `cap`. -/
def fixOf (m : Nat) (e : Int) (cap : Nat) : Nat :=
  let v := if 0 ≤ e then m * 2 ^ (min e.toNat 32) * fixOne else m * fixOne / 2 ^ (-e).toNat
  min v (cap * fixOne)

/-- An approximate value (−1)^neg × n × 2^q, to within `fixSlack` of n. -/
structure Near where
  neg : Bool
  n : Nat
  q : Int
  deriving DecidableEq, Repr

/-- The value of an encoding, an infinity standing for 2^128. -/
def realOf (w : Word) : Option (Int × Int) :=
  match f32Of w with
  | .nan _ _ => none
  | .inf s => some (if s then -1 else 1, 128)
  | .fin s m e => some (if s then -(m : Int) else m, e)

/-- The encoding lies within `k` × 2^u of the value. -/
def isNear (v : Near) (k : Nat) (u : Int) (w : Word) : Bool :=
  match realOf w with
  | none => false
  | some r =>
    let lo := min (min r.2 v.q) u
    let a := r.1 * 2 ^ (r.2 - lo).toNat
    let b := (if v.neg then -(v.n : Int) else v.n) * 2 ^ (v.q - lo).toNat
    decide ((a - b).natAbs ≤ k * 2 ^ (u - lo).toNat + fixSlack * 2 ^ (v.q - lo).toNat)

/-- Exponent of one ulp at the value. -/
def ulpExp (v : Near) : Int := max (v.q + bitLen v.n - 24) (-149)

/-- The given encoding where it lies within the bound, else the value rounded. -/
def boundedBy (v : Near) (k : Nat) (u : Int) (w : Word) : Word :=
  if isNear v k u w then w else BitVec.ofNat 32 (ieeeRound fF32 .rne v.neg v.n v.q).1

/-- 2^x; beyond ±160 the value at 160. -/
def nearExp2 (s : Bool) (m : Nat) (e : Int) : Near :=
  let a := fixOf m e 160
  let i := a / fixOne
  let f := a % fixOne
  if !s then { neg := false, n := (fixExp (f * fixLn2 / fixOne)).1, q := (i : Int) - fixBits }
  else if f = 0 then { neg := false, n := fixOne, q := -(i : Int) - fixBits }
  else { neg := false, n := (fixExp ((fixOne - f) * fixLn2 / fixOne)).1, q := -(i : Int) - 1 - fixBits }

/-- log2 of a positive m × 2^e. -/
def nearLog2 (m : Nat) (e : Int) : Near :=
  let b := bitLen m - 1
  let r := ((e + b) * (fixOne : Int)) + fixLog2 m b
  { neg := decide (r < 0), n := r.natAbs, q := -(fixBits : Int) }

/-- tanh; beyond 64 the value at 64. -/
def nearTanh (s : Bool) (m : Nat) (e : Int) : Near :=
  let x := fixExp (2 * fixOf m e 64)
  let y := x.1 * 2 ^ x.2
  { neg := s, n := (y - fixOne) * fixOne / (y + fixOne), q := -(fixBits : Int) }

/-- 1/(1 + e^−x); beyond 120 the value at 120. -/
def nearSigm (s : Bool) (m : Nat) (e : Int) : Near :=
  let x := fixExp (fixOf m e 120)
  let y := x.1 * 2 ^ x.2
  { neg := false, n := (if s then fixOne else y) * 2 ^ 512 / (y + fixOne), q := -512 }

/-- The value lies in the interval from 0.5 to 2 on which VLOG2's bound is absolute. -/
def nearUnit (m : Nat) (e : Int) : Bool :=
  let b := e + bitLen m - 1
  b = -1 || b = 0 || (b = 1 && m = 2 ^ (bitLen m - 1))

end Sys2Proof.Machine
end

