-- ==== Sys2Proof/Machine/Flags.lean ====
section
/-! DEFINITION. The leaf's floating-point operations, each giving a word and the vstat flags it raises
(R79 to R82, R212 to R217, R686). -/
namespace Sys2Proof.Machine

/-- A lane result and its flags (bit 4 NV … bit 0 NX). -/
abbrev FRes := Word × Nat

/-- The first NaN among the operands, quietened; NV when any of them signals (R686). -/
def nanOf (ops : List Word) : Option FRes :=
  match ops.find? isNaN32 with
  | some w => some (quiet w, if ops.any isSNaN32 then flNV else 0)
  | none => none

def invalid : FRes := (nanCanon, flNV)

def word32 (r : Nat × Nat) : FRes := (BitVec.ofNat 32 r.1, r.2)

def negF : FVal → FVal
  | .nan s f => .nan s f
  | .inf s => .inf (!s)
  | .fin s m e => .fin (!s) m e

def faddW (rm : Rnd) (a b : Word) : FRes :=
  match nanOf [a, b] with
  | some r => r
  | none => match addF rm (f32Of a) (f32Of b) with
    | some r => word32 r
    | none => invalid

def fsubW (rm : Rnd) (a b : Word) : FRes :=
  match nanOf [a, b] with
  | some r => r
  | none => match addF rm (f32Of a) (negF (f32Of b)) with
    | some r => word32 r
    | none => invalid

def fmulW (rm : Rnd) (a b : Word) : FRes :=
  match nanOf [a, b] with
  | some r => r
  | none => match mulX (f32Of a) (f32Of b) with
    | some v => word32 (packFVal rm v)
    | none => invalid

/-- ±(a × b) ± d with one rounding (R77, R686). -/
def ffmaW (rm : Rnd) (negP negD : Bool) (a b d : Word) : FRes :=
  let p := if isNaN32 a || isNaN32 b then some (.nan false 0) else mulX (f32Of a) (f32Of b)
  match nanOf [a, b, d] with
  | some r => (r.1, if p = none then flNV else r.2)
  | none =>
    match p with
    | none => invalid
    | some v =>
      let v1 := if negP then negF v else v
      let d1 := if negD then negF (f32Of d) else f32Of d
      match addF rm v1 d1 with
      | some r => word32 r
      | none => invalid

/-- IEEE 754-2019 minimum and maximum, with the quietened first NaN (R215, R216). -/
def fminmaxW (mx : Bool) (a b : Word) : FRes :=
  match nanOf [a, b] with
  | some r => r
  | none => (if decide (key32 a < key32 b) = mx then b else a, 0)

def fdivW (rm : Rnd) (a b : Word) : FRes :=
  match nanOf [a, b] with
  | some r => r
  | none =>
    match f32Of a, f32Of b with
    | .inf _, .inf _ => invalid
    | .inf s, .fin t _ _ => word32 (withSign fF32 (s != t) 0x7F800000, 0)
    | .fin s _ _, .inf t => word32 (withSign fF32 (s != t) 0, 0)
    | .fin s m e, .fin t n d =>
      if n = 0 then
        if m = 0 then invalid else word32 (withSign fF32 (s != t) 0x7F800000, flDZ)
      else if m = 0 then word32 (withSign fF32 (s != t) 0, 0)
      else let q := divExact m e n d
           word32 (ieeeRound fF32 rm (s != t) q.1 q.2)
    | _, _ => invalid

def fsqrtW (rm : Rnd) (a : Word) : FRes :=
  match nanOf [a] with
  | some r => r
  | none =>
    match f32Of a with
    | .inf s => if s then invalid else (a, 0)
    | .fin s m e =>
      if m = 0 then (a, 0) else if s then invalid
      else let q := sqrtExact m e
           word32 (ieeeRound fF32 rm false q.1 q.2)
    | .nan _ _ => invalid

/-! ## Comparisons (R77, R217) -/

/-- Comparison of two values that are not NaN, −0 equal to +0. -/
def flt32 (a b : Word) : Bool :=
  let z (w : Word) : Int := if w.toNat % 0x80000000 = 0 then 0 else if w.getLsbD 31 then -(w.toNat % 0x80000000 : Nat)
    else (w.toNat : Int)
  decide (z a < z b)

def unord (a b : Word) : Bool := isNaN32 a || isNaN32 b

/-- NV of a quiet comparison, which signalling NaNs alone raise. -/
def quietNV (a b : Word) : Nat := if isSNaN32 a || isSNaN32 b then flNV else 0

/-- NV of a signalling comparison, which any NaN raises. -/
def sigNV (a b : Word) : Nat := if unord a b then flNV else 0

def feqC (a b : Word) : Bool × Nat := (!unord a b && !flt32 a b && !flt32 b a, quietNV a b)

def fneC (a b : Word) : Bool × Nat := (!(feqC a b).1, quietNV a b)

def fltC (a b : Word) : Bool × Nat := (!unord a b && flt32 a b, sigNV a b)

def fleC (a b : Word) : Bool × Nat := (!unord a b && !flt32 b a, sigNV a b)

def funC (a b : Word) : Bool × Nat := (unord a b, quietNV a b)

/-! ## Conversions (R79, R212 to R214) -/

/-- FP32 to an integer in the range `lo` to `hi` (R79). DESIGN CHOICE, log 143: whether a value is outside the range is asked of
the rounded integer, so that VF2U of a value in (−1, 0) that rounds to 0 raises NX. -/
def f2int (rm : Rnd) (lo hi : Int) (a : Word) : FRes :=
  match f32Of a with
  | .nan _ _ => (0, flNV)
  | .inf s => (BitVec.ofInt 32 (if s then lo else hi), flNV)
  | .fin s m e =>
    let r := if 0 ≤ e then (m * 2 ^ e.toNat, false) else roundShift rm s m (-e).toNat
    let v : Int := if s then -(r.1 : Int) else r.1
    if v > hi then (BitVec.ofInt 32 hi, flNV)
    else if v < lo then (BitVec.ofInt 32 lo, flNV)
    else (BitVec.ofInt 32 v, b2n r.2)

def int2f (rm : Rnd) (v : Int) : FRes := word32 (ieeeRound fF32 rm (decide (v < 0)) v.natAbs 0)

/-- FP32 to a 16-bit float: a NaN keeps its sign and leading fraction bits and is quietened (R212). -/
def f2half (f : Fmt) (rm : Rnd) (a : Word) : FRes :=
  match f32Of a with
  | .nan s fr =>
    let top := fr / 2 ^ (23 - f.mb)
    let q := if bit top (f.mb - 1) then top else top + 2 ^ (f.mb - 1)
    (BitVec.ofNat 32 (withSign f s ((2 ^ f.eb - 1) * 2 ^ f.mb + q)), if isSNaN32 a then flNV else 0)
  | .inf s => (BitVec.ofNat 32 (withSign f s ((2 ^ f.eb - 1) * 2 ^ f.mb)), 0)
  | .fin s m e => word32 (ieeeRound f rm s m e)

/-- FP32 to F8 (R179, R180, R212, R213). -/
def f2f8 (f : Fmt) (rm : Rnd) (a : Word) : FRes :=
  match f32Of a with
  | .nan s _ => (BitVec.ofNat 32 (withSign f s 0x7F), if isSNaN32 a then flNV else 0)
  | .inf s => if f.kind = 1 then (BitVec.ofNat 32 (withSign f s (fmtMaxCode f)), flNV)
              else (BitVec.ofNat 32 (withSign f s (fmtMaxCode f + 1)), 0)
  | .fin s m e => word32 (ieeeRound f rm s m e)

/-- A narrow float widened to FP32, exactly (R214). -/
def widen (f : Fmt) (a : Word) : FRes :=
  match decodeF f (a.toNat % 2 ^ (f.eb + f.mb + 1)) with
  | .nan s fr =>
    if f.kind = 1 then (BitVec.ofNat 32 (withSign fF32 s 0x7FC00000), 0)
    else
      (quiet (BitVec.ofNat 32 (withSign fF32 s (0x7F800000 + fr * 2 ^ (23 - f.mb)))),
       if bit fr (f.mb - 1) then 0 else flNV)
  | .inf s => word32 (withSign fF32 s 0x7F800000, 0)
  | .fin s m e => word32 ((ieeeRound fF32 .rne s m e).1, 0)

/-! ## Approximate functions (R82): free values inside their bounds (log 9) -/

/-- A quiet NaN whose other bits the spec leaves open. -/
def nanFree (a : Word) : Word := Config.vxfNan a ||| 0x7FC00000

/-- The encoding `step` units from the truncated one; `inexact` says whether truncation lost bits. -/
def vrcpW (a : Word) : Word :=
  match f32Of a with
  | .nan _ _ => nanFree a
  | .inf s => BitVec.ofNat 32 (withSign fF32 s 0)
  | .fin s m e =>
    if m = 0 then BitVec.ofNat 32 (withSign fF32 s 0x7F800000) else
    let q := divExact 1 0 m e
    let r := ieeeRound fF32 .rtz false q.1 q.2
    let k := (Config.rcpStep a).val
    BitVec.ofNat 32 (withSign fF32 s (if r.2 = 0 then r.1 + k - 1 else r.1 + min k 1))

def vrsqW (a : Word) : Word :=
  match f32Of a with
  | .nan _ _ => nanFree a
  | .inf s => if s then nanFree a else 0
  | .fin s m e =>
    if m = 0 then BitVec.ofNat 32 (withSign fF32 s 0x7F800000) else if s then nanFree a else
    -- 1/√(m·2^e) as √(2^112/m · 2^(−e−112)), truncated with its lost bits marked
    let n := divExact (2 ^ 48) 0 m e
    let odd := decide (n.2 % 2 ≠ 0)
    let nn := if odd then 2 * n.1 else n.1
    let rt := isqrtBits nn 60 0
    let q : Nat × Int := (2 * rt + b2n (decide (rt * rt ≠ nn)), (if odd then n.2 - 1 else n.2) / 2 - 1)
    let r := ieeeRound fF32 .rtz false q.1 (q.2 - 24)
    let k := (Config.rsqStep a).val
    BitVec.ofNat 32 (if r.2 = 0 then r.1 + k - 2 else r.1 + k % 4 - 1)

def vexp2W (a : Word) : Word :=
  if isNaN32 a then nanFree a else if a = 0xFF800000 then 0 else if a = 0x7F800000 then a
  else match f32Of a with
    | .fin s m e => let v := nearExp2 s m e
                    boundedBy v 2 (ulpExp v) (Config.vxf .exp2 a)
    | _ => a

def vlog2W (a : Word) : Word :=
  if isNaN32 a then nanFree a
  else if a.toNat % 0x80000000 = 0 then 0xFF800000
  else if a.getLsbD 31 then nanFree a
  else match f32Of a with
    | .fin _ m e => let v := nearLog2 m e
                    if nearUnit m e then boundedBy v 1 (-23) (Config.vxf .log2 a) else boundedBy v 2 (ulpExp v) (Config.vxf .log2 a)
    | _ => a

def vtanhW (a : Word) : Word :=
  if isNaN32 a then nanFree a else if a = 0x7F800000 then 0x3F800000 else if a = 0xFF800000 then 0xBF800000
  else match f32Of a with
    | .fin s m e => let v := nearTanh s m e
                    boundedBy v 3 (ulpExp v) (Config.vxf .tanh a)
    | _ => a

def vsigmW (a : Word) : Word :=
  if isNaN32 a then nanFree a else if a = 0xFF800000 then 0 else if a = 0x7F800000 then 0x3F800000
  else match f32Of a with
    | .fin s m e => let v := nearSigm s m e
                    boundedBy v 3 (ulpExp v) (Config.vxf .sigm a)
    | _ => a

end Sys2Proof.Machine
end

