-- ==== Sys2Proof/Machine/LeafScalar.lean ====
section
/-! DEFINITION. System, scalar, predicate, branch, loop and address-generator instructions (R66, R67, R77, R83 to R87,
R100, R101). -/
namespace Sys2Proof.Machine

/-! ## Shapes -/

/-- sD = sA op sB. -/
def aluRR (fn lat : Nat) (op : Word → Word → Word) (l : Nat) (f : RR) (s : State) : State :=
  issue s l (wRR 0x01 fn f) f.g [f.a.toNat, f.b.toNat] false
    (regBody l (fun x t => writeS x f.d.toNat (op (sreg x f.a.toNat) (sreg x f.b.toNat)) t lat))

/-- sD = op sA. -/
def aluR (fn : Nat) (op : Word → Word) (l : Nat) (f : RR) (s : State) : State :=
  issue s l (wRR 0x01 fn f) f.g [f.a.toNat] false
    (regBody l (fun x t => writeS x f.d.toNat (op (sreg x f.a.toNat)) t 1))

/-- sD = sA op sign-extended IMM. -/
def aluRI (opc : Nat) (op : Word → Word → Word) (l : Nat) (f : RI) (s : State) : State :=
  issue s l (wRI opc f) f.g [f.a.toNat] false
    (regBody l (fun x t => writeS x f.d.toNat (op (sreg x f.a.toNat) (f.imm.signExtend 32)) t 1))

def shiftI (kind : Nat) (op : Word → Nat → Word) (l : Nat) (f : SHf) (s : State) : State :=
  issue s l (wSH kind f) f.g [f.a.toNat] false
    (regBody l (fun x t => writeS x f.d.toNat (op (sreg x f.a.toNat) f.amt.toNat) t 1))

/-- pD = sA rel sB. -/
def cmpRR (fn : Nat) (rel : Word → Word → Bool) (l : Nat) (f : RR) (s : State) : State :=
  issue s l (wRR 0x08 fn f) f.g [f.a.toNat, f.b.toNat] false
    (regBody l (fun x _ => setP x f.d.toNat (rel (sreg x f.a.toNat) (sreg x f.b.toNat))))

/-- pD = sA rel IMM. -/
def cmpRI (n : Nat) (rel : Word → Word → Bool) (l : Nat) (f : CMPf) (s : State) : State :=
  issue s l (wCMP n f) f.g [f.a.toNat] false
    (regBody l (fun x _ => setP x f.pd.toNat (rel (sreg x f.a.toNat) (f.imm.signExtend 32))))

/-- pD = pA op pB. -/
def plog (fn : Nat) (op : Bool → Bool → Bool) (l : Nat) (f : RR) (s : State) : State :=
  issue s l (wRR 0x0A fn f) f.g [] false
    (regBody l (fun x _ => setP x f.d.toNat (op (pget x f.a.toNat) (pget x f.b.toNat))))

/-! ## Operations -/

def opSra (a b : Word) : Word := BitVec.sshiftRight a (b.toNat % 32)
def opSll (a b : Word) : Word := a <<< (b.toNat % 32)
def opSrl (a b : Word) : Word := a >>> (b.toNat % 32)
def opMulh (a b : Word) : Word := BitVec.ofInt 32 (a.toInt * b.toInt / 2 ^ 32)
def opMulhu (a b : Word) : Word := BitVec.ofNat 32 (a.toNat * b.toNat / 2 ^ 32)
def opMin (a b : Word) : Word := if a.slt b then a else b
def opMax (a b : Word) : Word := if a.slt b then b else a
def opMinu (a b : Word) : Word := if a.ult b then a else b
def opMaxu (a b : Word) : Word := if a.ult b then b else a
def opClz (a : Word) : Word := BitVec.ofNat 32 (32 - bitLen a.toNat)

def popCount (n k : Nat) : Nat := (List.range k).foldl (fun acc i => acc + n / 2 ^ i % 2) 0

def opPopc (a : Word) : Word := BitVec.ofNat 32 (popCount a.toNat 32)
def relGe (a b : Word) : Bool := !a.slt b
def relGeu (a b : Word) : Bool := !a.ult b

/-! ## System -/

/-- NOP (R77). -/
def execNop (l : Nat) (f : RR) (s : State) : Out :=
  .next (issue s l (wRR 0x00 0 f) f.g [] false (regBody l (fun x _ => x)))

/-- A ring point, when the next slot carries a configuration with both planes in flow mode (R330). -/
def ringPointAt (s : State) (l : Nat) (counted : Bool) : State :=
  let x := leafOf s l
  if slotValid x.sw.nxt && slotVFlow x.sw.nxt && slotSFlow x.sw.nxt then
    if x.sw.running && slotTimed x.sw.cur then
      if counted then raise (bumpNet s l 19 1) 0x48 l 0 0 else s
    else setLeaf s l { x with sw := { x.sw with ringPoint := true, markerDue := true, ringAt := s.clk.cclk } }
  else s

/-- The leaf holds dirty lines. -/
def dirtyLines (x : Leaf) : List CLine := x.cache.lines.filter (fun c => c.dirty)

/-- What HALT and RFENCE wait for: rem_out zero, the gather buffer drained, dirty lines written back (R132, R168). -/
def drainBody (l : Nat) (fin : State → State) : State → Nat → Res := fun s _ =>
  let x := leafOf s l
  if dirtyLines x ≠ [] then .hold (writeBackAll s l) .writeBack
  else if x.rem ≠ [] || x.gather ≠ [] || x.cache.misses ≠ [] then .block (.stall .drain)
  else .done (fin (modLeaf s l (fun y => { y with cache := { y.cache with lines := [] } })))

/-- HALT (R77, R101): inside a step it faults STEP_NESTING; a flow member leaves its region (R336). -/
def execHalt (l : Nat) (f : RR) (s : State) : Out :=
  .next (issue s l (wRR 0x00 1 f) f.g [] false (fun s t =>
    if (leafOf s l).step.shadow ≠ none then .fault 0x07 0
    else drainBody l (fun u => ringPointAt (modLeaf u l haltLeaf) l true) s t))

/-- The shadow set (R100), taken at the index after STEP.BEGIN. -/
def shadowOf (x : Leaf) : Shadow :=
  { sregs := x.sregs, vregs := x.vregs, preds := x.preds, masks := x.masks, loops := x.loops, ags := x.ags,
    rm := x.rm, vstat := x.vstat, pc := x.pc + 1 }

/-- STEP.BEGIN (R100, R101). -/
def execStepBegin (l : Nat) (f : RR) (s : State) : Out :=
  .next (issue s l (wRR 0x00 2 f) f.g [] false (fun s t =>
    let x := leafOf s l
    if x.step.shadow ≠ none then .fault 0x07 0
    else
      let n := seqNext x x.pc
      .done (setLeaf s l { x with
        step := { shadow := some { shadowOf x with pc := n.1, loops := n.2 }, cycles := t + 1 }
        queues := mmap {} x.queues (fun _ q => { q with ret := 0 }) })))

/-- A load of the step has not returned its data by core cycle `t` (R101, R264): scratchpad loads, RLDW, GRD, cache fills and
engine reads. -/
def stepLoads (s : State) (l t : Nat) : Bool :=
  let x := leafOf s l
  decide (t < x.step.loadAt) || x.idx.any (fun o => !o.store && o.inStep && !o.dropped)
    || x.loads.any (fun p => p.inStep && !p.dropped) || x.cache.misses.any (fun m => m.store = none && m.inStep) || x.errs ≠ []
    || (engOf s (boughOf l)).queue.zipIdx.any (fun d => d.1.leaf = l && x.step.posts.contains d.1.post && d.1.refused = none
        && !(d.2 = 0 && (engOf s (boughOf l)).run.any (fun r => r.readBy ≤ s.clk.cclk)))

/-- STEP.END (R101, R105): retained entries leave their queues; a leaf that a fence stopped halts here (R601). -/
def execStepEnd (l : Nat) (f : RR) (s : State) : Out :=
  .next (issue s l (wRR 0x00 3 f) f.g [] false (fun s t =>
    let x := leafOf s l
    if x.step.shadow = none then .fault 0x07 0
    else if stepLoads s l t then .block (.stall .stepEnd)
    else
      let y : Leaf := { x with
        step := {}
        reruns := 0
        queues := mmap {} x.queues (fun _ q => { toks := q.toks.drop q.ret, ret := 0 }) }
      .done (setLeaf s l (if x.sw.stopped then haltLeaf y else y))))

/-- TSW (R66). -/
def execTsw (l : Nat) (f : RR) (s : State) : Out :=
  .next (issue s l (wRR 0x00 4 f) f.g [] false (fun s _ =>
    let x := leafOf s l
    if x.step.shadow ≠ none || x.loops ≠ [] then .fault 0x0A 0
    else
      let r := mset 0 x.resume x.task (x.pc + 1)
      .jump (ringPointAt (setLeaf s l { x with resume := r, task := f.b.toNat }) l true) (mget 0 r f.b.toNat) 3))

/-- MFSR (R67). -/
def execMfsr (l : Nat) (f : RR) (s : State) : Out :=
  .next (issue s l (wRR 0x00 5 f) f.g [] false (fun s t =>
    let x := leafOf s l
    match srRead l x t f.b.toNat with
    | some v => .done (setLeaf s l (writeS x f.d.toNat v t 1))
    | none => .fault 0x0B 0))

/-- MTSR (R65, R67). -/
def execMtsr (l : Nat) (f : RR) (s : State) : Out :=
  .next (issue s l (wRR 0x00 6 f) f.g [f.a.toNat] false (fun s _ =>
    let x := leafOf s l
    match srWrite x f.b.toNat (sreg x f.a.toNat) with
    | .ok y => .done (setLeaf s l y)
    | .error c => .fault c 0))

/-! ## Scalar ALU (R77) -/

/-- ADD: modulo 2^32 (R77). -/
def execAdd (l : Nat) (f : RR) (s : State) : Out := .next (aluRR 0 1 (fun a b => a + b) l f s)
/-- SUB: modulo 2^32 (R77). -/
def execSub (l : Nat) (f : RR) (s : State) : Out := .next (aluRR 1 1 (fun a b => a - b) l f s)
/-- AND (R77). -/
def execAndR (l : Nat) (f : RR) (s : State) : Out := .next (aluRR 2 1 (fun a b => a &&& b) l f s)
/-- OR (R77). -/
def execOrR (l : Nat) (f : RR) (s : State) : Out := .next (aluRR 3 1 (fun a b => a ||| b) l f s)
/-- XOR (R77). -/
def execXorR (l : Nat) (f : RR) (s : State) : Out := .next (aluRR 4 1 (fun a b => a ^^^ b) l f s)
/-- SLL by sB[4:0] (R77). -/
def execSll (l : Nat) (f : RR) (s : State) : Out := .next (aluRR 5 1 (opSll) l f s)
/-- SRL by sB[4:0] (R77). -/
def execSrl (l : Nat) (f : RR) (s : State) : Out := .next (aluRR 6 1 (opSrl) l f s)
/-- SRA by sB[4:0] (R77). -/
def execSra (l : Nat) (f : RR) (s : State) : Out := .next (aluRR 7 1 (opSra) l f s)
/-- MUL: low word (R77). -/
def execMul (l : Nat) (f : RR) (s : State) : Out := .next (aluRR 8 3 (fun a b => a * b) l f s)
/-- MULH: signed high word (R77). -/
def execMulh (l : Nat) (f : RR) (s : State) : Out := .next (aluRR 9 3 (opMulh) l f s)
/-- MULHU: unsigned high word (R77). -/
def execMulhu (l : Nat) (f : RR) (s : State) : Out := .next (aluRR 10 3 (opMulhu) l f s)
/-- MIN, signed (R77). -/
def execMinR (l : Nat) (f : RR) (s : State) : Out := .next (aluRR 11 1 (opMin) l f s)
/-- MAX, signed (R77). -/
def execMaxR (l : Nat) (f : RR) (s : State) : Out := .next (aluRR 12 1 (opMax) l f s)
/-- MINU (R77). -/
def execMinu (l : Nat) (f : RR) (s : State) : Out := .next (aluRR 13 1 (opMinu) l f s)
/-- MAXU (R77). -/
def execMaxu (l : Nat) (f : RR) (s : State) : Out := .next (aluRR 14 1 (opMaxu) l f s)
/-- CLZ of sA (R77). -/
def execClz (l : Nat) (f : RR) (s : State) : Out := .next (aluR 15 opClz l f s)
/-- POPC of sA (R77). -/
def execPopc (l : Nat) (f : RR) (s : State) : Out := .next (aluR 16 opPopc l f s)
/-- MOVP: sD[7:0] = p7…p0, upper bits 0 (R77). -/
def execMovp (l : Nat) (f : RR) (s : State) : Out :=
  .next (issue s l (wRR 0x01 17 f) f.g [] false
    (regBody l (fun x t => writeS x f.d.toNat (x.preds.setWidth 32) t 1)))
/-- MOVTP: p7…p0 = sA[7:0] (R77). -/
def execMovtp (l : Nat) (f : RR) (s : State) : Out :=
  .next (issue s l (wRR 0x01 18 f) f.g [f.a.toNat] false
    (regBody l (fun x _ => { x with preds := (sreg x f.a.toNat).setWidth 8 })))
/-- ADDI with the sign-extended immediate (R77). -/
def execAddi (l : Nat) (f : RI) (s : State) : Out := .next (aluRI 0x02 (fun a b => a + b) l f s)
/-- ANDI with the sign-extended immediate (R77). -/
def execAndi (l : Nat) (f : RI) (s : State) : Out := .next (aluRI 0x03 (fun a b => a &&& b) l f s)
/-- ORI with the sign-extended immediate (R77). -/
def execOri (l : Nat) (f : RI) (s : State) : Out := .next (aluRI 0x04 (fun a b => a ||| b) l f s)
/-- XORI with the sign-extended immediate (R77). -/
def execXori (l : Nat) (f : RI) (s : State) : Out := .next (aluRI 0x05 (fun a b => a ^^^ b) l f s)
/-- SLLI by IMM[4:0] (R77). -/
def execSlli (l : Nat) (f : SHf) (s : State) : Out := .next (shiftI 0 (fun a n => a <<< n) l f s)
/-- SRLI by IMM[4:0] (R77). -/
def execSrli (l : Nat) (f : SHf) (s : State) : Out := .next (shiftI 1 (fun a n => a >>> n) l f s)
/-- SRAI by IMM[4:0] (R77). -/
def execSrai (l : Nat) (f : SHf) (s : State) : Out := .next (shiftI 2 (fun a n => BitVec.sshiftRight a n) l f s)
/-- LI: sD = sign-extended IMM16 (R77). -/
def execLi (l : Nat) (f : LIf) (s : State) : Out :=
  .next (issue s l (wLI 0 f) f.g [] false (regBody l (fun x t => writeS x f.d.toNat (f.imm.signExtend 32) t 1)))
/-- LIH: sD[31:16] = IMM16, sD[15:0] kept (R77). -/
def execLih (l : Nat) (f : LIf) (s : State) : Out :=
  .next (issue s l (wLI 1 f) f.g [f.d.toNat] false (regBody l (fun x t =>
    writeS x f.d.toNat (f.imm ++ (sreg x f.d.toNat).setWidth 16) t 1)))

/-! ## Compares and predicate logic (R77) -/

/-- EQ: pD = (sA rel sB) (R77). -/
def execEq (l : Nat) (f : RR) (s : State) : Out := .next (cmpRR 0 (fun a b => a == b) l f s)
/-- NE: pD = (sA rel sB) (R77). -/
def execNe (l : Nat) (f : RR) (s : State) : Out := .next (cmpRR 1 (fun a b => a != b) l f s)
/-- LT: pD = (sA rel sB) (R77). -/
def execLt (l : Nat) (f : RR) (s : State) : Out := .next (cmpRR 2 (fun a b => a.slt b) l f s)
/-- LTU: pD = (sA rel sB) (R77). -/
def execLtu (l : Nat) (f : RR) (s : State) : Out := .next (cmpRR 3 (fun a b => a.ult b) l f s)
/-- GE: pD = (sA rel sB) (R77). -/
def execGe (l : Nat) (f : RR) (s : State) : Out := .next (cmpRR 4 (relGe) l f s)
/-- GEU: pD = (sA rel sB) (R77). -/
def execGeu (l : Nat) (f : RR) (s : State) : Out := .next (cmpRR 5 (relGeu) l f s)
/-- CMPI, EQ: pD = (sA rel IMM), signed (R77). -/
def execCmpiEq (l : Nat) (f : CMPf) (s : State) : Out := .next (cmpRI 0 (fun a b => a == b) l f s)
/-- CMPI, NE: pD = (sA rel IMM), signed (R77). -/
def execCmpiNe (l : Nat) (f : CMPf) (s : State) : Out := .next (cmpRI 1 (fun a b => a != b) l f s)
/-- CMPI, LT: pD = (sA rel IMM), signed (R77). -/
def execCmpiLt (l : Nat) (f : CMPf) (s : State) : Out := .next (cmpRI 2 (fun a b => a.slt b) l f s)
/-- CMPI, GE: pD = (sA rel IMM), signed (R77). -/
def execCmpiGe (l : Nat) (f : CMPf) (s : State) : Out := .next (cmpRI 3 (relGe) l f s)
/-- PAND (R77). -/
def execPand (l : Nat) (f : RR) (s : State) : Out := .next (plog 0 (fun a b => a && b) l f s)
/-- POR (R77). -/
def execPor (l : Nat) (f : RR) (s : State) : Out := .next (plog 1 (fun a b => a || b) l f s)
/-- PXOR (R77). -/
def execPxor (l : Nat) (f : RR) (s : State) : Out := .next (plog 2 (fun a b => a != b) l f s)
/-- PANDN (R77). -/
def execPandn (l : Nat) (f : RR) (s : State) : Out := .next (plog 3 (fun a b => a && !b) l f s)
/-- PNOT (R77). -/
def execPnot (l : Nat) (f : RR) (s : State) : Out := .next (plog 4 (fun a _ => !a) l f s)
/-- PSET (R77). -/
def execPset (l : Nat) (f : RR) (s : State) : Out := .next (plog 5 (fun _ _ => true) l f s)
/-- PCLR (R77). -/
def execPclr (l : Nat) (f : RR) (s : State) : Out := .next (plog 6 (fun _ _ => false) l f s)

/-! ## Branches, loops, address generators -/

/-- BR: a taken branch links, leaves loops (R87) and faults at a loop's END (R86). -/
def execBr (l : Nat) (f : BRf) (s : State) : Out :=
  .next (issue s l (wBR f) f.g [f.a.toNat] false (fun s t =>
    let x := leafOf s l
    if x.loops.any (fun r => r.fin = x.pc) then .fault 0x09 0
    else
      let target := ((if f.a = 0 then 0 else sreg x f.a.toNat) + f.target.setWidth 32).toNat
      let y := writeS x f.d.toNat (BitVec.ofNat 32 (x.pc + 1)) t 1
      .jump (setLeaf s l { y with loops := keepLoops y.loops target }) target 3))

/-- LOOP and LOOPI: nesting checks (R86), a zero count passes to END + 1 (R84). -/
def loopBody (l k count fin : Nat) : State → Nat → Res := fun s _ =>
  let x := leafOf s l
  let inner : Bool := match x.loops with
    | r :: _ => r.fin ≤ fin
    | [] => false
  if x.loops.any (fun r => r.k = k) || fin ≤ x.pc || inner then .fault 0x09 0
  else if count = 0 then .jump s (fin + 1) 1
  else .done (setLeaf s l { x with
      loops := { k := k, count := BitVec.ofNat 32 count, start := x.pc + 1, fin := fin } :: x.loops })

/-- LOOP: count from sA (R84, R86). -/
def execLoopR (l : Nat) (f : LPf) (s : State) : Out :=
  .next (issue s l (wLP f) f.g [f.a.toNat] false (fun s t =>
    loopBody l f.k.toNat (sreg (leafOf s l) f.a.toNat).toNat f.fin.toNat s t))

/-- LOOPI: count COUNT8 (R84, R86). -/
def execLoopi (l : Nat) (f : LPIf) (s : State) : Out :=
  .next (issue s l (wLPI f) f.g [] false (loopBody l f.k.toNat f.count.toNat f.fin.toNat))

/-- AGSET: a field of an address generator is set or added to (R77). -/
def execAgset (l : Nat) (f : AGSf) (s : State) : Out :=
  .next (issue s l (wAGS f) f.g [f.a.toNat] false (regBody l (fun x _ =>
    let a := agOf x f.ag.toNat
    let v := sreg x f.a.toNat
    let u (old : Word) : Word := if f.add = 1 then old + v else v
    setAg x f.ag.toNat (match f.field.toNat with
      | 0 => { a with base := u a.base }
      | 1 => { a with stride := u a.stride }
      | 2 => { a with count := u a.count }
      | _ => { a with index := u a.index }))))

end Sys2Proof.Machine
end

