-- ==== Sys2Proof/Machine/LeafNet.lean ====
section
/-! DEFINITION. Steering, queue, counter, wait, remote and posting instructions of the leaf (R77, R78, R88 to R99). -/
namespace Sys2Proof.Machine

/-! ## Steering (R92 to R94) -/

/-- Truth of the steering predicate: a predicate, or the head of a scalar queue (R93). -/
def pTrue (x : Leaf) (p : Nat) : Bool :=
  if p < 8 then pget x p else match qHead x (p - 4) with
    | some t => lane t.data 0 ≠ 0
    | none => false

/-- Queue that the predicate pops. -/
def pQueue (p : Nat) : List Nat := if p < 8 then [] else [p - 4]

def pKey (p : Nat) : List Nat := if p < 8 then [] else [196 + p]

/-- Moves the source to a destination, or discards it: every queue pops once, together (R71, R90). -/
def steerBody (l : Nat) (qs : List Nat) (push : Option Nat) (put : Leaf → Nat → Option Leaf) : State → Nat → Res :=
  fun s t =>
    let x := leafOf s l
    match firstBlock (qs.eraseDups.map (fun q => popBlock x t q true) ++ (push.toList.map (pushBlock x))) with
    | some b => .block b
    | none => match put x t with
      | some y => .done (setLeaf s l (popAll y qs.eraseDups))
      | none => .fault 0x08 0

/-- Port of a vector or scalar destination field. -/
def vPort (d : Nat) : Option Nat := if d ≥ 24 then some (d - 24) else none

/-- A vector steering instruction: the source field chosen, and the destination field if any. -/
def vSteer (fn : Nat) (src : Leaf → Nat) (dst : Leaf → Option Nat) (l : Nat) (f : Sf) (s : State) : State :=
  let x := leafOf s l
  issue s l (wS fn f) f.g (pKey f.p.toNat ++ vkey (src x)) false (fun s t =>
    let y := leafOf s l
    steerBody l (pQueue f.p.toNat ++ vqs [src y]) ((dst y).bind vPort) (fun z u => match dst z with
      | some d => putV z d 0xFFFF (vval z (src z)) u 1
      | none => some z) s t)

/-- The head token of a scalar queue. -/
def sqTok (x : Leaf) (n : Nat) : Tok := (qHead x (4 + n)).getD { data := [0] }

/-- A scalar token enters a scalar port as an effect (R89, R91, R106). -/
def putSq (x : Leaf) (p : Nat) (data : Word) (tag : Byte) (t : Nat) : Option Leaf :=
  match effect x with
  | none => none
  | some (true, y) => some (pushP y p { data := [data], tag := tag, ready := t + 1 })
  | some (false, y) => some y

/-- A scalar steering instruction: destinations 4 and 5 are sx0 and sx1 (R94). -/
def sSteer (fn : Nat) (src : Leaf → Nat) (dst : Leaf → Option Nat) (l : Nat) (f : Sf) (s : State) : State :=
  let x := leafOf s l
  issue s l (wS fn f) f.g (pKey f.p.toNat ++ [204 + src x]) false (fun s t =>
    let y := leafOf s l
    steerBody l (pQueue f.p.toNat ++ [4 + src y]) ((dst y).map (fun d => d - 2)) (fun z u => match dst z with
      | some d => putSq z (d - 2) (lane (sqTok z (src z)).data 0) (sqTok z (src z)).tag u
      | none => some z) s t)

/-- STEER: X to D when P is true, to Y when false (R92). -/
def execSteer (l : Nat) (f : Sf) (s : State) : Out :=
  .next (vSteer 0 (fun _ => f.x.toNat) (fun x => some (if pTrue x f.p.toNat then f.d.toNat else f.y.toNat)) l f s)

/-- MERGE: X when P is true, Y when false, to D; the other is not required (R92). -/
def execMerge (l : Nat) (f : Sf) (s : State) : Out :=
  .next (vSteer 1 (fun x => if pTrue x f.p.toNat then f.x.toNat else f.y.toNat) (fun _ => some f.d.toNat) l f s)

/-- FILTER: X to D when P is true, discarded when false (R92). -/
def execFilter (l : Nat) (f : Sf) (s : State) : Out :=
  .next (vSteer 2 (fun _ => f.x.toNat) (fun x => if pTrue x f.p.toNat then some f.d.toNat else none) l f s)

/-- SSTEER: the scalar STEER (R94). -/
def execSsteer (l : Nat) (f : Sf) (s : State) : Out :=
  .next (sSteer 4 (fun _ => f.x.toNat) (fun x => some (if pTrue x f.p.toNat then f.d.toNat else f.y.toNat)) l f s)

/-- SMERGE: the scalar MERGE (R94). -/
def execSmerge (l : Nat) (f : Sf) (s : State) : Out :=
  .next (sSteer 5 (fun x => if pTrue x f.p.toNat then f.x.toNat else f.y.toNat) (fun _ => some f.d.toNat) l f s)

/-- SFILTER: the scalar FILTER (R94). -/
def execSfilter (l : Nat) (f : Sf) (s : State) : Out :=
  .next (sSteer 6 (fun _ => f.x.toNat) (fun x => if pTrue x f.p.toNat then some f.d.toNat else none) l f s)

/-! ## Queue instructions (R77, R88, R89, R91) -/

/-- SQPOP: sD = data of the head of sq B, popped. -/
def execSqpop (l : Nat) (f : RR) (s : State) : Out :=
  .next (issue s l (wRR 0x21 0 f) f.g [204 + f.b.toNat] false (fun s t =>
    steerBody l [4 + f.b.toNat] none
      (fun x u => some (writeS x f.d.toNat (lane (sqTok x f.b.toNat).data 0) u 1)) s t))

/-- SQTAG: sD[7:0] = tag of the head of sq B, not popped. -/
def execSqtag (l : Nat) (f : RR) (s : State) : Out :=
  .next (issue s l (wRR 0x21 1 f) f.g [204 + f.b.toNat] false (fun s t =>
    let x := leafOf s l
    match popBlock x t (4 + f.b.toNat) false with
    | some b => .block b
    | none => .done (setLeaf s l (timedMark (writeS x f.d.toNat ((sqTok x f.b.toNat).tag.setWidth 32) t 1)
        (qFlow x (4 + f.b.toNat))))))

/-- SQPUSH: data sA, tag sB[7:0], to sx D. -/
def execSqpush (l : Nat) (f : RR) (s : State) : Out :=
  .next (issue s l (wRR 0x21 2 f) f.g [f.a.toNat, f.b.toNat] false (fun s t =>
    steerBody l [] (some (2 + f.d.toNat))
      (fun x u => putSq x (2 + f.d.toNat) (sreg x f.a.toNat) ((sreg x f.b.toNat).setWidth 8) u) s t))

/-- The queue shows a head in cycle `t` (R88, R89). -/
def headAt (x : Leaf) (q t : Nat) : Bool :=
  match qHead x q with
  | some k => k.ready ≤ t
  | none => false

/-- QTESTV: pD = head present in vq B. -/
def execQtestv (l : Nat) (f : RR) (s : State) : Out :=
  .next (issue s l (wRR 0x21 3 f) f.g [] false (regBody l (fun x t =>
    timedMark (setP x f.d.toNat (headAt x f.b.toNat t)) (qFlow x f.b.toNat))))

/-- QTESTS: pD = head present in sq B. -/
def execQtests (l : Nat) (f : RR) (s : State) : Out :=
  .next (issue s l (wRR 0x21 4 f) f.g [] false (regBody l (fun x t =>
    timedMark (setP x f.d.toNat (headAt x (4 + f.b.toNat) t)) (qFlow x (4 + f.b.toNat)))))

/-- QSPACEV: pD = vx B can accept a token. -/
def execQspacev (l : Nat) (f : RR) (s : State) : Out :=
  .next (issue s l (wRR 0x21 5 f) f.g [] false (regBody l (fun x _ =>
    timedMark (setP x f.d.toNat (pSpace x f.b.toNat)) (pFlow x f.b.toNat))))

/-- QSPACES: pD = sx B can accept a token. -/
def execQspaces (l : Nat) (f : RR) (s : State) : Out :=
  .next (issue s l (wRR 0x21 6 f) f.g [] false (regBody l (fun x _ =>
    timedMark (setP x f.d.toNat (pSpace x (2 + f.b.toNat))) (pFlow x (2 + f.b.toNat)))))

/-! ## Counters (R77, R78, R96, R374) -/

/-- LCINC: lc B += sA, an effect (R106, R375). -/
def execLcinc (l : Nat) (f : RR) (s : State) : Out :=
  .next (issue s l (wRR 0x22 0 f) f.g [f.a.toNat] false (fun s _ =>
    let x := leafOf s l
    match effect x with
    | none => .fault 0x08 0
    | some (false, y) => .done (setLeaf s l y)
    | some (true, y) => .done (lcInc (setLeaf s l y) l f.b.toNat (sreg x f.a.toNat).toNat)))

/-- LCRD: pair D = lc B. -/
def execLcrd (l : Nat) (f : RR) (s : State) : Out :=
  .next (issue s l (wRR 0x22 1 f) f.g [] false
    (regBody l (fun x t => writePair x f.d.toNat (lcSeen x f.b.toNat) t 1)))

def pairKeys (n : Nat) : List Nat := [n, n + 1]

/-- The increment as it travels: on the sync network to this chiplet's hub, or as CINC (R374). -/
def incMsg (s : State) (l : Nat) (addr : BitVec 64) (n : Nat) (tag : BitVec 15) : NetMsg :=
  match localGc s addr with
  | some g => .inc { gc := g, amount := n, acks := [(l, tag)] }
  | none => .req 5 (leafReq s l addr 1 [BitVec.ofNat 32 n] tag)

/-- GINC and GFINC: a B field of 0 counts 1 (R78). -/
def gincAt (fn : Nat) (fence : Bool) (l : Nat) (f : RR) (s : State) : State :=
  issue s l (wRR 0x22 fn f) f.g (pairKeys f.a.toNat ++ [f.b.toNat]) false (fun s _ =>
    let x := leafOf s l
    let addr := spair x f.a.toNat
    let n := if f.b = 0 then 1 else (sreg x f.b.toNat).toNat
    remoteBody s l addr false fence id (incMsg s l addr n))

/-- GINC (R78, R96, R376). -/
def execGinc (l : Nat) (f : RR) (s : State) : Out := .next (gincAt 2 false l f s)

/-- GFINC: held behind the leaf's own writes to that chiplet (R378, R379). -/
def execGfinc (l : Nat) (f : RR) (s : State) : Out := .next (gincAt 3 true l f s)

/-- GRD: pair D = the counter, when its response comes (R98). -/
def execGrd (l : Nat) (f : RR) (s : State) : Out :=
  .next (issue s l (wRR 0x22 4 f) f.g (pairKeys f.a.toNat) false (fun s _ =>
    readBody s l (spair (leafOf s l) f.a.toNat) 4 true f.d.toNat))

/-- BARA: one arrival, combined inside the chiplet, an increment of 1 outside it (R374, R387). -/
def execBara (l : Nat) (f : RR) (s : State) : Out :=
  .next (issue s l (wRR 0x22 5 f) f.g (pairKeys f.a.toNat) false (fun s _ =>
    let addr := spair (leafOf s l) f.a.toNat
    remoteBody s l addr false false id (fun tag => match localGc s addr with
      | some g => .bara l g tag
      | none => .req 5 (leafReq s l addr 1 [1] tag))))

/-! ## Waits (R95, R382 to R386) -/

/-- Deadline, in CCLK cycles, of a wait issued in cycle `t`: a nonzero timeout `b` gives one (R95, R382). -/
def deadlineOf (t : Nat) (b : Word) : Option Nat := if b = 0 then none else some (t + b.toNat)

/-- LCWAIT: satisfied at once, or the leaf waits (R382). -/
def execLcwait (l : Nat) (f : Wf) (s : State) : Out :=
  .next (issue s l (wW 0x23 f) f.g (pairKeys f.a.toNat ++ [f.b.toNat]) false (fun s t =>
    let x := leafOf s l
    let w : Wait := { loc := true, n := f.cn.toNat, expected := spair x f.a.toNat,
                      deadline := deadlineOf s.clk.cclk (sreg x f.b.toNat), d := f.d.toNat, pd := f.pd.toNat }
    let v := lcSeen x f.cn.toNat
    if w.expected.toNat ≤ v.toNat then .done (setLeaf s l (endWait x w v true t))
    else .done (setLeaf s l { x with wait := some w })))

/-- GWAIT: a WATCH goes to the hub and the leaf waits (R383); the counter is sD[11:0]. -/
def execGwait (l : Nat) (f : Wf) (s : State) : Out :=
  .next (issue s l (wW 0x24 f) f.g (f.d.toNat :: pairKeys f.a.toNat ++ [f.b.toNat]) false (fun s _ =>
    let x := leafOf s l
    let n := (sreg x f.d.toNat).toNat % 4096
    let w : Wait := { loc := false, n := n, expected := spair x f.a.toNat,
                      deadline := deadlineOf s.clk.cclk (sreg x f.b.toNat), d := f.d.toNat, pd := f.pd.toNat }
    .done (setLeaf s l { x with wait := some w, toHub := x.toHub ++ [.watch n w.expected] })))

/-! ## Remote access (R77, R96 to R98, R162) -/

/-- RLDW: sD = word at G(A). -/
def execRldw (l : Nat) (f : RR) (s : State) : Out :=
  .next (issue s l (wRR 0x25 0 f) f.g (pairKeys f.a.toNat) false (fun s t =>
    let addr := spair (leafOf s l) f.a.toNat
    if addr.toNat % 4 ≠ 0 then .fault 0x04 0
    else if cached s l addr then cachedLoad s l t f.d.toNat (offOf addr)
    else readBody s l addr 0 false f.d.toNat))

/-- RSTW: word at G(A) = sB. -/
def execRstw (l : Nat) (f : RR) (s : State) : Out :=
  .next (issue s l (wRR 0x25 1 f) f.g (pairKeys f.a.toNat ++ [f.b.toNat]) false (fun s _ =>
    let x := leafOf s l
    let addr := spair x f.a.toNat
    let v := sreg x f.b.toNat
    if addr.toNat % 4 ≠ 0 then .fault 0x04 0
    else if cached s l addr then cachedWrite s l id (fun u => cachedStore u l (offOf addr) v)
    else remoteBody s l addr true false id (fun tag => .req 2 (leafReq s l addr 1 [v] tag))))

/-- RSTV: 64 bytes at G(A) = vector operand B. -/
def execRstv (l : Nat) (f : RR) (s : State) : Out :=
  .next (issue s l (wRR 0x25 2 f) f.g (pairKeys f.a.toNat ++ vkey f.b.toNat) false (fun s t =>
    let x := leafOf s l
    let addr := spair x f.a.toNat
    let v := vval x f.b.toNat
    let fin (y : Leaf) : Leaf := popAll y (vqs [f.b.toNat])
    if addr.toNat % 64 ≠ 0 then .fault 0x04 0
    else match vBlock x t [f.b.toNat] 0 with
      | some b => .block b
      | none =>
        if cached s l addr then cachedWrite s l fin (fun u => cachedLine u l (offOf addr) v)
        else remoteBody s l addr true false fin (fun tag => .req 3 (leafReq s l addr 4 v tag))))

/-- RFENCE: waits until rem_out is 0, the gather buffer is drained and dirty lines are back (R77, R132, R168). -/
def execRfence (l : Nat) (f : RR) (s : State) : Out :=
  .next (issue s l (wRR 0x25 3 f) f.g [] false (drainBody l id))

/-! ## Posting (R77, R99, R107, R148 to R150) -/

/-- EPOST: the engine descriptor in vector operand A. -/
def execEpost (l : Nat) (f : RR) (s : State) : Out :=
  .next (issue s l (wRR 0x26 0 f) f.g (vkey f.a.toNat) false (fun s t =>
    let x := leafOf s l
    match vBlock x t [f.a.toNat] 0 with
    | some b => .block b
    | none => epostBody l (BitVec.ofNat 512 (ofWords (vval x f.a.toNat))) s (fun y => popAll y (vqs [f.a.toNat]))))

/-- A DMA descriptor from eight lanes of vector operand A. -/
def dpostAt (fn lane0 : Nat) (l : Nat) (f : RR) (s : State) : State :=
  issue s l (wRR 0x26 fn f) f.g (vkey f.a.toNat) false (fun s t =>
    let x := leafOf s l
    match vBlock x t [f.a.toNat] 0 with
    | some b => .block b
    | none => dpostBody l (BitVec.ofNat 256 (ofWords ((List.range 8).map (fun i => lane (vval x f.a.toNat) (lane0 + i))))) s
        (fun y => popAll y (vqs [f.a.toNat])))

/-- DPOST: lanes 0 to 7 (R412). -/
def execDpost (l : Nat) (f : RR) (s : State) : Out := .next (dpostAt 1 0 l f s)

/-- DPOSTH: lanes 8 to 15 (R412). -/
def execDposth (l : Nat) (f : RR) (s : State) : Out := .next (dpostAt 2 8 l f s)

end Sys2Proof.Machine
end

