-- ==== Sys2Proof/Machine/LeafVector.lean ====
section
/-! DEFINITION. Vector integer, floating-point, compare, miscellaneous and conversion instructions
(R70 to R72, R76 to R82, R212 to R217, R686). -/
namespace Sys2Proof.Machine

/-! ## Shapes -/

/-- vD[i] = op vA[i] vB[i] on the selected lanes. -/
def viRR (fn : Nat) (op : Word → Word → Word) (l : Nat) (f : RR) (s : State) : State :=
  issue s l (wVV 0x18 fn f) f.g (vkey f.a.toNat ++ vkey f.b.toNat ++ mkey f.msk.toNat) false
    (vecBody l [f.a.toNat, f.b.toNat] f.d.toNat (fun x _ =>
      let a := vval x f.a.toNat
      let b := vval x f.b.toNat
      (x, selMask x f.msk.toNat, mkLanes (fun i => op (lane a i) (lane b i)), 2)))

/-- vD[i] = op vA[i]. -/
def viR (fn : Nat) (op : Word → Word) (l : Nat) (f : RR) (s : State) : State :=
  issue s l (wVV 0x18 fn f) f.g (vkey f.a.toNat ++ mkey f.msk.toNat) false
    (vecBody l [f.a.toNat] f.d.toNat (fun x _ =>
      let a := vval x f.a.toNat
      (x, selMask x f.msk.toNat, mkLanes (fun i => op (lane a i)), 2)))

/-- A lane-wise FP operation over the sources named: results with their flags, joined over the selected lanes. -/
def fpLanes (l : Nat) (srcs : List Nat) (d mk lat : Nat) (busy : Bool) (op : Rnd → Leaf → Nat → FRes) :
    State → Nat → Res :=
  vecBody l srcs d (fun x t =>
    let sel := selMask x mk
    let rs := (List.range 16).map (op (rndOf x.rm.toNat) x)
    let y := raiseFlags x (laneFlags sel (rs.map Prod.snd))
    ({ y with fpFree := if busy then t + 16 else y.fpFree }, sel, rs.map Prod.fst, lat))

/-- VFALU with sources A and B. -/
def vfRR (fn lat : Nat) (busy : Bool) (op : Rnd → Word → Word → FRes) (l : Nat) (f : RR) (s : State) : State :=
  issue s l (wVV 0x19 fn f) f.g (vkey f.a.toNat ++ vkey f.b.toNat ++ mkey f.msk.toNat) true
    (fpLanes l [f.a.toNat, f.b.toNat] f.d.toNat f.msk.toNat lat busy
      (fun rm x i => op rm (lane (vval x f.a.toNat) i) (lane (vval x f.b.toNat) i)))

/-- VFALU with source A. -/
def vfR (fn lat : Nat) (busy : Bool) (op : Rnd → Word → FRes) (l : Nat) (f : RR) (s : State) : State :=
  issue s l (wVV 0x19 fn f) f.g (vkey f.a.toNat ++ mkey f.msk.toNat) true
    (fpLanes l [f.a.toNat] f.d.toNat f.msk.toNat lat busy (fun rm x i => op rm (lane (vval x f.a.toNat) i)))

/-- Fused multiply-add with the old vD. -/
def vfFma (fn : Nat) (negP negD : Bool) (l : Nat) (f : RR) (s : State) : State :=
  issue s l (wVV 0x19 fn f) f.g (vkey f.a.toNat ++ vkey f.b.toNat ++ vkey f.d.toNat ++ mkey f.msk.toNat) true
    (fpLanes l [f.a.toNat, f.b.toNat] f.d.toNat f.msk.toNat 4 false (fun rm x i =>
      ffmaW rm negP negD (lane (vval x f.a.toNat) i) (lane (vval x f.b.toNat) i) (lane (vreg x f.d.toNat) i)))

/-- mD = lanes where the relation holds; unselected bits stay (R72). -/
def vcmp (fn : Nat) (rel : Word → Word → Bool × Nat) (l : Nat) (f : RR) (s : State) : State :=
  issue s l (wVV 0x1A fn f) f.g (vkey f.a.toNat ++ vkey f.b.toNat ++ mkey f.msk.toNat) false (fun s t =>
    let x := leafOf s l
    match vBlock x t [f.a.toNat, f.b.toNat] 0 with
    | some b => .block b
    | none =>
      let a := vval x f.a.toNat
      let b := vval x f.b.toNat
      let sel := selMask x f.msk.toNat
      let rs := (List.range 16).map (fun i => rel (lane a i) (lane b i))
      let m : BitVec 16 := BitVec.ofNat 16 ((List.range 16).foldl (fun acc i => acc + b2n (rs.getD i (false, 0)).1 * 2 ^ i) 0)
      let y := raiseFlags (popAll x (vqs [f.a.toNat, f.b.toNat])) (laneFlags sel (rs.map Prod.snd))
      .done (setLeaf s l (writeM y f.d.toNat ((m &&& sel) ||| (vmask x f.d.toNat &&& ~~~sel)) t 2)))

/-- sD = a reduction of the selected lanes of vA, with flags. -/
def vreduce (fn lat : Nat) (op : Rnd → BitVec 16 → Lanes → FRes) (l : Nat) (f : RR) (s : State) : State :=
  issue s l (wVV 0x1B fn f) f.g (vkey f.a.toNat ++ mkey f.msk.toNat) false (fun s t =>
    let x := leafOf s l
    match vBlock x t [f.a.toNat] 0 with
    | some b => .block b
    | none =>
      let r := op (rndOf x.rm.toNat) (selMask x f.msk.toNat) (vval x f.a.toNat)
      .done (setLeaf s l (writeS (raiseFlags (popAll x (vqs [f.a.toNat])) r.2) f.d.toNat r.1 t lat)))

/-- VCVT: a lane-wise conversion of vA. -/
def vcvt (fn : Nat) (op : Rnd → Word → FRes) (l : Nat) (f : RR) (s : State) : State :=
  issue s l (wVV 0x1C fn f) f.g (vkey f.a.toNat ++ mkey f.msk.toNat) true
    (fpLanes l [f.a.toNat] f.d.toNat f.msk.toNat 4 false (fun rm x i => op rm (lane (vval x f.a.toNat) i)))

/-- VXF: no flags, no rounding attribute (R82). -/
def vxfn (fn : Nat) (op : Word → Word) (l : Nat) (f : RR) (s : State) : State :=
  issue s l (wVV 0x1D fn f) f.g (vkey f.a.toNat ++ mkey f.msk.toNat) true
    (fpLanes l [f.a.toNat] f.d.toNat f.msk.toNat 8 false (fun _ x i => (op (lane (vval x f.a.toNat) i), 0)))

/-! ## Reductions (R81) -/

/-- The selected lanes, absent ones none. -/
def selLanes (sel : BitVec 16) (v : Lanes) : List (Option Word) :=
  (List.range 16).map (fun i => if sel.getLsbD i then some (lane v i) else none)

/-- The rank tree over FP results, flags joined; `none` selected gives `e`. -/
def ftree (f : Word → Word → FRes) (e : Word) (sel : BitVec 16) (v : Lanes) : FRes :=
  let g (a b : FRes) : FRes := let r := f a.1 b.1
    (r.1, r.2 ||| a.2 ||| b.2)
  (treeFold g 5 ((selLanes sel v).map (fun o => o.map (fun w => (w, 0))))).getD (e, 0)

def redSum (sel : BitVec 16) (v : Lanes) : Word := (selLanes sel v).foldl (fun acc o => acc + o.getD 0) 0

def redMax (sel : BitVec 16) (v : Lanes) : Word := (selLanes sel v).foldl (fun acc o => opMax acc (o.getD 0x80000000)) 0x80000000

/-! ## Vector integer (R77) -/

/-- VADD, lane-wise (R77). -/
def execVadd (l : Nat) (f : RR) (s : State) : Out := .next (viRR 0 (fun a b => a + b) l f s)
/-- VSUB, lane-wise (R77). -/
def execVsub (l : Nat) (f : RR) (s : State) : Out := .next (viRR 1 (fun a b => a - b) l f s)
/-- VMUL, lane-wise (R77). -/
def execVmul (l : Nat) (f : RR) (s : State) : Out := .next (viRR 2 (fun a b => a * b) l f s)
/-- VMULH, lane-wise (R77). -/
def execVmulh (l : Nat) (f : RR) (s : State) : Out := .next (viRR 3 (opMulh) l f s)
/-- VAND, lane-wise (R77). -/
def execVand (l : Nat) (f : RR) (s : State) : Out := .next (viRR 4 (fun a b => a &&& b) l f s)
/-- VOR, lane-wise (R77). -/
def execVor (l : Nat) (f : RR) (s : State) : Out := .next (viRR 5 (fun a b => a ||| b) l f s)
/-- VXOR, lane-wise (R77). -/
def execVxor (l : Nat) (f : RR) (s : State) : Out := .next (viRR 6 (fun a b => a ^^^ b) l f s)
/-- VSLL, lane-wise (R77). -/
def execVsll (l : Nat) (f : RR) (s : State) : Out := .next (viRR 7 (opSll) l f s)
/-- VSRL, lane-wise (R77). -/
def execVsrl (l : Nat) (f : RR) (s : State) : Out := .next (viRR 8 (opSrl) l f s)
/-- VSRA, lane-wise (R77). -/
def execVsra (l : Nat) (f : RR) (s : State) : Out := .next (viRR 9 (opSra) l f s)
/-- VMIN, lane-wise (R77). -/
def execVmin (l : Nat) (f : RR) (s : State) : Out := .next (viRR 10 (opMin) l f s)
/-- VMAX, lane-wise (R77). -/
def execVmax (l : Nat) (f : RR) (s : State) : Out := .next (viRR 11 (opMax) l f s)
/-- VMINU, lane-wise (R77). -/
def execVminu (l : Nat) (f : RR) (s : State) : Out := .next (viRR 12 (opMinu) l f s)
/-- VMAXU, lane-wise (R77). -/
def execVmaxu (l : Nat) (f : RR) (s : State) : Out := .next (viRR 13 (opMaxu) l f s)
/-- VABS: magnitude modulo 2^32 (R77). -/
def execVabs (l : Nat) (f : RR) (s : State) : Out := .next (viR 14 (fun a => if a.slt 0 then -a else a) l f s)
/-- VNEG, modulo 2^32 (R77). -/
def execVneg (l : Nat) (f : RR) (s : State) : Out := .next (viR 15 (fun a => -a) l f s)

/-! ## Vector floating point (R80, R215, R686) -/

/-- VFADD rounded by vctl.RM (R80, R686). -/
def execVfadd (l : Nat) (f : RR) (s : State) : Out := .next (vfRR 0 4 false faddW l f s)
/-- VFSUB rounded by vctl.RM (R80, R686). -/
def execVfsub (l : Nat) (f : RR) (s : State) : Out := .next (vfRR 1 4 false fsubW l f s)
/-- VFMUL rounded by vctl.RM (R80, R686). -/
def execVfmul (l : Nat) (f : RR) (s : State) : Out := .next (vfRR 2 4 false fmulW l f s)
/-- VFMA: vA × vB + vD, one rounding (R686). -/
def execVfma (l : Nat) (f : RR) (s : State) : Out := .next (vfFma 3 false false l f s)
/-- VFMS: vA × vB − vD, one rounding (R686). -/
def execVfms (l : Nat) (f : RR) (s : State) : Out := .next (vfFma 4 false true l f s)
/-- VFNMA: −(vA × vB) + vD, one rounding (R686). -/
def execVfnma (l : Nat) (f : RR) (s : State) : Out := .next (vfFma 5 true false l f s)
/-- VFMIN: IEEE 754-2019 minimum (R215, R216). -/
def execVfmin (l : Nat) (f : RR) (s : State) : Out := .next (vfRR 6 4 false (fun _ a b => fminmaxW false a b) l f s)
/-- VFMAX: IEEE 754-2019 maximum (R215, R216). -/
def execVfmax (l : Nat) (f : RR) (s : State) : Out := .next (vfRR 7 4 false (fun _ a b => fminmaxW true a b) l f s)
/-- VFABS: the sign bit alone (R77, R686). -/
def execVfabs (l : Nat) (f : RR) (s : State) : Out := .next (vfR 8 4 false (fun _ a => (a &&& 0x7FFFFFFF, 0)) l f s)
/-- VFNEG: the sign bit alone (R77, R686). -/
def execVfneg (l : Nat) (f : RR) (s : State) : Out := .next (vfR 9 4 false (fun _ a => (a ^^^ 0x80000000, 0)) l f s)
/-- VFDIV, correctly rounded; the unit is busy 16 cycles (R76, R686). -/
def execVfdiv (l : Nat) (f : RR) (s : State) : Out := .next (vfRR 10 18 true fdivW l f s)
/-- VFSQRT, correctly rounded; the unit is busy 16 cycles (R76, R686). -/
def execVfsqrt (l : Nat) (f : RR) (s : State) : Out := .next (vfR 11 18 true fsqrtW l f s)

/-! ## Vector compares (R77, R217) -/

/-- VEQ (R77). -/
def execVeq (l : Nat) (f : RR) (s : State) : Out := .next (vcmp 0 (fun a b => (a == b, 0)) l f s)
/-- VNE (R77). -/
def execVne (l : Nat) (f : RR) (s : State) : Out := .next (vcmp 1 (fun a b => (a != b, 0)) l f s)
/-- VLT (R77). -/
def execVlt (l : Nat) (f : RR) (s : State) : Out := .next (vcmp 2 (fun a b => (a.slt b, 0)) l f s)
/-- VLTU (R77). -/
def execVltu (l : Nat) (f : RR) (s : State) : Out := .next (vcmp 3 (fun a b => (a.ult b, 0)) l f s)
/-- VGE (R77). -/
def execVge (l : Nat) (f : RR) (s : State) : Out := .next (vcmp 4 (fun a b => (relGe a b, 0)) l f s)
/-- VGEU (R77). -/
def execVgeu (l : Nat) (f : RR) (s : State) : Out := .next (vcmp 5 (fun a b => (relGeu a b, 0)) l f s)
/-- VFEQ (R77, R217). -/
def execVfeq (l : Nat) (f : RR) (s : State) : Out := .next (vcmp 8 feqC l f s)
/-- VFNE (R77, R217). -/
def execVfne (l : Nat) (f : RR) (s : State) : Out := .next (vcmp 9 fneC l f s)
/-- VFLT (R77, R217). -/
def execVflt (l : Nat) (f : RR) (s : State) : Out := .next (vcmp 10 fltC l f s)
/-- VFLE (R77, R217). -/
def execVfle (l : Nat) (f : RR) (s : State) : Out := .next (vcmp 11 fleC l f s)
/-- VFUN (R77, R217). -/
def execVfun (l : Nat) (f : RR) (s : State) : Out := .next (vcmp 12 funC l f s)

/-! ## VMISC (R77, R81) -/

/-- VSEL: lanes selected by MK take vA, others vB (R77). -/
def execVsel (l : Nat) (f : RR) (s : State) : Out :=
  .next (issue s l (wVV 0x1B 0 f) f.g (vkey f.a.toNat ++ vkey f.b.toNat ++ mkey f.msk.toNat) false
    (vecBody l [f.a.toNat, f.b.toNat] f.d.toNat (fun x _ =>
      (x, 0xFFFF, mergeLanes (selMask x f.msk.toNat) (vval x f.a.toNat) (vval x f.b.toNat), 2))))
/-- VBCAST: every selected lane = sA (R77). -/
def execVbcast (l : Nat) (f : RR) (s : State) : Out :=
  .next (issue s l (wVV 0x1B 1 f) f.g (f.a.toNat :: mkey f.msk.toNat) false
    (vecBody l [] f.d.toNat (fun x _ => (x, selMask x f.msk.toNat, mkLanes (fun _ => sreg x f.a.toNat), 2))))
/-- VEXT: sD = lane B[3:0] of vA (R77). -/
def execVext (l : Nat) (f : RR) (s : State) : Out :=
  .next (issue s l (wVV 0x1B 2 f) f.g (vkey f.a.toNat) false (fun s t =>
    let x := leafOf s l
    match vBlock x t [f.a.toNat] 0 with
    | some b => .block b
    | none => .done (setLeaf s l
        (writeS (popAll x (vqs [f.a.toNat])) f.d.toNat (lane (vval x f.a.toNat) f.b.toNat) t 2))))
/-- VINS: lane B[3:0] of vD = sA, where MK selects that lane (R72, R77). -/
def execVins (l : Nat) (f : RR) (s : State) : Out :=
  .next (issue s l (wVV 0x1B 3 f) f.g (f.a.toNat :: vkey f.d.toNat ++ mkey f.msk.toNat) false (regBody l (fun x t =>
    let old := vreg x f.d.toNat
    let new := mkLanes (fun i => if i = f.b.toNat then sreg x f.a.toNat else lane old i)
    writeV x f.d.toNat (mergeLanes (selMask x f.msk.toNat) new old) t 2)))
/-- VPERM: vD[i] = vA[vB[i][3:0]] (R77). -/
def execVperm (l : Nat) (f : RR) (s : State) : Out :=
  .next (issue s l (wVV 0x1B 4 f) f.g (vkey f.a.toNat ++ vkey f.b.toNat ++ mkey f.msk.toNat) false
    (vecBody l [f.a.toNat, f.b.toNat] f.d.toNat (fun x _ =>
      let a := vval x f.a.toNat
      let b := vval x f.b.toNat
      (x, selMask x f.msk.toNat, mkLanes (fun i => lane a ((lane b i).toNat % 16)), 2))))
/-- VRSUM: sum of the selected lanes modulo 2^32 (R81). -/
def execVrsum (l : Nat) (f : RR) (s : State) : Out := .next (vreduce 5 4 (fun _ sel v => (redSum sel v, 0)) l f s)
/-- VRMAX: signed maximum of the selected lanes (R81). -/
def execVrmax (l : Nat) (f : RR) (s : State) : Out := .next (vreduce 7 4 (fun _ sel v => (redMax sel v, 0)) l f s)
/-- VFRSUM: the rank tree of FP32 sums (R81). -/
def execVfrsum (l : Nat) (f : RR) (s : State) : Out := .next (vreduce 6 16 (fun rm sel v => ftree (faddW rm) 0 sel v) l f s)
/-- VFRMAX: the rank tree of maxima (R81). -/
def execVfrmax (l : Nat) (f : RR) (s : State) : Out := .next (vreduce 8 4 (fun _ sel v => ftree (fminmaxW true) 0xFF800000 sel v) l f s)
/-- VFRMIN: the rank tree of minima (R81). -/
def execVfrmin (l : Nat) (f : RR) (s : State) : Out := .next (vreduce 9 4 (fun _ sel v => ftree (fminmaxW false) 0x7F800000 sel v) l f s)
/-- MTM: mD = sA[15:0] (R77). -/
def execMtm (l : Nat) (f : RR) (s : State) : Out :=
  .next (issue s l (wVV 0x1B 10 f) f.g [f.a.toNat] false
    (regBody l (fun x t => writeM x f.d.toNat ((sreg x f.a.toNat).setWidth 16) t 2)))
/-- MFM: sD = mA (R77). -/
def execMfm (l : Nat) (f : RR) (s : State) : Out :=
  .next (issue s l (wVV 0x1B 11 f) f.g [64 + f.a.toNat] false
    (regBody l (fun x t => writeS x f.d.toNat ((vmask x f.a.toNat).setWidth 32) t 2)))
/-- MPOPC: sD = popcount of mA (R77). -/
def execMpopc (l : Nat) (f : RR) (s : State) : Out :=
  .next (issue s l (wVV 0x1B 12 f) f.g [64 + f.a.toNat] false
    (regBody l (fun x t => writeS x f.d.toNat (BitVec.ofNat 32 (popCount (vmask x f.a.toNat).toNat 16)) t 2)))

/-! ## Conversions (R79, R212 to R214) -/

/-- VF2I (R79). -/
def execVf2i (l : Nat) (f : RR) (s : State) : Out := .next (vcvt 0 (fun rm a => f2int rm (-(2 ^ 31)) (2 ^ 31 - 1) a) l f s)
/-- VI2F (R77, R80). -/
def execVi2f (l : Nat) (f : RR) (s : State) : Out := .next (vcvt 1 (fun rm a => int2f rm a.toInt) l f s)
/-- VF2U (R79). -/
def execVf2u (l : Nat) (f : RR) (s : State) : Out := .next (vcvt 2 (fun rm a => f2int rm 0 (2 ^ 32 - 1) a) l f s)
/-- VU2F (R77, R80). -/
def execVu2f (l : Nat) (f : RR) (s : State) : Out := .next (vcvt 3 (fun rm a => int2f rm (a.toNat : Int)) l f s)
/-- VF2H (R212, R213). -/
def execVf2h (l : Nat) (f : RR) (s : State) : Out := .next (vcvt 4 (f2half fF16) l f s)
/-- VH2F (R214). -/
def execVh2f (l : Nat) (f : RR) (s : State) : Out := .next (vcvt 5 (fun _ a => widen fF16 a) l f s)
/-- VF2BF (R212, R213). -/
def execVf2bf (l : Nat) (f : RR) (s : State) : Out := .next (vcvt 6 (f2half fBF16) l f s)
/-- VBF2F (R214). -/
def execVbf2f (l : Nat) (f : RR) (s : State) : Out := .next (vcvt 7 (fun _ a => widen fBF16 a) l f s)
/-- VF2E4 (R212, R213). -/
def execVf2e4 (l : Nat) (f : RR) (s : State) : Out := .next (vcvt 8 (f2f8 fE4M3) l f s)
/-- VE42F (R214). -/
def execVe42f (l : Nat) (f : RR) (s : State) : Out := .next (vcvt 9 (fun _ a => widen fE4M3 a) l f s)
/-- VF2E5 (R212, R213). -/
def execVf2e5 (l : Nat) (f : RR) (s : State) : Out := .next (vcvt 10 (f2f8 fE5M2) l f s)
/-- VE52F (R214). -/
def execVe52f (l : Nat) (f : RR) (s : State) : Out := .next (vcvt 11 (fun _ a => widen fE5M2 a) l f s)

/-! ## Approximate functions (R82; log 9) -/

/-- VRCP (R82). -/
def execVrcp (l : Nat) (f : RR) (s : State) : Out := .next (vxfn 0 vrcpW l f s)
/-- VRSQ (R82). -/
def execVrsq (l : Nat) (f : RR) (s : State) : Out := .next (vxfn 1 vrsqW l f s)
/-- VEXP2 (R82). -/
def execVexp2 (l : Nat) (f : RR) (s : State) : Out := .next (vxfn 2 vexp2W l f s)
/-- VLOG2 (R82). -/
def execVlog2 (l : Nat) (f : RR) (s : State) : Out := .next (vxfn 3 vlog2W l f s)
/-- VTANH (R82). -/
def execVtanh (l : Nat) (f : RR) (s : State) : Out := .next (vxfn 4 vtanhW l f s)
/-- VSIGM (R82). -/
def execVsigm (l : Nat) (f : RR) (s : State) : Out := .next (vxfn 5 vsigmW l f s)

end Sys2Proof.Machine
end

