-- ==== Sys2Proof/Machine/Responses.lean ====
section
/-! DEFINITION. Responses at their requesters, and the requests that time out (R96 to R98, R356, R365, R367, R422, R426,
R475, R504). -/
namespace Sys2Proof.Machine

/-- The response named: operation, endpoints and tag. -/
def sameResp (op : Nat) (r : Resp) (m : BitVec 5 × Resp) : Bool :=
  m.1.toNat = op && m.2.src = r.src && m.2.ep = r.ep && m.2.tag = r.tag

/-- The packet leaves the network. -/
def takeResp (s : State) (op : Nat) (r : Resp) : State :=
  { s with net := { s.net with resps := s.net.resps.eraseP (sameResp op r) } }

/-- An earlier response of the same source to the same endpoint stands before this one (R362). -/
def respWaits (s : State) (op : Nat) (r : Resp) : Bool :=
  (s.net.resps.find? (fun m => m.2.src = r.src && m.2.ep = r.ep)).any (fun m => !sameResp op r m)

/-- The response waits where it is. -/
def keepResp (s : State) (op : Nat) (r : Resp) : State :=
  if s.net.resps.any (sameResp op r) then s
  else { s with net := { s.net with resps := s.net.resps ++ [(BitVec.ofNat 5 op, r)] } }

/-- R356 for a response of this chiplet; a link's were checked at its port (R473). -/
def badResp (op : Nat) (r : Resp) : Bool := r.via = none && (r.rsv || r.len > 4 || !lenOk op r.len)

/-- A response that is malformed, or that nobody awaits, is counted (R356, R367, R473). -/
def discardResp (s : State) (r : Resp) : State :=
  let t : State := { s with net := { s.net with discards := sat32 (s.net.discards + 1) } }
  match r.via with
  | some p => { t with links := { t.links with discards := mmod 0 t.links.discards p (fun n => sat32 (n + 1)) } }
  | none => t

/-- The code that the requester sees: a trunk replaces the link codes (R475). -/
def seenCode (r : Resp) : Nat :=
  let c := r.code.toNat
  if r.via = none then c else if c = 0x20 || c = 0x21 then 2 else if c = 0x22 then 0x0B else c

/-- A response at its endpoint: it waits for one before it, is discarded where no router brings it there or it is malformed, or is
used (R356, R360 to R362). -/
def receiveResp (s : State) (op : Nat) (r : Resp) (use : State → State) : State :=
  let t := takeResp s op r
  if respWaits s op r then keepResp s op r
  else if (r.ep ≠ 0xA40 && (routeCode s r.src r.ep).isSome) || badResp op r then discardResp t r
  else use t

def remOf (x : Leaf) (tag : BitVec 15) : Option RemOp := x.rem.find? (fun r => r.tag = tag)

def loadOf (x : Leaf) (tag : BitVec 15) : Option PendLoad := x.loads.find? (fun p => p.tag = tag)

def pieceOf (x : Column) (tag : BitVec 15) : Option PieceOp := x.pieces.find? (fun p => p.tag = tag)

/-- The operation leaves rem_out (R96). -/
def dropRem (x : Leaf) (tag : BitVec 15) : Leaf := { x with rem := x.rem.filter (fun r => r.tag ≠ tag) }

def dropLoad (x : Leaf) (tag : BitVec 15) : Leaf := { x with loads := x.loads.filter (fun p => p.tag ≠ tag) }

/-- RLDW or GRD writes its destination in core cycle `t` (R98), unless a re-run has discarded it (R102). -/
def landLoad (x : Leaf) (p : PendLoad) (data : List Word) (t : Nat) : Leaf :=
  let y := dropLoad x p.tag
  if p.dropped then y
  else if p.pair then writePair y p.d (BitVec.ofNat 64 (ofWords (data.take 2))) t 1
  else writeS y p.d (data.getD 0 0) t 1

/-- A read that was refused: REMOTE_REFUSED at the read (R98). -/
def refuseLoad (s : State) (l : Nat) (p : PendLoad) : State :=
  let t := modLeaf s l (fun x => dropLoad x p.tag)
  if p.dropped || (leafOf t l).run ≠ .running then t else leafFault t l 0x0F p.pc 0

/-- A remote operation that was refused; a cache write-back is none of R96's. -/
def refuseRem (s : State) (l : Nat) (r : RemOp) (code : Nat) : State :=
  modLeaf s l (fun x => if r.wb then dropRem x r.tag else remRefuse (dropRem x r.tag) code)

/-- ACK: a remote operation leaves rem_out; a column's write piece is done. -/
def execAck (r : Resp) (s : State) : Out :=
  .next (receiveResp s 0x10 r (fun t =>
    if r.ep < 0x900 then
      match remOf (leafOf t r.ep) r.tag with
      | some _ => modLeaf t r.ep (fun x => dropRem x r.tag)
      | none => discardResp t r
    else match pieceOf (colOf t (r.ep - 0x900)) r.tag with
      | some p => pieceDone t (r.ep - 0x900) p none []
      | none => discardResp t r))

/-- DATA: a read's result. -/
def execData (r : Resp) (s : State) : Out :=
  .next (receiveResp s 0x11 r (fun t =>
    if r.ep < 0x900 then
      match loadOf (leafOf t r.ep) r.tag with
      | some p => modLeaf t r.ep (fun x => landLoad x p r.data (leafNow t x))
      | none => discardResp t r
    else match pieceOf (colOf t (r.ep - 0x900)) r.tag with
      | some p => pieceDone t (r.ep - 0x900) p none r.data
      | none => discardResp t r))

/-- A refusal reaches its requester: a leaf's operation or read, or a column's piece. -/
def refusedAt (s : State) (ep : Nat) (tag : BitVec 15) (code : Nat) : Option State :=
  if ep < 0x900 then
    match remOf (leafOf s ep) tag, loadOf (leafOf s ep) tag with
    | some r, _ => some (refuseRem s ep r code)
    | none, some p => some (refuseLoad s ep p)
    | none, none => none
  else match pieceOf (colOf s (ep - 0x900)) tag with
    | some p => some (pieceDone s (ep - 0x900) p (some code) [])
    | none => none

/-- NAK: the request was refused; endpoint 0xA40 stands for the collective unit, whose collective fails (R504). -/
def execNak (r : Resp) (s : State) : Out :=
  .next (receiveResp s 0x12 r (fun t =>
    if r.ep = 0xA40 then collTry t (fun u => collNak u r.tag.toNat) (fun u => keepResp u 0x12 r)
    else match refusedAt t r.ep r.tag (seenCode r) with
      | some u => u
      | none => discardResp t r))

/-- The request has been out for its timeout; one still held at its leaf has not been sent (R367, R378). -/
def expired (s : State) (sentAt timeout : Nat) : Bool := timeout ≠ 0 && sentAt + timeout ≤ s.clk.cclk

/-- Address of the endpoint's expired request with this tag. -/
def expiredAddr (s : State) (ep : Nat) (tag : BitVec 15) : Option (BitVec 64) :=
  if ep < 0x900 then
    let x := leafOf s ep
    let held := x.heldSends.any (fun h => msgTag h.msg = tag)
    match remOf x tag, loadOf x tag with
    | some r, _ => if expired s r.sentAt r.timeout && !held then some r.addr else none
    | none, some p => if expired s p.sentAt p.timeout && !held then some p.addr else none
    | none, none => none
  else match pieceOf (colOf s (ep - 0x900)) tag with
    | some p => if expired s p.sentAt p.timeout then some p.addr else none
    | none => none

/-- RESPONSE_TIMEOUT: the request completes as refused with code 0x0C, is counted and reported (R367). -/
def execResponseTimeout (ep tag : Nat) (s : State) : Out :=
  .next (
    match expiredAddr s ep (BitVec.ofNat 15 tag) with
    | none => s
    | some a =>
      let s1 : State := { s with net := { s.net with
        refusals := mmod 0 s.net.refusals 0x0C (fun n => sat32 (n + 1)) } }
      let s2 := raise s1 0x27 ep 0x0C (a.toNat + (originId s).toNat * 2 ^ 64)
      match refusedAt s2 ep (BitVec.ofNat 15 tag) 0x0C with
      | some u => u
      | none => s2)

end Sys2Proof.Machine
end

