-- ==== Sys2Proof/Machine/Dispatch.lean ====
section
/-! DEFINITION. One arm per command: its meaning. -/
namespace Sys2Proof.Machine

def exec (i : Instr) (s : State) : Host.Outcome State Fault Refusal :=
  match i with
  | .porstNAssert => Sys2Proof.Machine.execPorstNAssert s
  | .porstNRelease slotId profSel => Sys2Proof.Machine.execPorstNRelease slotId profSel s
  | .romBoot => Sys2Proof.Machine.execRomBoot s
  | .fwVerify => Sys2Proof.Machine.execFwVerify s
  | .odAssembly => Sys2Proof.Machine.execOdAssembly s
  | .profileApply => Sys2Proof.Machine.execProfileApply s
  | .calibration found => Sys2Proof.Machine.execCalibration found s
  | .memoryInit retire found => Sys2Proof.Machine.execMemoryInit retire found s
  | .startTest found => Sys2Proof.Machine.execStartTest found s
  | .gridBuild => Sys2Proof.Machine.execGridBuild s
  | .crownRstN => Sys2Proof.Machine.execCrownRstN s
  | .crownRstNRelease => Sys2Proof.Machine.execCrownRstNRelease s
  | .crownResetPhase => Sys2Proof.Machine.execCrownResetPhase s
  | .supplyFault rail => Sys2Proof.Machine.execSupplyFault rail s
  | .refclkLoss => Sys2Proof.Machine.execRefclkLoss s
  | .thermalTrip sensor reading => Sys2Proof.Machine.execThermalTrip sensor reading s
  | .sensorSample r => Sys2Proof.Machine.execSensorSample r s
  | .governorEvaluation => Sys2Proof.Machine.execGovernorEvaluation s
  | .stepPoint barrier => Sys2Proof.Machine.execStepPoint barrier s
  | .stepDeadline => Sys2Proof.Machine.execStepDeadline s
  | .pllRelockDone => Sys2Proof.Machine.execPllRelockDone s
  | .vcrSlewDone => Sys2Proof.Machine.execVcrSlewDone s
  | .portTrainingComplete port partner modules lanes => Sys2Proof.Machine.execPortTrainingComplete port partner modules lanes s
  | .linkTrainingRetry port => Sys2Proof.Machine.execLinkTrainingRetry port s
  | .linkParam port p => Sys2Proof.Machine.execLinkParam port p s
  | .flitReceive port mod retries flit => Sys2Proof.Machine.execFlitReceive port mod retries flit s
  | .packetForward => Sys2Proof.Machine.execPacketForward s
  | .moduleFailure port mod => Sys2Proof.Machine.execModuleFailure port mod s
  | .read256 r => Sys2Proof.Machine.execRead256 r s
  | .write256 r => Sys2Proof.Machine.execWrite256 r s
  | .read4 r => Sys2Proof.Machine.execRead4 r s
  | .read64 r => Sys2Proof.Machine.execRead64 r s
  | .write4 r => Sys2Proof.Machine.execWrite4 r s
  | .write64 r => Sys2Proof.Machine.execWrite64 r s
  | .cread r => Sys2Proof.Machine.execCread r s
  | .cinc r => Sys2Proof.Machine.execCinc r s
  | .dpostRequest r => Sys2Proof.Machine.execDpostRequest r s
  | .ack r => Sys2Proof.Machine.execAck r s
  | .data r => Sys2Proof.Machine.execData r s
  | .nak r => Sys2Proof.Machine.execNak r s
  | .responseTimeout ep tag => Sys2Proof.Machine.execResponseTimeout ep tag s
  | .remoteIncrement m => Sys2Proof.Machine.execRemoteIncrement m s
  | .barrierCombine node gc => Sys2Proof.Machine.execBarrierCombine node gc s
  | .gfincLeaves l => Sys2Proof.Machine.execGfincLeaves l s
  | .watch l => Sys2Proof.Machine.execWatch l s
  | .satisfy l => Sys2Proof.Machine.execSatisfy l s
  | .waitTimeout l => Sys2Proof.Machine.execWaitTimeout l s
  | .cancel l => Sys2Proof.Machine.execCancel l s
  | .value l => Sys2Proof.Machine.execValue l s
  | .leafStart l => Sys2Proof.Machine.execLeafStart l s
  | .reRun l => Sys2Proof.Machine.execReRun l s
  | .rejoin l => Sys2Proof.Machine.execRejoin l s
  | .gatherDrain l row => Sys2Proof.Machine.execGatherDrain l row s
  | .depositWrite l => Sys2Proof.Machine.execDepositWrite l s
  | .canopyLandingWrite l => Sys2Proof.Machine.execCanopyLandingWrite l s
  | .scoreboardRelease l => Sys2Proof.Machine.execScoreboardRelease l s
  | .cacheFill l check => Sys2Proof.Machine.execCacheFill l check s
  | .engineOpStart b => Sys2Proof.Machine.execEngineOpStart b s
  | .engineOpComplete b => Sys2Proof.Machine.execEngineOpComplete b s
  | .engineRefusedAtHead b => Sys2Proof.Machine.execEngineRefusedAtHead b s
  | .dmaDescriptorAccept c => Sys2Proof.Machine.execDmaDescriptorAccept c s
  | .lineLaunch c => Sys2Proof.Machine.execLineLaunch c s
  | .lineComplete c check => Sys2Proof.Machine.execLineComplete c check s
  | .dmaComplete c => Sys2Proof.Machine.execDmaComplete c s
  | .dmaRefusedAtHead c => Sys2Proof.Machine.execDmaRefusedAtHead c s
  | .refresh c => Sys2Proof.Machine.execRefresh c s
  | .patrolScrub c check => Sys2Proof.Machine.execPatrolScrub c check s
  | .correctionWriteBack c => Sys2Proof.Machine.execCorrectionWriteBack c s
  | .retirementCopy c => Sys2Proof.Machine.execRetirementCopy c s
  | .groupCycleAdvance l => Sys2Proof.Machine.execGroupCycleAdvance l s
  | .slotComplete l => Sys2Proof.Machine.execSlotComplete l s
  | .readyReport l => Sys2Proof.Machine.execReadyReport l s
  | .go g => Sys2Proof.Machine.execGo g s
  | .goArrival g => Sys2Proof.Machine.execGoArrival g s
  | .spad p => Sys2Proof.Machine.execSpad p s
  | .istore p => Sys2Proof.Machine.execIstore p s
  | .switchNext p => Sys2Proof.Machine.execSwitchNext p s
  | .leafRecord p => Sys2Proof.Machine.execLeafRecord p s
  | .groupPkt p => Sys2Proof.Machine.execGroupPkt p s
  | .endPkt p => Sys2Proof.Machine.execEndPkt p s
  | .canopyRepairPacket l kind p => Sys2Proof.Machine.execCanopyRepairPacket l kind p s
  | .repairRound => Sys2Proof.Machine.execRepairRound s
  | .flowTransfer l => Sys2Proof.Machine.execFlowTransfer l s
  | .flowCreditReturn l sink => Sys2Proof.Machine.execFlowCreditReturn l sink s
  | .ringMarker l => Sys2Proof.Machine.execRingMarker l s
  | .nextSlotCurrent l => Sys2Proof.Machine.execNextSlotCurrent l s
  | .refill l q => Sys2Proof.Machine.execRefill l q s
  | .join l => Sys2Proof.Machine.execJoin l s
  | .leave l => Sys2Proof.Machine.execLeave l s
  | .quiet l => Sys2Proof.Machine.execQuiet l s
  | .quietAtHub l => Sys2Proof.Machine.execQuietAtHub l s
  | .clearAtHub l => Sys2Proof.Machine.execClearAtHub l s
  | .confirmationWindowEnd g => Sys2Proof.Machine.execConfirmationWindowEnd g s
  | .spill l => Sys2Proof.Machine.execSpill l s
  | .answer g => Sys2Proof.Machine.execAnswer g s
  | .abort l => Sys2Proof.Machine.execAbort l s
  | .unitFailure site => Sys2Proof.Machine.execUnitFailure site s
  | .crownDown core => Sys2Proof.Machine.execCrownDown core s
  | .postTake => Sys2Proof.Machine.execPostTake s
  | .grant m => Sys2Proof.Machine.execGrant m s
  | .contrib m => Sys2Proof.Machine.execContrib m s
  | .result m => Sys2Proof.Machine.execResult m s
  | .small m => Sys2Proof.Machine.execSmall m s
  | .confirm m => Sys2Proof.Machine.execConfirm m s
  | .settle m => Sys2Proof.Machine.execSettle m s
  | .poison m => Sys2Proof.Machine.execPoison m s
  | .collTimeout slot => Sys2Proof.Machine.execCollTimeout slot s
  | .settleLost slot => Sys2Proof.Machine.execSettleLost slot s
  | .dynamicAddressAssignment addr => Sys2Proof.Machine.execDynamicAddressAssignment addr s
  | .setEndpointId m eid => Sys2Proof.Machine.execSetEndpointId m eid s
  | .getEndpointId m => Sys2Proof.Machine.execGetEndpointId m s
  | .getMctpVersionSupport m => Sys2Proof.Machine.execGetMctpVersionSupport m s
  | .getMessageTypeSupport m => Sys2Proof.Machine.execGetMessageTypeSupport m s
  | .getVendorDefinedMessageSupport m => Sys2Proof.Machine.execGetVendorDefinedMessageSupport m s
  | .sessionOpen q => Sys2Proof.Machine.execSessionOpen q s
  | .sessionClose q => Sys2Proof.Machine.execSessionClose q s
  | .odRead q => Sys2Proof.Machine.execOdRead q s
  | .odWrite q => Sys2Proof.Machine.execOdWrite q s
  | .groveId q => Sys2Proof.Machine.execGroveId q s
  | .alertAckSeq q => Sys2Proof.Machine.execAlertAckSeq q s
  | .govPowerBudget q => Sys2Proof.Machine.execGovPowerBudget q s
  | .govStepsPermitted q => Sys2Proof.Machine.execGovStepsPermitted q s
  | .eventRead q => Sys2Proof.Machine.execEventRead q s
  | .eventsSuppressed => Sys2Proof.Machine.execEventsSuppressed s
  | .trustGetIdentity q => Sys2Proof.Machine.execTrustGetIdentity q s
  | .quoteBuild q => Sys2Proof.Machine.execQuoteBuild q s
  | .quoteRead q => Sys2Proof.Machine.execQuoteRead q s
  | .trustOwnerProvision q => Sys2Proof.Machine.execTrustOwnerProvision q s
  | .debugUnlockChallenge q => Sys2Proof.Machine.execDebugUnlockChallenge q s
  | .debugUnlockTransition q => Sys2Proof.Machine.execDebugUnlockTransition q s
  | .nvCommit q => Sys2Proof.Machine.execNvCommit q s
  | .factoryRestore q => Sys2Proof.Machine.execFactoryRestore q s
  | .profileSelect q => Sys2Proof.Machine.execProfileSelect q s
  | .profileStore q => Sys2Proof.Machine.execProfileStore q s
  | .profileClear q => Sys2Proof.Machine.execProfileClear q s
  | .crownReset q => Sys2Proof.Machine.execCrownReset q s
  | .portReset q => Sys2Proof.Machine.execPortReset q s
  | .portsOpen q => Sys2Proof.Machine.execPortsOpen q s
  | .runBegin q => Sys2Proof.Machine.execRunBegin q s
  | .groupInstall q => Sys2Proof.Machine.execGroupInstall q s
  | .groupRemove q => Sys2Proof.Machine.execGroupRemove q s
  | .graftLoad q => Sys2Proof.Machine.execGraftLoad q s
  | .defectClear q => Sys2Proof.Machine.execDefectClear q s
  | .fwInstall q => Sys2Proof.Machine.execFwInstall q s
  | .cmdDone => Sys2Proof.Machine.execCmdDone s
  | .nop l f => Sys2Proof.Machine.execNop l f s
  | .halt l f => Sys2Proof.Machine.execHalt l f s
  | .stepBegin l f => Sys2Proof.Machine.execStepBegin l f s
  | .stepEnd l f => Sys2Proof.Machine.execStepEnd l f s
  | .tsw l f => Sys2Proof.Machine.execTsw l f s
  | .mfsr l f => Sys2Proof.Machine.execMfsr l f s
  | .mtsr l f => Sys2Proof.Machine.execMtsr l f s
  | .add l f => Sys2Proof.Machine.execAdd l f s
  | .sub l f => Sys2Proof.Machine.execSub l f s
  | .andR l f => Sys2Proof.Machine.execAndR l f s
  | .orR l f => Sys2Proof.Machine.execOrR l f s
  | .xorR l f => Sys2Proof.Machine.execXorR l f s
  | .sll l f => Sys2Proof.Machine.execSll l f s
  | .srl l f => Sys2Proof.Machine.execSrl l f s
  | .sra l f => Sys2Proof.Machine.execSra l f s
  | .mul l f => Sys2Proof.Machine.execMul l f s
  | .mulh l f => Sys2Proof.Machine.execMulh l f s
  | .mulhu l f => Sys2Proof.Machine.execMulhu l f s
  | .minR l f => Sys2Proof.Machine.execMinR l f s
  | .maxR l f => Sys2Proof.Machine.execMaxR l f s
  | .minu l f => Sys2Proof.Machine.execMinu l f s
  | .maxu l f => Sys2Proof.Machine.execMaxu l f s
  | .clz l f => Sys2Proof.Machine.execClz l f s
  | .popc l f => Sys2Proof.Machine.execPopc l f s
  | .movp l f => Sys2Proof.Machine.execMovp l f s
  | .movtp l f => Sys2Proof.Machine.execMovtp l f s
  | .addi l f => Sys2Proof.Machine.execAddi l f s
  | .andi l f => Sys2Proof.Machine.execAndi l f s
  | .ori l f => Sys2Proof.Machine.execOri l f s
  | .xori l f => Sys2Proof.Machine.execXori l f s
  | .slli l f => Sys2Proof.Machine.execSlli l f s
  | .srli l f => Sys2Proof.Machine.execSrli l f s
  | .srai l f => Sys2Proof.Machine.execSrai l f s
  | .li l f => Sys2Proof.Machine.execLi l f s
  | .lih l f => Sys2Proof.Machine.execLih l f s
  | .eq l f => Sys2Proof.Machine.execEq l f s
  | .ne l f => Sys2Proof.Machine.execNe l f s
  | .lt l f => Sys2Proof.Machine.execLt l f s
  | .ltu l f => Sys2Proof.Machine.execLtu l f s
  | .ge l f => Sys2Proof.Machine.execGe l f s
  | .geu l f => Sys2Proof.Machine.execGeu l f s
  | .cmpiEq l f => Sys2Proof.Machine.execCmpiEq l f s
  | .cmpiNe l f => Sys2Proof.Machine.execCmpiNe l f s
  | .cmpiLt l f => Sys2Proof.Machine.execCmpiLt l f s
  | .cmpiGe l f => Sys2Proof.Machine.execCmpiGe l f s
  | .pand l f => Sys2Proof.Machine.execPand l f s
  | .por l f => Sys2Proof.Machine.execPor l f s
  | .pxor l f => Sys2Proof.Machine.execPxor l f s
  | .pandn l f => Sys2Proof.Machine.execPandn l f s
  | .pnot l f => Sys2Proof.Machine.execPnot l f s
  | .pset l f => Sys2Proof.Machine.execPset l f s
  | .pclr l f => Sys2Proof.Machine.execPclr l f s
  | .br l f => Sys2Proof.Machine.execBr l f s
  | .loopR l f => Sys2Proof.Machine.execLoopR l f s
  | .loopi l f => Sys2Proof.Machine.execLoopi l f s
  | .agset l f => Sys2Proof.Machine.execAgset l f s
  | .ldw l f => Sys2Proof.Machine.execLdw l f s
  | .stw l f => Sys2Proof.Machine.execStw l f s
  | .lda l f => Sys2Proof.Machine.execLda l f s
  | .sta l f => Sys2Proof.Machine.execSta l f s
  | .vlda l f => Sys2Proof.Machine.execVlda l f s
  | .vsta l f => Sys2Proof.Machine.execVsta l f s
  | .vld l f => Sys2Proof.Machine.execVld l f s
  | .vst l f => Sys2Proof.Machine.execVst l f s
  | .vldx l f => Sys2Proof.Machine.execVldx l f s
  | .vstx l f => Sys2Proof.Machine.execVstx l f s
  | .vadd l f => Sys2Proof.Machine.execVadd l f s
  | .vsub l f => Sys2Proof.Machine.execVsub l f s
  | .vmul l f => Sys2Proof.Machine.execVmul l f s
  | .vmulh l f => Sys2Proof.Machine.execVmulh l f s
  | .vand l f => Sys2Proof.Machine.execVand l f s
  | .vor l f => Sys2Proof.Machine.execVor l f s
  | .vxor l f => Sys2Proof.Machine.execVxor l f s
  | .vsll l f => Sys2Proof.Machine.execVsll l f s
  | .vsrl l f => Sys2Proof.Machine.execVsrl l f s
  | .vsra l f => Sys2Proof.Machine.execVsra l f s
  | .vmin l f => Sys2Proof.Machine.execVmin l f s
  | .vmax l f => Sys2Proof.Machine.execVmax l f s
  | .vminu l f => Sys2Proof.Machine.execVminu l f s
  | .vmaxu l f => Sys2Proof.Machine.execVmaxu l f s
  | .vabs l f => Sys2Proof.Machine.execVabs l f s
  | .vneg l f => Sys2Proof.Machine.execVneg l f s
  | .vfadd l f => Sys2Proof.Machine.execVfadd l f s
  | .vfsub l f => Sys2Proof.Machine.execVfsub l f s
  | .vfmul l f => Sys2Proof.Machine.execVfmul l f s
  | .vfma l f => Sys2Proof.Machine.execVfma l f s
  | .vfms l f => Sys2Proof.Machine.execVfms l f s
  | .vfnma l f => Sys2Proof.Machine.execVfnma l f s
  | .vfmin l f => Sys2Proof.Machine.execVfmin l f s
  | .vfmax l f => Sys2Proof.Machine.execVfmax l f s
  | .vfabs l f => Sys2Proof.Machine.execVfabs l f s
  | .vfneg l f => Sys2Proof.Machine.execVfneg l f s
  | .vfdiv l f => Sys2Proof.Machine.execVfdiv l f s
  | .vfsqrt l f => Sys2Proof.Machine.execVfsqrt l f s
  | .veq l f => Sys2Proof.Machine.execVeq l f s
  | .vne l f => Sys2Proof.Machine.execVne l f s
  | .vlt l f => Sys2Proof.Machine.execVlt l f s
  | .vltu l f => Sys2Proof.Machine.execVltu l f s
  | .vge l f => Sys2Proof.Machine.execVge l f s
  | .vgeu l f => Sys2Proof.Machine.execVgeu l f s
  | .vfeq l f => Sys2Proof.Machine.execVfeq l f s
  | .vfne l f => Sys2Proof.Machine.execVfne l f s
  | .vflt l f => Sys2Proof.Machine.execVflt l f s
  | .vfle l f => Sys2Proof.Machine.execVfle l f s
  | .vfun l f => Sys2Proof.Machine.execVfun l f s
  | .vsel l f => Sys2Proof.Machine.execVsel l f s
  | .vbcast l f => Sys2Proof.Machine.execVbcast l f s
  | .vext l f => Sys2Proof.Machine.execVext l f s
  | .vins l f => Sys2Proof.Machine.execVins l f s
  | .vperm l f => Sys2Proof.Machine.execVperm l f s
  | .vrsum l f => Sys2Proof.Machine.execVrsum l f s
  | .vrmax l f => Sys2Proof.Machine.execVrmax l f s
  | .vfrsum l f => Sys2Proof.Machine.execVfrsum l f s
  | .vfrmax l f => Sys2Proof.Machine.execVfrmax l f s
  | .vfrmin l f => Sys2Proof.Machine.execVfrmin l f s
  | .mtm l f => Sys2Proof.Machine.execMtm l f s
  | .mfm l f => Sys2Proof.Machine.execMfm l f s
  | .mpopc l f => Sys2Proof.Machine.execMpopc l f s
  | .vf2i l f => Sys2Proof.Machine.execVf2i l f s
  | .vi2f l f => Sys2Proof.Machine.execVi2f l f s
  | .vf2u l f => Sys2Proof.Machine.execVf2u l f s
  | .vu2f l f => Sys2Proof.Machine.execVu2f l f s
  | .vf2h l f => Sys2Proof.Machine.execVf2h l f s
  | .vh2f l f => Sys2Proof.Machine.execVh2f l f s
  | .vf2bf l f => Sys2Proof.Machine.execVf2bf l f s
  | .vbf2f l f => Sys2Proof.Machine.execVbf2f l f s
  | .vf2e4 l f => Sys2Proof.Machine.execVf2e4 l f s
  | .ve42f l f => Sys2Proof.Machine.execVe42f l f s
  | .vf2e5 l f => Sys2Proof.Machine.execVf2e5 l f s
  | .ve52f l f => Sys2Proof.Machine.execVe52f l f s
  | .vrcp l f => Sys2Proof.Machine.execVrcp l f s
  | .vrsq l f => Sys2Proof.Machine.execVrsq l f s
  | .vexp2 l f => Sys2Proof.Machine.execVexp2 l f s
  | .vlog2 l f => Sys2Proof.Machine.execVlog2 l f s
  | .vtanh l f => Sys2Proof.Machine.execVtanh l f s
  | .vsigm l f => Sys2Proof.Machine.execVsigm l f s
  | .steer l f => Sys2Proof.Machine.execSteer l f s
  | .merge l f => Sys2Proof.Machine.execMerge l f s
  | .filter l f => Sys2Proof.Machine.execFilter l f s
  | .ssteer l f => Sys2Proof.Machine.execSsteer l f s
  | .smerge l f => Sys2Proof.Machine.execSmerge l f s
  | .sfilter l f => Sys2Proof.Machine.execSfilter l f s
  | .sqpop l f => Sys2Proof.Machine.execSqpop l f s
  | .sqtag l f => Sys2Proof.Machine.execSqtag l f s
  | .sqpush l f => Sys2Proof.Machine.execSqpush l f s
  | .qtestv l f => Sys2Proof.Machine.execQtestv l f s
  | .qtests l f => Sys2Proof.Machine.execQtests l f s
  | .qspacev l f => Sys2Proof.Machine.execQspacev l f s
  | .qspaces l f => Sys2Proof.Machine.execQspaces l f s
  | .lcinc l f => Sys2Proof.Machine.execLcinc l f s
  | .lcrd l f => Sys2Proof.Machine.execLcrd l f s
  | .ginc l f => Sys2Proof.Machine.execGinc l f s
  | .gfinc l f => Sys2Proof.Machine.execGfinc l f s
  | .grd l f => Sys2Proof.Machine.execGrd l f s
  | .bara l f => Sys2Proof.Machine.execBara l f s
  | .lcwait l f => Sys2Proof.Machine.execLcwait l f s
  | .gwait l f => Sys2Proof.Machine.execGwait l f s
  | .rldw l f => Sys2Proof.Machine.execRldw l f s
  | .rstw l f => Sys2Proof.Machine.execRstw l f s
  | .rstv l f => Sys2Proof.Machine.execRstv l f s
  | .rfence l f => Sys2Proof.Machine.execRfence l f s
  | .epost l f => Sys2Proof.Machine.execEpost l f s
  | .dpost l f => Sys2Proof.Machine.execDpost l f s
  | .dposth l f => Sys2Proof.Machine.execDposth l f s
  | .supplyRestored => Sys2Proof.Machine.execSupplyRestored s
  | .refclkRestored => Sys2Proof.Machine.execRefclkRestored s
  | .moduleRetrained port mod ok lanes => Sys2Proof.Machine.execModuleRetrained port mod ok lanes s
  | .testAccessPort op => Sys2Proof.Machine.execTestAccessPort op s
  | .mctpPacket u => Sys2Proof.Machine.execMctpPacket u s

end Sys2Proof.Machine
end

