-- ==== Sys2Proof/Machine/Tick.lean ====
section
/-! DEFINITION. What passes by itself while no command waits: one clock cycle. At its end everything is done whose cycle the spec
fixes and no command has brought, then the counts per CCLK cycle advance, and time with them (R125, R131, R152, R173, R261, R291,
R292, R298 to R301, R317, R325, R331, R334, R337, R338, R347, R352, R367, R382, R385, R403 to R405, R414, R425, R443, R466, R484,
R515, R518, R562, R595, R615 to R617, R620; logs 1, 145). -/
namespace Sys2Proof.Machine

/-! ## Time -/

/-- The crown clock runs: only a step change and the thermal trip stop it (R616, R617, R620). -/
def cclkRuns (s : State) : Bool :=
  !s.gov.tripped && match s.gov.change with
    | some c => c.stage ≠ 1
    | none => true

/-- A cycle's length in units of 1/4,504,500 µs: of CCLK at the step in use (1.3, 1.1, 0.9 and 0.7 GHz), or of the root
control clock (500 MHz) while CCLK is stopped. -/
def cycleUnits (s : State) : Nat :=
  if cclkRuns s then
    match s.gov.step with
    | 0 => 3465
    | 1 => 4095
    | 2 => 5005
    | _ => 6435
  else 9009

def clockTick (s : State) : Clock :=
  let n := s.clk.frac + cycleUnits s
  { cclk := s.clk.cclk + b2n (cclkRuns s), us := s.clk.us + n / 4504500, frac := n % 4504500 }

/-! ## What is due -/

/-- The state after a command's meaning. -/
def after (f : State → Out) (s : State) : State :=
  match f s with
  | .next t => t
  | _ => s

def eachLeaf (f : Nat → State → State) (s : State) : State := s.leaves.foldl (fun t p => f p.1 t) s

def eachColumn (f : Nat → State → State) (s : State) : State := s.columns.foldl (fun t p => f p.1 t) s

/-- A meaning again and again, `n` times. -/
def times (n : Nat) (f : State → State) (s : State) : State := (List.range n).foldl (fun t _ => f t) s

/-- Credits whose return falls in this cycle (R325). -/
def creditsDue (l : Nat) (s : State) : State :=
  (leafOf s l).sw.returning.foldl (fun t p =>
    times (p.2.filter (fun c => c ≤ s.clk.cclk)).length (after (execFlowCreditReturn l p.1)) t) s

/-- The fabric's cycle: goes, returned credits, markers and slot changes, group cycles and completed slots, transfers (R291, R292, R298,
R325, R331, R334). -/
def fabricCycle (s : State) : State :=
  let s1 := s.hub.groups.foldl (fun t p => after (execGoArrival p.1) t) s
  let s2 := eachLeaf (fun l t => after (execNextSlotCurrent l) (after (execRingMarker l) (creditsDue l t))) s1
  let s3 := eachLeaf (fun l => after (execRejoin l)) s2
  let s4 := eachLeaf (fun l => after (execGroupCycleAdvance l)) s3
  eachLeaf (fun l t => after (execFlowTransfer l) (after (execSlotComplete l) t)) s4

/-- The rows that a VLDX or VSTX under way asks for of the banks, each granted or lost (R123, R124). -/
def idxCycle (l : Nat) (s : State) : State :=
  let now := s.clk.cclk
  let ask (t : State) (b : Nat) : State :=
    let x := leafOf t l
    match idxRow x now b with
    | none => t
    | some r =>
      if bankWins x now b 0 r.1 (askedSince (bankOf x b) now 0) then
        serveRow (settle (setLeaf t l (bankGrant x now 0 b)) l [r.2]) l r.2
      else setLeaf t l (bankLose r.1 x now 0 b)
  match (leafOf s l).idx with
  | none => s
  | some _ => modLeaf ((List.range 16).foldl ask s) l (fun x => finishIdx { x with coreReq := now + 1 } (leafNow s x))

/-- The write-gather buffer's cycle: where CORE asked for nothing its oldest entry requests its drain; each that does asks (R123,
R131). -/
def gatherCycle (l : Nat) (s : State) : State :=
  let x := leafOf s l
  let y := if x.coreReq = s.clk.cclk + 1 then x else wantOldest x s.clk.cclk
  x.gather.foldl (fun t g => drainAsk t l g.row) (setLeaf s l y)

/-- The scratchpad's cycle: refills, deposits, the landing row, the rows and the buffer's drains (R125, R128, R131, R347). -/
def padCycle (l : Nat) (s : State) : State :=
  let s1 := (List.range 8).foldl (fun t q => after (execRefill l q) t) s
  let s2 := ((leafOf s1 l).deposits.filter (depositNow s.clk.cclk)).foldl (fun t d => writeDeposit t l d) s1
  gatherCycle l (idxCycle l (after (execCanopyLandingWrite l) s2))

/-- Flags that have been on their way for 256 cycles reach the hub (R338). -/
def flagsDue (l : Nat) (s : State) : State :=
  match (leafOf s l).sw.flags with
  | f :: _ =>
    if f.2 + 256 ≤ s.clk.cclk then (if f.1 then after (execQuietAtHub l) s else after (execClearAtHub l) s) else s
  | [] => s

/-- Tags of what a leaf has out. -/
def outTags (x : Leaf) : List Nat := x.rem.map (fun r => r.tag.toNat) ++ x.loads.map (fun p => p.tag.toNat)

/-- Errors, waits and timeouts of a leaf whose cycle has come, sends that need wait no longer, and its reports (R102, R338, R367, R378,
R382, R385). -/
def leafDue (l : Nat) (s : State) : State :=
  let s1 := after (execWaitTimeout l) (after (execReRun l) s)
  let s2 := (outTags (leafOf s1 l)).foldl (fun t tag => after (execResponseTimeout l tag) t) (after (execGfincLeaves l) s1)
  flagsDue l (after (execQuiet l) s2)

/-- The head of a column's queue: a refused one is recorded, else its next element begins or its next line or piece goes (R403, R407,
R425). -/
def headDue (c : Nat) (s : State) : State :=
  match (colOf s c).queue with
  | d :: _ =>
    if d.refused ≠ none then after (execDmaRefusedAtHead c) s
    else if d.begun then after (execLineLaunch c) s
    else after (execLineLaunch c) (after (execLineLaunch c) s)
  | [] => s

/-- The oldest launched line, from the hundred and twelfth cycle after its launch on; a check that finds something comes with its
command (R404, R405). -/
def lineDue (c : Nat) (s : State) : State :=
  match (colOf s c).lines with
  | k :: _ => if k.at_ + 112 ≤ s.clk.cclk then after (execLineComplete c .clean) s else s
  | [] => s

/-- A column's cycle: lines and descriptors that complete, posts that enter, the head of the queue, pieces that time out (R367, R404,
R405, R414). -/
def columnCycle (c : Nat) (s : State) : State :=
  let x := colOf s c
  let s1 := times x.lines.length (lineDue c) s
  let s2 := times x.active.length (after (execDmaComplete c)) s1
  let s3 := headDue c (times x.posts.length (after (execDmaDescriptorAccept c)) s2)
  x.pieces.foldl (fun t p => after (execResponseTimeout (0x900 + c) p.tag.toNat) t) s3

/-! ## Counts of a cycle -/

/-- The leaf is flow-quiet in this cycle (R337). -/
def flowQuiet (s : State) (l : Nat) : Bool :=
  let x := leafOf s l
  x.run = .running && (x.stall = some .queueEmpty || x.stall = some .portFull) && !x.sw.moved && !spillWaits s l
    && !x.deposits.any (fun d => d.spill)
    && x.sw.refills = [] && (List.range 8).all (fun q => !refillDue x q)

def addCount (m : SMap Nat) (k : Nat) (on : Bool) : SMap Nat := if on then mmod 0 m k (fun v => sat32 (v + 1)) else m

/-- A request of requester `q` lost arbitration in this cycle (R173, R261). -/
def bankLost (x : Leaf) (now q : Nat) : Bool := x.banks.any (fun p => p.2.waits.any (fun w => w.1 = q && w.2.2.2 = now))

/-- The member performed no group cycle in this CCLK cycle (R298, R317). -/
def memberHeld (x : Leaf) (now : Nat) : Bool := x.sw.running && !slotDone x && decide (x.sw.advAt ≠ now + 1)

/-- One CCLK cycle's counts of a leaf, and what ends with the cycle: the core stands still with a member held by another's; released
scoreboard entries are free; written deposits and old windows are gone (R125, R144, R153, R173, R300, R317, R337, R338, R352, R375). -/
def leafEnd (now : Nat) (quiet : Bool) (x : Leaf) : Leaf :=
  let y : Leaf := if quiet then { x with sw := { x.sw with quietFor := x.sw.quietFor + 1 } }
    else if x.sw.joined ≠ none then notQuiet now x
    else x
  let held := memberHeld x now
  let z := sbFreeDue y now
  { z with
    sb := z.sb.filter (fun e => !e.freed)
    stall := if x.stall = some .scoreboard && z.sb.any (fun e => e.freed) then none else x.stall
    counters := addCount (addCount x.counters 8 (x.run = .running && x.stall = some .scoreboard)) 7 (bankLost x now 0)
    netCounters := addCount (addCount x.netCounters 20 quiet) 5 held
    lcOld := []
    deposits := x.deposits.filter (fun d => now < d.at_ + 2)
    winOld := x.winOld.filter (fun w => now + 1 < w.before)
    sw := { y.sw with moved := false, lag := x.sw.lag + b2n (held && !x.sw.held && !errHolds now x) } }

/-- One CCLK cycle's counts of an engine (R261). -/
def engineEnd (s : State) (b : Nat) (e : Engine) : Engine :=
  let lost := (List.range 16).any (fun j => bankLost (leafOf s (boughLeaf b j)) s.clk.cclk 2)
  { e with counters := addCount (addCount e.counters 4 e.run.isSome) 5 lost }

/-! ## The cycle -/

/-- A cycle of the crown ends. -/
def crownCycle (s : State) : State :=
  let s1 := eachColumn columnCycle (eachLeaf leafDue (eachLeaf padCycle (fabricCycle s)))
  let s2 := s1.hub.regions.foldl (fun t p => after (execConfirmationWindowEnd p.1) t) s1
  { s2 with
    engines := mmap {} s2.engines (fun b e => engineEnd s2 b e)
    leaves := mmap {} s2.leaves (fun l x => leafEnd s2.clk.cclk (x.sw.joined ≠ none && flowQuiet s2 l) x) }

/-! ## The root tier's own time -/

/-- Messages of the collective unit that wait for a held access try it again; a post whose counter has passed it is taken every 64 I/O
clock cycles, 16 of the root control clock; collectives time out (R484, R515, R518; log 141). -/
def collDue (s u : State) : State :=
  let t := u.coll.waiting.foldl (fun v q => collMsg q.1 q.2 v) u
  let v := if rootCycle t / 16 = rootCycle s / 16 then t else after execPostTake t
  (List.range 16).foldl (fun w k => after (execSettleLost k) (after (execCollTimeout k) w)) v

/-- What the root tier does once its time has come, from state `s` of the cycle before: ports, collectives, a step change at the step
point of an idle crown or 10 ms after its decision, a repair round, the entries for what the last second suppressed (R466, R484, R562,
R595, R615). -/
def rootDue (s u : State) : State :=
  let v := collDue s ((List.range 4).foldl portDue (flushSuppressed (rollSecond u)))
  after execRepairRound (after execStepDeadline (after (execStepPoint false) v))

/-- One clock cycle: the crown's where its clock runs; time passes while PORST_N is high, for the root tier too (R443); a wait
on a local counter ends in the cycle that shows what it expects (R375, R382). -/
def clockCycle (s : State) : State :=
  if !s.pins.porst then s
  else
    let t := if crownRuns s then crownCycle s else s
    let u : State := { t with clk := clockTick s }
    let v := times (slotsGone u / 14 - slotsGone s / 14) sendFlits (rootDue s u)
    if crownRuns s then eachLeaf (fun l w => wakeLocal w l) v else v

end Sys2Proof.Machine
end

