-- ==== Sys2Proof/Machine/Step.lean ====
section
/-! DEFINITION. One step of the chiplet: the command at the front of the queue, or a clock cycle where none waits (log 1). -/
namespace Sys2Proof.Machine

/-- The first waiting command takes effect; with none waiting, one clock cycle passes. -/
def step (s : State) : Host.Outcome State Fault Refusal :=
  match s.pending with
  | c :: rest => exec c { s with pending := rest }
  | [] => .next (clockCycle s)

/-- The command that a table word spells, at the front of the queue; the table gives no row any bits, so none is. -/
def State.withFetchWord (s : State) (nbits w : Nat) : State :=
  match decodeTableWord nbits w with
  | some c => { s with pending := c :: s.pending }
  | none => s

end Sys2Proof.Machine
end

