-- ==== Sys2Proof/Safety.lean ====
section
/-! DEFINITION. The terms in which claims speak of a run: the memory invariant, a leaf that issues an instruction, and what
an instruction leaves as it was. -/
namespace Sys2Proof.Machine

/-- Memory is in canonical form: addresses rise, and no listed byte reads as an unlisted one would. -/
def MemCanonical (s : State) : Prop := memWf s.mem = true

/-- The event log is the ring of R559: at most 4,096 entries, numbered one after the other up to its head. -/
def LogInOrder (g : EvLog) : Prop :=
  g.entries.length ≤ 4096 ∧ g.entries.map Event.seq = (List.range g.entries.length).map (fun i => g.oldest + i)
    ∧ g.oldest + g.entries.length = g.head

/-- In DEBUG and RETIRED the wrap-disable fuse is blown (R632). -/
def DebugWrapped (f : Fuse) : Prop := f.lifecycle = 4 ∨ f.lifecycle = 5 → f.wrapDisabled = true

/-- READY is released in COMPUTE and nowhere else (R571). -/
def ReadyInCompute (s : State) : Prop := s.pins.ready = decide (s.boot.phase = .compute)

/-- Every byte of memory reads as before. -/
def SameMem (s t : State) : Prop := ∀ a, readByte t.mem a = readByte s.mem a

/-- Command `i` answers a next state from `s`, and `P` holds of it. -/
def Completes (i : Instr) (s : State) (P : State → Prop) : Prop := ∃ t, exec i s = .next t ∧ P t

/-! ## Events and phases -/

/-- `t` is `s` but for what raising events can change: the event log, the persisted store, the sideband's output and
ALERT_N. -/
def EventFrame (s t : State) : Prop :=
  ∃ (g : EvLog) (ps : List Event) (o : List MgmtOut) (a : Bool), t =
    { s with log := g, mram := { s.mram with persisted := ps }, mgmt := { s.mgmt with out := o }, pins := { s.pins with alert := a } }

/-- Fewer than sixteen entries of the event stand in its second (R562). -/
def eventRoom (s : State) (code detail : Nat) : Bool :=
  mget 0 (rollSecond s).log.counts (code * 256 + (if code = 0x05 || code = 0xA1 then detail else 0)) < 16

/-- The newest entry of the log is this event, unless its second is full (R559, R562, R565). -/
def Entered (s t : State) (code unit detail payload : Nat) : Prop :=
  eventRoom s code detail = true → t.log.entries.getLast? = some
    { seq := t.log.head - 1, code := code, sev := sevOf code, unit := unit, detail := detail,
      payload := BitVec.ofNat 128 payload, timeUs := s.clk.us, prior := false }

/-- One event from state `s`, and nothing else. -/
def Raised (s t : State) (code unit detail payload : Nat) : Prop :=
  EventFrame s t ∧ Entered s t code unit detail payload

/-- ready_phase has become `p` and READY follows it (R553, R571); READY_PHASE is raised. -/
def PhaseMoved (s t : State) (p : Phase) : Prop :=
  let u : State := { s with boot := { s.boot with phase := p }, pins := { s.pins with ready := p = .compute } }
  Raised u t 0x01 0 (phaseCode p) (serviceLevel u)

/-- Leaf `l` alone of the leaves has changed, and it is now `y`. -/
def LeafBecame (s t : State) (l : Nat) (y : Leaf) : Prop := leafOf t l = y ∧ ∀ k, k ≠ l → leafOf t k = leafOf s k

/-! ## Requests -/

/-- The answer to request `r` has left its target: on the control network to its source, or as a packet at the ring router
to the chiplet it came from (R365, R447). -/
def Answered (s t : State) (r : Req) (op code : Nat) (data : List Word) : Prop :=
  match r.via with
  | none =>
    let a : Resp := { ep := r.src, via := none, tag := r.tag, code := BitVec.ofNat 8 code, len := (data.length + 3) / 4,
                      rsv := false, data := data, src := r.dst }
    t.net.resps = s.net.resps ++ [(BitVec.ofNat 5 op, { a with hdr := rspFlit op a })]
  | some _ => t.links.router = s.links.router ++ [(4, rspPkt s r.origin.toNat r.tag.toNat op code r.vc (slotsOf data))]

/-- The target performs an access of `n` bytes: no request goes before it (R362), the routers bring it there (R360), the packet is
well formed, every condition of R46, R356, R357 and the windows is met, nothing at the target holds it (R139, R152, R406), and it has
its banks or its data slot (R123, R423). -/
def served (s : State) (op : Nat) (r : Req) (len n : Nat) (ctr write : Bool) : Bool :=
  let off := offOf r.addr
  !overtakes s op r && admitCode s r len = none && accessCode s off n ctr write = none && !remoteHeld s off n write
    && !windowCode s r off n write && (portAsk s r off n write).1

/-- A 256-byte request that the target performs (R448). -/
def served256 (s : State) (op : Nat) (r : Req) (len : Nat) (write : Bool) : Bool :=
  !overtakes s op r && r.via ≠ none && admitCode s r len = none && code256 s r write = none
    && !remoteHeld s (offOf r.addr) 256 write && (portAsk s r (offOf r.addr) 256 write).1

/-- State `s` once the access has its place at its target: the request has left the network, the banks or the slot are its own, and
the deposits that come before it stand in their rows (R119, R123, R423). -/
def atPort (s : State) (op : Nat) (r : Req) (n : Nat) (write : Bool) : State :=
  let t := takeMsg (portAsk s r (offOf r.addr) n write).2 op r
  match placeOf (offOf r.addr) with
  | .spad l => settle t l (rowsOf (offOf r.addr % 0x40000) n)
  | _ => t

/-- The `n` bytes from offset `off` are heartwood of column `c` whose lines are not poisoned. -/
def soundHeartwood (s : State) (c off n : Nat) : Prop :=
  placeOf off = .heartwood c ∧ off + n ≤ (c + 1) * 0x80000000
    ∧ ∀ a, off ≤ a → a < off + n → mget false s.hwPoison (a / 64) = false

/-- The `n` bytes from offset `off` are scratchpad words of leaf `l`, whole. -/
def soundSpad (s : State) (l off n : Nat) : Prop :=
  placeOf off = .spad l ∧ off % 0x40000 + n ≤ 0x40000
    ∧ ∀ a, off % 0x40000 ≤ a → a < off % 0x40000 + n → mget false (leafOf s l).badWord (a / 4) = false
      ∧ mget false (leafOf s l).poisonWord (a / 4) = false ∧ mget false (leafOf s l).badRow (a / 64) = false

/-- Memory holds `bs` from `a` on, and reads as before elsewhere. -/
def WroteBytes (s t : State) (a : Nat) (bs : List Byte) : Prop :=
  (∀ i, i < bs.length → readByte t.mem (a + i) = bs.getD i 0)
    ∧ ∀ b, (b < a ∨ a + bs.length ≤ b) → readByte t.mem b = readByte s.mem b

/-! ## Leaf instructions -/

/-- Leaf `l` issues the instruction `w` in its cycle `t`, which is now: it can issue (R63, R75), its member has performed the cycle
(R300), the word stands at its index, its guard `g` holds (R69), its sources are there, and no re-run is due (R102). -/
def issues (s : State) (l w : Nat) (g : BitVec 4) (srcs : List Nat) (fp : Bool) (t : Nat) : Bool :=
  let x := leafOf s l
  canIssue s l && decide (x.pc < fld (mget 0 x.tcode x.task).toNat 16 13) && legalWord w && decide (fetchWord x = w)
    && guardOn x g && decide (x.nextIssue ≤ t) && decide (issueCycle s x srcs fp = t) && decide (t = leafNow s x)
    && !memberWaits s x && !x.errs.any (fun e => e.at_ ≤ s.clk.cclk) && !rejoinDue x && !srcs.any (awaits x)

/-- What an instruction may write in its leaf. -/
inductive Dest where
  | s (n : Nat)
  | v (n : Nat)
  | p (n : Nat)
  | m (n : Nat)
  | ag (n : Nat)
  deriving DecidableEq, Repr

/-- The token that a port push adds: none in a re-run that has already performed the effect (R106). -/
def pushed (x : Leaf) (push : Option (Nat × Tok)) (p : Nat) : List Tok :=
  match push with
  | some (q, t) => if q = p ∧ (x.step.shadow = none ∨ x.step.issued ≤ x.step.seen) then [{ t with ring := x.ring }] else []
  | none => []

/-- A queue after a pop: the entry leaves, or inside a step is retained (R105). -/
def poppedQueue (x : Leaf) (q : Nat) : Queue :=
  let v := queueOf x q
  if x.step.shadow = none then { v with toks := v.toks.drop 1 } else { v with ret := v.ret + 1 }

/-- The instruction of leaf `l` has issued in cycle `c` and taken state `s` to `t`. It wrote `ds` alone, popped the queues
`qs`, pushed `push`, raised the vstat flags `fl`; the sequencer has moved on (R85); other leaves, other units and every byte
of memory are as before. -/
structure Issued (s t : State) (l c : Nat) (ds : List Dest) (qs : List Nat) (push : Option (Nat × Tok)) (fl : Nat) : Prop where
  otherLeaves : ∀ k, k ≠ l → leafOf t k = leafOf s k
  otherUnits : t = { s with leaves := t.leaves }
  mem : SameMem s t
  next : (leafOf t l).pc = (seqNext (leafOf s l) (leafOf s l).pc).1
  loops : (leafOf t l).loops = (seqNext (leafOf s l) (leafOf s l).pc).2
  nextIssue : (leafOf t l).nextIssue = c + 1
  sregs : ∀ n, Dest.s n ∉ ds → sreg (leafOf t l) n = sreg (leafOf s l) n
  vregs : ∀ n, Dest.v n ∉ ds → vreg (leafOf t l) n = vreg (leafOf s l) n
  preds : ∀ n, Dest.p n ∉ ds → pget (leafOf t l) n = pget (leafOf s l) n
  masks : ∀ n, Dest.m n ∉ ds → vmask (leafOf t l) n = vmask (leafOf s l) n
  ags : ∀ n, Dest.ag n ∉ ds → agOf (leafOf t l) n = agOf (leafOf s l) n
  pops : ∀ q, queueOf (leafOf t l) q = if q ∈ qs then poppedQueue (leafOf s l) q else queueOf (leafOf s l) q
  ports : ∀ p, portToks (leafOf t l) p = portToks (leafOf s l) p ++ pushed (leafOf s l) push p
  flags : (leafOf t l).vstat = (leafOf s l).vstat ||| BitVec.ofNat 5 fl
  shadow : (leafOf t l).step.shadow = (leafOf s l).step.shadow
  rest : leafOf t l = { leafOf s l with
    sregs := (leafOf t l).sregs, vregs := (leafOf t l).vregs, preds := (leafOf t l).preds, masks := (leafOf t l).masks,
    ags := (leafOf t l).ags, queues := (leafOf t l).queues, ports := (leafOf t l).ports, vstat := (leafOf t l).vstat,
    readyAt := (leafOf t l).readyAt, fpFree := (leafOf t l).fpFree, pc := (leafOf t l).pc, loops := (leafOf t l).loops,
    nextIssue := (leafOf t l).nextIssue, stall := none, step := (leafOf t l).step }

/-- The scalar register `d` holds `v`, usable `lat` cycles after cycle `c`; s0 stays zero (R62, R76). -/
def HoldsS (y : Leaf) (d : Nat) (v : Word) (c lat : Nat) : Prop :=
  sreg y d = (if d = 0 then 0 else v) ∧ (d ≠ 0 → mget 0 y.readyAt d = c + lat)

/-- The register pair `d`, `d` + 1 holds the 64 bits `v`. -/
def HoldsPair (y : Leaf) (d : Nat) (v : DWord) (c lat : Nat) : Prop :=
  HoldsS y d (BitVec.ofNat 32 v.toNat) c lat ∧ HoldsS y (d + 1) (BitVec.ofNat 32 (v.toNat / 2 ^ 32)) c lat

/-- The vector register `d` holds the selected lanes of `v` and keeps the others (R72). -/
def HoldsV (x y : Leaf) (d : Nat) (sel : BitVec 16) (v : Lanes) : Prop :=
  d < 16 → ∀ i, i < 16 → lane (vreg y d) i = if sel.getLsbD i then lane v i else lane (vreg x d) i

/-- The push of a vector result whose destination field names a port (R70, R89). -/
def portPush (d : Nat) (v : Lanes) (ready : Nat) : Option (Nat × Tok) :=
  if d < 16 then none else some (d - 24, { data := v, ready := ready })

/-- A result for the destination field `d` can be delivered: a register takes it, a port's effect is within the step's
count (R106). -/
def deliverable (x : Leaf) (d : Nat) : Bool := d < 16 || (effect x).isSome

/-- State `s` once the core of leaf `l` has the banks of `rows`, and the deposits that come before its access stand in their rows
(R119, R122, R123). -/
def coreAtBank (s : State) (l : Nat) (rows : List Nat) (write : Bool) : State :=
  settle (setLeaf s l { (askBanks (leafOf s l) s.clk.cclk 0 rows write).2 with coreReq := s.clk.cclk + 1 }) l rows

/-- The core's requests of the banks of `rows` are granted in this cycle (R123). -/
def coreWins (s : State) (l : Nat) (rows : List Nat) (write : Bool) : Bool :=
  (askBanks (leafOf s l) s.clk.cclk 0 rows write).1

/-- A load at offset `o` of `n` bytes reads the physical byte `b`, held by no scoreboard entry (R64, R152); its bank is granted
(R122), and every word that it then reads is whole (R156). -/
def loadsAt (s : State) (l o n b : Nat) : Bool :=
  (match dataAddr (leafOf s l) o n with
    | .ok a => a = b
    | .error _ => false)
  && !sbHolds (leafOf s l) (wordsOf b n) false && coreWins s l [b / 64] false
  && (wordsOf b n).all (fun w => (coreWord (coreAtBank s l [b / 64] false) l w).2 = (false, false))

/-- The row of words that a load which has its bank reads from byte `b`. -/
def rowAt (s : State) (l b : Nat) : Lanes := mkLanes (fun i => (coreWord (coreAtBank s l [b / 64] false) l (b / 4 + i)).1)

/-- The words of row `row` that `mask` selects stand in the write-gather buffer with the values `v`, but those over which a deposit
writes later (R135); its other entries are as before (R129, R130). -/
structure Gathered (x y : Leaf) (row : Nat) (mask : BitVec 16) (v : Lanes) : Prop where
  here : ∃ g ∈ y.gather, g.row = row ∧ ∀ i, i < 16 → mask.getLsbD i = true → (depositMask x row).getLsbD i = false →
    g.valid.getLsbD i = true ∧ lane g.data i = lane v i
  others : ∀ g, g.row ≠ row → (g ∈ y.gather ↔ g ∈ x.gather)

/-- A store of leaf `l` has issued in cycle `c`: registers, other leaves, other units and every byte of memory are as
before; queues in `qs` popped; only the generators in `ags` have moved. -/
structure Stored (s t : State) (l c : Nat) (ags qs : List Nat) : Prop where
  otherLeaves : ∀ k, k ≠ l → leafOf t k = leafOf s k
  otherUnits : t = { s with leaves := t.leaves }
  mem : SameMem s t
  next : (leafOf t l).pc = (seqNext (leafOf s l) (leafOf s l).pc).1
  ags : ∀ n, n ∉ ags → agOf (leafOf t l) n = agOf (leafOf s l) n
  pops : ∀ q, queueOf (leafOf t l) q = if q ∈ qs then poppedQueue (leafOf s l) q else queueOf (leafOf s l) q
  rest : leafOf t l = { leafOf s l with
    gather := (leafOf t l).gather, ags := (leafOf t l).ags, queues := (leafOf t l).queues, pc := (leafOf t l).pc,
    loops := (leafOf t l).loops, nextIssue := c + 1, stall := none, step := (leafOf t l).step }

/-- A store at offset `o` of `n` bytes reaches the physical byte `b`; no scoreboard entry holds the words that `mask` selects
of its row, and the buffer has room (R64, R129, R152). -/
def storesAt (s : State) (l o n b : Nat) (mask : BitVec 16) : Bool :=
  let x := leafOf s l
  (match dataAddr x o n with
    | .ok a => a = b
    | .error _ => false)
  && !sbHolds x (((List.range 16).filter (fun i => mask.getLsbD i)).map (fun i => b / 64 * 16 + i)) true
  && ((gatherOf x (b / 64)).isSome || x.gather.length < 8)

/-- The next effect of the leaf is performed: it is in no step, or past the effects that the step's earlier run issued
(R106). -/
def performs (x : Leaf) : Bool :=
  match effect x with
  | some (true, _) => true
  | _ => false

/-- A remote operation of leaf `l` has issued: it takes the next place of rem_out, and its message leaves, or waits behind a
held GFINC, or as an increment behind a window change (R96, R144, R367, R378). Registers, other leaves and every byte of memory
are as before. -/
structure RemoteSent (s t : State) (l : Nat) (addr : BitVec 64) (write fence : Bool) (qs : List Nat)
    (msg : BitVec 15 → NetMsg) : Prop where
  rem : (leafOf t l).rem = (leafOf s l).rem ++
    [{ tag := freshTag (leafOf s l), chip := chipName s (chipOf addr), write := write, addr := addr,
       sentAt := s.clk.cclk, timeout := odNat s 0x304001 }]
  leaves :
    let m := msg (freshTag (leafOf s l))
    let chip := chipName s (chipOf addr)
    if (leafOf s l).heldSends ≠ [] ∨ (fence = true ∧ (leafOf s l).rem.any (fun r => r.write && r.chip = chip) = true)
        ∨ (isIncr m = true ∧ windowsLate s l = true) then
      (leafOf t l).heldSends = (leafOf s l).heldSends ++ [{ msg := m, fence := if fence then some chip else none }]
        ∧ t.net = s.net ∧ t.links = s.links
    else (leafOf t l).heldSends = (leafOf s l).heldSends ∧ t.net = (launch s m).net ∧ t.links = (launch s m).links
  mem : SameMem s t
  otherLeaves : ∀ k, k ≠ l → leafOf t k = leafOf s k
  sregs : (leafOf t l).sregs = (leafOf s l).sregs
  vregs : (leafOf t l).vregs = (leafOf s l).vregs
  preds : (leafOf t l).preds = (leafOf s l).preds
  lcs : (leafOf t l).lcs = (leafOf s l).lcs
  pops : ∀ q, queueOf (leafOf t l) q = if q ∈ qs then poppedQueue (leafOf s l) q else queueOf (leafOf s l) q
  next : (leafOf t l).pc = (seqNext (leafOf s l) (leafOf s l).pc).1

/-- Registers, queues and ports of the leaf are as before. -/
def SameRegs (x y : Leaf) : Prop :=
  y.sregs = x.sregs ∧ y.vregs = x.vregs ∧ y.preds = x.preds ∧ y.masks = x.masks ∧ y.ags = x.ags ∧ y.queues = x.queues
    ∧ y.ports = x.ports ∧ y.lcs = x.lcs ∧ y.rm = x.rm ∧ y.vstat = x.vstat

/-- Words `w` on of leaf `l`'s scratchpad hold `vs`, and memory reads as before elsewhere. -/
def WroteWords (s t : State) (l w : Nat) (vs : List Word) : Prop :=
  (∀ i, i < vs.length → spadWord t l (w + i) = vs.getD i 0)
    ∧ ∀ a, (a < spadOff l (4 * w) ∨ spadOff l (4 * (w + vs.length)) ≤ a) → readByte t.mem a = readByte s.mem a

/-- Word `i` of panel row `p` of a stream over 2^`c` leaves of bough `b` from leaf `leaf0` and row `row` (R229, R230). -/
def streamWord (s : State) (b leaf0 c row p i : Nat) : Word :=
  spadWord s (boughLeaf b (leaf0 + p % 2 ^ c)) (16 * (row + p / 2 ^ c) + i)

/-- Local counter `k` of leaf `l` has advanced by one, up to its greatest value, and no other counter of a leaf has. -/
def LcAdvanced (s t : State) (l k : Nat) : Prop :=
  ∀ j n, lcGet t j n = if j = l ∧ n = k then (incCounter (lcGet s l k) 1).1 else lcGet s j n

/-! ## Conas requests -/

/-- The request has left the inbox (R531). -/
def unqueued (s : State) (h : ConasHdr) (code : Nat) (body : List Byte) : State :=
  { s with mgmt := { s.mgmt with inbox := s.mgmt.inbox.eraseP (fun m => m.h = h && m.code = code && m.body = body) } }

/-- No other request stands before this one (R41, R531). -/
def atHead (s : State) (h : ConasHdr) (code : Nat) (body : List Byte) : Bool :=
  match s.mgmt.inbox with
  | [] => true
  | m :: _ => m.h = h && m.code = code && m.body = body

/-- The request has left the inbox, and its SEQ is its session's LAST_SEQ (R531, R542). -/
def heard (s : State) (h : ConasHdr) (code : Nat) (body : List Byte) : State :=
  let u := unqueued s h code body
  match boundSession u h with
  | some x => setSession u h.session.toNat (some { x with lastSeq := h.seq })
  | none => u

/-- The response to a request: its code, SEQ and session, with a status and a body (R532, R533). -/
def response (h : ConasHdr) (code status : Nat) (body : List Byte) : ConasRsp :=
  { code := BitVec.ofNat 8 code, seq := h.seq, session := h.session, status := BitVec.ofNat 8 status, body := body }

/-- `t` is `v` with the response `r` on its way to the requester, and nothing else (R526, R528). -/
def Sent (v t : State) (h : ConasHdr) (r : ConasRsp) : Prop :=
  match h.transport with
  | .i3c => t = { v with mgmt := { v.mgmt with out := v.mgmt.out ++ [.rsp h.address h.tag r] } }
  | .sapline => t = { v with links := { v.links with router := v.links.router ++
      [(4, mkPkt (h.address.toNat * 2 ^ 47) (originId v).toNat h.tag.toNat 0 false 0x13 0
        (slotsOfBytes (leBytes (rspHeader r) 8 ++ r.body)))] } }

/-- `t` is `v` once the request's response has been kept in its session and sent, and nothing else (R542). -/
def Replied (v t : State) (h : ConasHdr) (code status : Nat) (body : List Byte) : Prop :=
  let r := response h code status body
  match boundSession v h with
  | some x => Sent (setSession v h.session.toNat (some { x with cached := some r })) t h r
  | none => Sent v t h r

/-- The management controller executes the request: it runs, no other stands before it, and every check of R688 passes (R41, R530,
R531, R688). -/
def Accepts (s : State) (h : ConasHdr) (code : Nat) (body : List Byte) : Prop :=
  s.pins.porst = true ∧ atHead s h code body = true ∧ 2 ≤ phaseCode s.boot.phase
    ∧ verdict (unqueued s h code body) h code body = .ok

/-- A PENDING command has completed from the state `v`: its status is in cmd_status, and CMD_DONE is raised (R555). -/
def Finished (v t : State) (p : PendCmd) (status : Nat) : Prop :=
  Raised (setCmdStatus { v with mgmt := { v.mgmt with pend := none } } p.sub 2 status p.seq.toNat) t 0x04 p.sub status
    (p.seq.toNat + p.session.toNat * 2 ^ 16)

/-- Other leaves, and memory, are as before. -/
def SameElsewhere (s t : State) (l : Nat) : Prop := SameMem s t ∧ ∀ k, k ≠ l → leafOf t k = leafOf s k

end Sys2Proof.Machine
end

