-- ==== Sys2Proof/Certificates/Slice0/Obligations.lean ====
section
/-! DEFINITION. The statements for the provers, with the tables that some of them range over. -/
namespace Sys2Proof.Machine

/-! ## Tables of leaf instructions: constructor, function code, and the result that R77 gives -/

structure AluRow where
  op : Nat → RR → Instr
  fn : Nat
  lat : Nat
  val : Word → Word → Word

def AluRows (e : AluRow) : Prop := e ∈
  [ ⟨.add, 0, 1, fun a b => a + b⟩, ⟨.sub, 1, 1, fun a b => a - b⟩, ⟨.andR, 2, 1, fun a b => a &&& b⟩,
    ⟨.orR, 3, 1, fun a b => a ||| b⟩, ⟨.xorR, 4, 1, fun a b => a ^^^ b⟩,
    ⟨.sll, 5, 1, fun a b => a <<< (b.toNat % 32)⟩, ⟨.srl, 6, 1, fun a b => a >>> (b.toNat % 32)⟩,
    ⟨.sra, 7, 1, fun a b => a.sshiftRight (b.toNat % 32)⟩, ⟨.mul, 8, 3, fun a b => a * b⟩,
    ⟨.mulh, 9, 3, fun a b => BitVec.ofInt 32 (a.toInt * b.toInt / 2 ^ 32)⟩,
    ⟨.mulhu, 10, 3, fun a b => BitVec.ofNat 32 (a.toNat * b.toNat / 2 ^ 32)⟩,
    ⟨.minR, 11, 1, fun a b => if a.toInt < b.toInt then a else b⟩,
    ⟨.maxR, 12, 1, fun a b => if a.toInt < b.toInt then b else a⟩,
    ⟨.minu, 13, 1, fun a b => if a.toNat < b.toNat then a else b⟩,
    ⟨.maxu, 14, 1, fun a b => if a.toNat < b.toNat then b else a⟩ ]

structure ImmRow where
  op : Nat → RI → Instr
  opc : Nat
  val : Word → Word → Word

def ImmRows (e : ImmRow) : Prop := e ∈
  [ ⟨.addi, 2, fun a b => a + b⟩, ⟨.andi, 3, fun a b => a &&& b⟩, ⟨.ori, 4, fun a b => a ||| b⟩,
    ⟨.xori, 5, fun a b => a ^^^ b⟩ ]

structure ShiftRow where
  op : Nat → SHf → Instr
  kind : Nat
  val : Word → Nat → Word

def ShiftRows (e : ShiftRow) : Prop := e ∈
  [ ⟨.slli, 0, fun a n => a <<< n⟩, ⟨.srli, 1, fun a n => a >>> n⟩, ⟨.srai, 2, fun a n => a.sshiftRight n⟩ ]

structure CmpRow where
  op : Nat → RR → Instr
  fn : Nat
  rel : Word → Word → Bool

def CmpRows (e : CmpRow) : Prop := e ∈
  [ ⟨.eq, 0, fun a b => a = b⟩, ⟨.ne, 1, fun a b => a ≠ b⟩, ⟨.lt, 2, fun a b => a.toInt < b.toInt⟩,
    ⟨.ltu, 3, fun a b => a.toNat < b.toNat⟩, ⟨.ge, 4, fun a b => b.toInt ≤ a.toInt⟩,
    ⟨.geu, 5, fun a b => b.toNat ≤ a.toNat⟩ ]

structure CmpiRow where
  op : Nat → CMPf → Instr
  sel : Nat
  rel : Word → Word → Bool

def CmpiRows (e : CmpiRow) : Prop := e ∈
  [ ⟨.cmpiEq, 0, fun a b => a = b⟩, ⟨.cmpiNe, 1, fun a b => a ≠ b⟩, ⟨.cmpiLt, 2, fun a b => a.toInt < b.toInt⟩,
    ⟨.cmpiGe, 3, fun a b => b.toInt ≤ a.toInt⟩ ]

structure PredRow where
  op : Nat → RR → Instr
  fn : Nat
  val : Bool → Bool → Bool

def PredRows (e : PredRow) : Prop := e ∈
  [ ⟨.pand, 0, fun a b => a && b⟩, ⟨.por, 1, fun a b => a || b⟩, ⟨.pxor, 2, fun a b => a != b⟩,
    ⟨.pandn, 3, fun a b => a && !b⟩, ⟨.pnot, 4, fun a _ => !a⟩, ⟨.pset, 5, fun _ _ => true⟩,
    ⟨.pclr, 6, fun _ _ => false⟩ ]

structure VecRow where
  op : Nat → RR → Instr
  fn : Nat
  val : Word → Word → Word

def VecRows (e : VecRow) : Prop := e ∈
  [ ⟨.vadd, 0, fun a b => a + b⟩, ⟨.vsub, 1, fun a b => a - b⟩, ⟨.vmul, 2, fun a b => a * b⟩,
    ⟨.vmulh, 3, fun a b => BitVec.ofInt 32 (a.toInt * b.toInt / 2 ^ 32)⟩, ⟨.vand, 4, fun a b => a &&& b⟩,
    ⟨.vor, 5, fun a b => a ||| b⟩, ⟨.vxor, 6, fun a b => a ^^^ b⟩, ⟨.vsll, 7, fun a b => a <<< (b.toNat % 32)⟩,
    ⟨.vsrl, 8, fun a b => a >>> (b.toNat % 32)⟩, ⟨.vsra, 9, fun a b => a.sshiftRight (b.toNat % 32)⟩,
    ⟨.vmin, 10, fun a b => if a.toInt < b.toInt then a else b⟩, ⟨.vmax, 11, fun a b => if a.toInt < b.toInt then b else a⟩,
    ⟨.vminu, 12, fun a b => if a.toNat < b.toNat then a else b⟩,
    ⟨.vmaxu, 13, fun a b => if a.toNat < b.toNat then b else a⟩ ]

/-- A floating-point instruction: its result and flags from the rounding attribute, vA, vB and the old vD. -/
structure FpRow where
  op : Nat → RR → Instr
  fn : Nat
  lat : Nat
  val : Rnd → Word → Word → Word → FRes

/-- VFALU with sources A and B. -/
def FpRows2 (e : FpRow) : Prop := e ∈
  [ ⟨.vfadd, 0, 4, fun rm a b _ => faddW rm a b⟩, ⟨.vfsub, 1, 4, fun rm a b _ => fsubW rm a b⟩,
    ⟨.vfmul, 2, 4, fun rm a b _ => fmulW rm a b⟩, ⟨.vfmin, 6, 4, fun _ a b _ => fminmaxW false a b⟩,
    ⟨.vfmax, 7, 4, fun _ a b _ => fminmaxW true a b⟩, ⟨.vfdiv, 10, 18, fun rm a b _ => fdivW rm a b⟩ ]

/-- VFALU with sources A, B and the old D. -/
def FpRows3 (e : FpRow) : Prop := e ∈
  [ ⟨.vfma, 3, 4, fun rm a b d => ffmaW rm false false a b d⟩, ⟨.vfms, 4, 4, fun rm a b d => ffmaW rm false true a b d⟩,
    ⟨.vfnma, 5, 4, fun rm a b d => ffmaW rm true false a b d⟩ ]

/-- VFALU with source A. -/
def FpRows1 (e : FpRow) : Prop := e ∈
  [ ⟨.vfabs, 8, 4, fun _ a _ _ => (a &&& 0x7FFFFFFF, 0)⟩, ⟨.vfneg, 9, 4, fun _ a _ _ => (a ^^^ 0x80000000, 0)⟩,
    ⟨.vfsqrt, 11, 18, fun rm a _ _ => fsqrtW rm a⟩ ]

/-- VCVT. -/
def CvtRows (e : FpRow) : Prop := e ∈
  [ ⟨.vf2i, 0, 4, fun rm a _ _ => f2int rm (-(2 ^ 31)) (2 ^ 31 - 1) a⟩, ⟨.vi2f, 1, 4, fun rm a _ _ => int2f rm a.toInt⟩,
    ⟨.vf2u, 2, 4, fun rm a _ _ => f2int rm 0 (2 ^ 32 - 1) a⟩, ⟨.vu2f, 3, 4, fun rm a _ _ => int2f rm (a.toNat : Int)⟩,
    ⟨.vf2h, 4, 4, fun rm a _ _ => f2half fF16 rm a⟩, ⟨.vh2f, 5, 4, fun _ a _ _ => widen fF16 a⟩,
    ⟨.vf2bf, 6, 4, fun rm a _ _ => f2half fBF16 rm a⟩, ⟨.vbf2f, 7, 4, fun _ a _ _ => widen fBF16 a⟩,
    ⟨.vf2e4, 8, 4, fun rm a _ _ => f2f8 fE4M3 rm a⟩, ⟨.ve42f, 9, 4, fun _ a _ _ => widen fE4M3 a⟩,
    ⟨.vf2e5, 10, 4, fun rm a _ _ => f2f8 fE5M2 rm a⟩, ⟨.ve52f, 11, 4, fun _ a _ _ => widen fE5M2 a⟩ ]

/-- VXF: no flags. -/
def VxfRows (e : FpRow) : Prop := e ∈
  [ ⟨.vrcp, 0, 8, fun _ a _ _ => (vrcpW a, 0)⟩, ⟨.vrsq, 1, 8, fun _ a _ _ => (vrsqW a, 0)⟩,
    ⟨.vexp2, 2, 8, fun _ a _ _ => (vexp2W a, 0)⟩, ⟨.vlog2, 3, 8, fun _ a _ _ => (vlog2W a, 0)⟩,
    ⟨.vtanh, 4, 8, fun _ a _ _ => (vtanhW a, 0)⟩, ⟨.vsigm, 5, 8, fun _ a _ _ => (vsigmW a, 0)⟩ ]

structure VCmpRow where
  op : Nat → RR → Instr
  fn : Nat
  rel : Word → Word → Bool
  nv : Word → Word → Bool

/-- Vector compares: when a lane's relation holds and when it raises NV (R77, R217). -/
def VcmpRows (e : VCmpRow) : Prop := e ∈
  [ ⟨.veq, 0, fun a b => a = b, fun _ _ => false⟩, ⟨.vne, 1, fun a b => a ≠ b, fun _ _ => false⟩,
    ⟨.vlt, 2, fun a b => a.toInt < b.toInt, fun _ _ => false⟩, ⟨.vltu, 3, fun a b => a.toNat < b.toNat, fun _ _ => false⟩,
    ⟨.vge, 4, fun a b => b.toInt ≤ a.toInt, fun _ _ => false⟩, ⟨.vgeu, 5, fun a b => b.toNat ≤ a.toNat, fun _ _ => false⟩,
    ⟨.vfeq, 8, fun a b => !(isNaN32 a || isNaN32 b) && !flt32 a b && !flt32 b a, fun a b => isSNaN32 a || isSNaN32 b⟩,
    ⟨.vfne, 9, fun a b => (isNaN32 a || isNaN32 b) || flt32 a b || flt32 b a, fun a b => isSNaN32 a || isSNaN32 b⟩,
    ⟨.vflt, 10, fun a b => !(isNaN32 a || isNaN32 b) && flt32 a b, fun a b => isNaN32 a || isNaN32 b⟩,
    ⟨.vfle, 11, fun a b => !(isNaN32 a || isNaN32 b) && !flt32 b a, fun a b => isNaN32 a || isNaN32 b⟩,
    ⟨.vfun, 12, fun a b => isNaN32 a || isNaN32 b, fun a b => isSNaN32 a || isSNaN32 b⟩ ]

structure RedRow where
  op : Nat → RR → Instr
  fn : Nat
  lat : Nat
  val : Rnd → BitVec 16 → Lanes → FRes

/-- Reductions of the selected lanes (R81). -/
def RedRows (e : RedRow) : Prop := e ∈
  [ ⟨.vrsum, 5, 4, fun _ sel v => (redSum sel v, 0)⟩, ⟨.vrmax, 7, 4, fun _ sel v => (redMax sel v, 0)⟩,
    ⟨.vfrsum, 6, 16, fun rm sel v => ftree (faddW rm) 0 sel v⟩,
    ⟨.vfrmax, 8, 4, fun _ sel v => ftree (fminmaxW true) 0xFF800000 sel v⟩,
    ⟨.vfrmin, 9, 4, fun _ sel v => ftree (fminmaxW false) 0x7F800000 sel v⟩ ]

/-! ## Shared shapes of results -/

/-- The lane-wise results and joined flags of a floating-point instruction. -/
def fpOut (x : Leaf) (val : Rnd → Word → Word → Word → FRes) (a b d : Lanes) : List FRes :=
  (List.range 16).map (fun i => val (rndOf x.rm.toNat) (lane a i) (lane b i) (lane d i))

/-- A vector instruction of leaf `l` that issues in cycle `c` completes with `v` for destination `d` under MK `mk`, `lat`
cycles later, and the flags `fl`. -/
def VecDone (i : Instr) (s : State) (l c : Nat) (srcs : List Nat) (d mk : Nat) (v : Lanes) (lat fl : Nat) : Prop :=
  ∃ t, exec i s = .next t ∧ Issued s t l c [.v d] (vqs srcs) (portPush d v (c + lat)) fl
    ∧ HoldsV (leafOf s l) (leafOf t l) d (selMask (leafOf s l) mk) v
    ∧ (d < 16 → mget 0 (leafOf t l).readyAt (32 + d) = c + lat)

/-- The vector sources and the destination let the instruction complete in cycle `c`. -/
def vecReady (x : Leaf) (c : Nat) (srcs : List Nat) (d : Nat) : Bool := vBlock x c srcs d = none && deliverable x d

end Sys2Proof.Machine

open Sys2Proof Sys2Proof.Machine

/-! ## Leaf: scalar -/

/-- R77: the scalar arithmetic, logic and shift instructions of the registers. -/
def Obligations.ScalarAluResults : Prop :=
  (∀ e, AluRows e → ∀ (s : State) (l c : Nat) (f : RR),
    issues s l (wRR 0x01 e.fn f) f.g [f.a.toNat, f.b.toNat] false c = true →
    ∃ t, exec (e.op l f) s = .next t ∧ Issued s t l c [.s f.d.toNat] [] none 0
      ∧ HoldsS (leafOf t l) f.d.toNat (e.val (sreg (leafOf s l) f.a.toNat) (sreg (leafOf s l) f.b.toNat)) c e.lat)
  ∧ (∀ (s : State) (l c : Nat) (f : RR), issues s l (wRR 0x01 15 f) f.g [f.a.toNat] false c = true →
    ∃ t, exec (.clz l f) s = .next t ∧ Issued s t l c [.s f.d.toNat] [] none 0
      ∧ HoldsS (leafOf t l) f.d.toNat
          (BitVec.ofNat 32 (((List.range 32).reverse.takeWhile (fun i => !(sreg (leafOf s l) f.a.toNat).getLsbD i)).length)) c 1)
  ∧ (∀ (s : State) (l c : Nat) (f : RR), issues s l (wRR 0x01 16 f) f.g [f.a.toNat] false c = true →
    ∃ t, exec (.popc l f) s = .next t ∧ Issued s t l c [.s f.d.toNat] [] none 0
      ∧ HoldsS (leafOf t l) f.d.toNat
          (BitVec.ofNat 32 (((List.range 32).filter (fun i => (sreg (leafOf s l) f.a.toNat).getLsbD i)).length)) c 1)

/-- R77: the instructions with an immediate operand, with MOVP. -/
def Obligations.ScalarImmediateResults : Prop :=
  (∀ e, ImmRows e → ∀ (s : State) (l c : Nat) (f : RI), issues s l (wRI e.opc f) f.g [f.a.toNat] false c = true →
    ∃ t, exec (e.op l f) s = .next t ∧ Issued s t l c [.s f.d.toNat] [] none 0
      ∧ HoldsS (leafOf t l) f.d.toNat (e.val (sreg (leafOf s l) f.a.toNat) (f.imm.signExtend 32)) c 1)
  ∧ (∀ e, ShiftRows e → ∀ (s : State) (l c : Nat) (f : SHf), issues s l (wSH e.kind f) f.g [f.a.toNat] false c = true →
    ∃ t, exec (e.op l f) s = .next t ∧ Issued s t l c [.s f.d.toNat] [] none 0
      ∧ HoldsS (leafOf t l) f.d.toNat (e.val (sreg (leafOf s l) f.a.toNat) f.amt.toNat) c 1)
  ∧ (∀ (s : State) (l c : Nat) (f : LIf), issues s l (wLI 0 f) f.g [] false c = true →
    ∃ t, exec (.li l f) s = .next t ∧ Issued s t l c [.s f.d.toNat] [] none 0
      ∧ HoldsS (leafOf t l) f.d.toNat (f.imm.signExtend 32) c 1)
  ∧ (∀ (s : State) (l c : Nat) (f : LIf), issues s l (wLI 1 f) f.g [f.d.toNat] false c = true →
    ∃ t, exec (.lih l f) s = .next t ∧ Issued s t l c [.s f.d.toNat] [] none 0
      ∧ HoldsS (leafOf t l) f.d.toNat
          (BitVec.ofNat 32 (f.imm.toNat * 65536 + (sreg (leafOf s l) f.d.toNat).toNat % 65536)) c 1)
  ∧ (∀ (s : State) (l c : Nat) (f : RR), issues s l (wRR 0x01 17 f) f.g [] false c = true →
    ∃ t, exec (.movp l f) s = .next t ∧ Issued s t l c [.s f.d.toNat] [] none 0
      ∧ HoldsS (leafOf t l) f.d.toNat (BitVec.ofNat 32 (leafOf s l).preds.toNat) c 1)

/-- R77: compares and predicate logic write one predicate; MOVTP writes all eight. -/
def Obligations.PredicateResults : Prop :=
  (∀ e, CmpRows e → ∀ (s : State) (l c : Nat) (f : RR),
    issues s l (wRR 0x08 e.fn f) f.g [f.a.toNat, f.b.toNat] false c = true →
    ∃ t, exec (e.op l f) s = .next t ∧ Issued s t l c [.p f.d.toNat] [] none 0
      ∧ pget (leafOf t l) f.d.toNat = e.rel (sreg (leafOf s l) f.a.toNat) (sreg (leafOf s l) f.b.toNat))
  ∧ (∀ e, CmpiRows e → ∀ (s : State) (l c : Nat) (f : CMPf), issues s l (wCMP e.sel f) f.g [f.a.toNat] false c = true →
    ∃ t, exec (e.op l f) s = .next t ∧ Issued s t l c [.p f.pd.toNat] [] none 0
      ∧ pget (leafOf t l) f.pd.toNat = e.rel (sreg (leafOf s l) f.a.toNat) (f.imm.signExtend 32))
  ∧ (∀ e, PredRows e → ∀ (s : State) (l c : Nat) (f : RR), issues s l (wRR 0x0A e.fn f) f.g [] false c = true →
    ∃ t, exec (e.op l f) s = .next t ∧ Issued s t l c [.p f.d.toNat] [] none 0
      ∧ pget (leafOf t l) f.d.toNat = e.val (pget (leafOf s l) f.a.toNat) (pget (leafOf s l) f.b.toNat))
  ∧ (∀ (s : State) (l c : Nat) (f : RR), issues s l (wRR 0x01 18 f) f.g [f.a.toNat] false c = true →
    ∃ t, exec (.movtp l f) s = .next t ∧ Issued s t l c ((List.range 8).map .p) [] none 0
      ∧ ∀ n, n < 8 → pget (leafOf t l) n = (sreg (leafOf s l) f.a.toNat).getLsbD n)

/-! ## Leaf: vector -/

/-- R77, R72: the vector integer instructions act lane by lane on the selected lanes. -/
def Obligations.VectorIntegerResults : Prop :=
  (∀ e, VecRows e → ∀ (s : State) (l c : Nat) (f : RR),
    issues s l (wVV 0x18 e.fn f) f.g (vkey f.a.toNat ++ vkey f.b.toNat ++ mkey f.msk.toNat) false c = true →
    vecReady (leafOf s l) c [f.a.toNat, f.b.toNat] f.d.toNat = true →
    VecDone (e.op l f) s l c [f.a.toNat, f.b.toNat] f.d.toNat f.msk.toNat
      (mkLanes (fun i => e.val (lane (vval (leafOf s l) f.a.toNat) i) (lane (vval (leafOf s l) f.b.toNat) i))) 2 0)
  ∧ (∀ (s : State) (l c : Nat) (f : RR), issues s l (wVV 0x18 14 f) f.g (vkey f.a.toNat ++ mkey f.msk.toNat) false c = true →
    vecReady (leafOf s l) c [f.a.toNat] f.d.toNat = true →
    VecDone (.vabs l f) s l c [f.a.toNat] f.d.toNat f.msk.toNat
      (mkLanes (fun i => BitVec.ofNat 32 (lane (vval (leafOf s l) f.a.toNat) i).toInt.natAbs)) 2 0)
  ∧ (∀ (s : State) (l c : Nat) (f : RR), issues s l (wVV 0x18 15 f) f.g (vkey f.a.toNat ++ mkey f.msk.toNat) false c = true →
    vecReady (leafOf s l) c [f.a.toNat] f.d.toNat = true →
    VecDone (.vneg l f) s l c [f.a.toNat] f.d.toNat f.msk.toNat
      (mkLanes (fun i => 0 - lane (vval (leafOf s l) f.a.toNat) i)) 2 0)

/-- R80, R686: the floating-point instructions write rounded lanes and join the flags of the selected lanes to vstat. -/
def Obligations.VectorFloatResults : Prop :=
  (∀ e, FpRows2 e → ∀ (s : State) (l c : Nat) (f : RR),
    issues s l (wVV 0x19 e.fn f) f.g (vkey f.a.toNat ++ vkey f.b.toNat ++ mkey f.msk.toNat) true c = true →
    vecReady (leafOf s l) c [f.a.toNat, f.b.toNat] f.d.toNat = true →
    let rs := fpOut (leafOf s l) e.val (vval (leafOf s l) f.a.toNat) (vval (leafOf s l) f.b.toNat) zeroLanes
    VecDone (e.op l f) s l c [f.a.toNat, f.b.toNat] f.d.toNat f.msk.toNat (rs.map Prod.fst) e.lat
      (laneFlags (selMask (leafOf s l) f.msk.toNat) (rs.map Prod.snd)))
  ∧ (∀ e, FpRows3 e → ∀ (s : State) (l c : Nat) (f : RR),
    issues s l (wVV 0x19 e.fn f) f.g (vkey f.a.toNat ++ vkey f.b.toNat ++ vkey f.d.toNat ++ mkey f.msk.toNat) true c = true →
    vecReady (leafOf s l) c [f.a.toNat, f.b.toNat] f.d.toNat = true →
    let rs := fpOut (leafOf s l) e.val (vval (leafOf s l) f.a.toNat) (vval (leafOf s l) f.b.toNat)
      (vreg (leafOf s l) f.d.toNat)
    VecDone (e.op l f) s l c [f.a.toNat, f.b.toNat] f.d.toNat f.msk.toNat (rs.map Prod.fst) e.lat
      (laneFlags (selMask (leafOf s l) f.msk.toNat) (rs.map Prod.snd)))
  ∧ (∀ e, FpRows1 e → ∀ (s : State) (l c : Nat) (f : RR),
    issues s l (wVV 0x19 e.fn f) f.g (vkey f.a.toNat ++ mkey f.msk.toNat) true c = true →
    vecReady (leafOf s l) c [f.a.toNat] f.d.toNat = true →
    let rs := fpOut (leafOf s l) e.val (vval (leafOf s l) f.a.toNat) zeroLanes zeroLanes
    VecDone (e.op l f) s l c [f.a.toNat] f.d.toNat f.msk.toNat (rs.map Prod.fst) e.lat
      (laneFlags (selMask (leafOf s l) f.msk.toNat) (rs.map Prod.snd)))

/-- R79, R82, R212 to R214: conversions round and flag as R212 and R79 say; the approximate functions raise no flag. -/
def Obligations.VectorConversionResults : Prop :=
  ∀ (opc : Nat) (e : FpRow), (opc = 0x1C ∧ CvtRows e) ∨ (opc = 0x1D ∧ VxfRows e) → ∀ (s : State) (l c : Nat) (f : RR),
    issues s l (wVV opc e.fn f) f.g (vkey f.a.toNat ++ mkey f.msk.toNat) true c = true →
    vecReady (leafOf s l) c [f.a.toNat] f.d.toNat = true →
    let rs := fpOut (leafOf s l) e.val (vval (leafOf s l) f.a.toNat) zeroLanes zeroLanes
    VecDone (e.op l f) s l c [f.a.toNat] f.d.toNat f.msk.toNat (rs.map Prod.fst) e.lat
      (laneFlags (selMask (leafOf s l) f.msk.toNat) (rs.map Prod.snd))

/-- R77, R72, R217: a vector compare writes the selected bits of mD, keeps the others and raises NV as R217 says. -/
def Obligations.VectorCompareResults : Prop :=
  ∀ e, VcmpRows e → ∀ (s : State) (l c : Nat) (f : RR),
    issues s l (wVV 0x1A e.fn f) f.g (vkey f.a.toNat ++ vkey f.b.toNat ++ mkey f.msk.toNat) false c = true →
    vBlock (leafOf s l) c [f.a.toNat, f.b.toNat] 0 = none →
    let x := leafOf s l
    let a := vval x f.a.toNat
    let b := vval x f.b.toNat
    let sel := selMask x f.msk.toNat
    let nv : Bool := (List.range 16).any (fun i => sel.getLsbD i && e.nv (lane a i) (lane b i))
    ∃ t, exec (e.op l f) s = .next t
      ∧ Issued s t l c [.m f.d.toNat] (vqs [f.a.toNat, f.b.toNat]) none (if nv then flNV else 0)
      ∧ ∀ i, i < 16 → (vmask (leafOf t l) f.d.toNat).getLsbD i
          = if sel.getLsbD i then e.rel (lane a i) (lane b i) else (vmask x f.d.toNat).getLsbD i

/-- R77: lane selection, broadcast and permutation. -/
def Obligations.VectorMoveResults : Prop :=
  (∀ (s : State) (l c : Nat) (f : RR),
    issues s l (wVV 0x1B 0 f) f.g (vkey f.a.toNat ++ vkey f.b.toNat ++ mkey f.msk.toNat) false c = true →
    vecReady (leafOf s l) c [f.a.toNat, f.b.toNat] f.d.toNat = true →
    VecDone (.vsel l f) s l c [f.a.toNat, f.b.toNat] f.d.toNat 0
      (mkLanes (fun i => if (selMask (leafOf s l) f.msk.toNat).getLsbD i then lane (vval (leafOf s l) f.a.toNat) i
        else lane (vval (leafOf s l) f.b.toNat) i)) 2 0)
  ∧ (∀ (s : State) (l c : Nat) (f : RR), issues s l (wVV 0x1B 1 f) f.g (f.a.toNat :: mkey f.msk.toNat) false c = true →
    vecReady (leafOf s l) c [] f.d.toNat = true →
    VecDone (.vbcast l f) s l c [] f.d.toNat f.msk.toNat (mkLanes (fun _ => sreg (leafOf s l) f.a.toNat)) 2 0)
  ∧ (∀ (s : State) (l c : Nat) (f : RR),
    issues s l (wVV 0x1B 4 f) f.g (vkey f.a.toNat ++ vkey f.b.toNat ++ mkey f.msk.toNat) false c = true →
    vecReady (leafOf s l) c [f.a.toNat, f.b.toNat] f.d.toNat = true →
    VecDone (.vperm l f) s l c [f.a.toNat, f.b.toNat] f.d.toNat f.msk.toNat
      (mkLanes (fun i => lane (vval (leafOf s l) f.a.toNat) ((lane (vval (leafOf s l) f.b.toNat) i).toNat % 16))) 2 0)
  ∧ (∀ (s : State) (l c : Nat) (f : RR),
    issues s l (wVV 0x1B 3 f) f.g (f.a.toNat :: vkey f.d.toNat ++ mkey f.msk.toNat) false c = true →
    ∃ t, exec (.vins l f) s = .next t ∧ Issued s t l c [.v f.d.toNat] [] none 0
      ∧ ∀ i, i < 16 → lane (vreg (leafOf t l) f.d.toNat) i
          = if i = f.b.toNat ∧ (selMask (leafOf s l) f.msk.toNat).getLsbD i = true then sreg (leafOf s l) f.a.toNat
            else lane (vreg (leafOf s l) f.d.toNat) i)

/-- R77, R81: lane extraction, reductions and the mask registers. -/
def Obligations.VectorToScalarResults : Prop :=
  (∀ (s : State) (l c : Nat) (f : RR), issues s l (wVV 0x1B 2 f) f.g (vkey f.a.toNat) false c = true →
    vBlock (leafOf s l) c [f.a.toNat] 0 = none →
    ∃ t, exec (.vext l f) s = .next t ∧ Issued s t l c [.s f.d.toNat] (vqs [f.a.toNat]) none 0
      ∧ HoldsS (leafOf t l) f.d.toNat (lane (vval (leafOf s l) f.a.toNat) f.b.toNat) c 2)
  ∧ (∀ e, RedRows e → ∀ (s : State) (l c : Nat) (f : RR),
    issues s l (wVV 0x1B e.fn f) f.g (vkey f.a.toNat ++ mkey f.msk.toNat) false c = true →
    vBlock (leafOf s l) c [f.a.toNat] 0 = none →
    let r := e.val (rndOf (leafOf s l).rm.toNat) (selMask (leafOf s l) f.msk.toNat) (vval (leafOf s l) f.a.toNat)
    ∃ t, exec (e.op l f) s = .next t ∧ Issued s t l c [.s f.d.toNat] (vqs [f.a.toNat]) none r.2
      ∧ HoldsS (leafOf t l) f.d.toNat r.1 c e.lat)
  ∧ (∀ (s : State) (l c : Nat) (f : RR), issues s l (wVV 0x1B 10 f) f.g [f.a.toNat] false c = true →
    ∃ t, exec (.mtm l f) s = .next t ∧ Issued s t l c [.m f.d.toNat] [] none 0
      ∧ vmask (leafOf t l) f.d.toNat = (sreg (leafOf s l) f.a.toNat).setWidth 16)
  ∧ (∀ (s : State) (l c : Nat) (f : RR), issues s l (wVV 0x1B 11 f) f.g [64 + f.a.toNat] false c = true →
    ∃ t, exec (.mfm l f) s = .next t ∧ Issued s t l c [.s f.d.toNat] [] none 0
      ∧ HoldsS (leafOf t l) f.d.toNat ((vmask (leafOf s l) f.a.toNat).setWidth 32) c 2)
  ∧ (∀ (s : State) (l c : Nat) (f : RR), issues s l (wVV 0x1B 12 f) f.g [64 + f.a.toNat] false c = true →
    ∃ t, exec (.mpopc l f) s = .next t ∧ Issued s t l c [.s f.d.toNat] [] none 0
      ∧ HoldsS (leafOf t l) f.d.toNat
          (BitVec.ofNat 32 (((List.range 16).filter (fun i => (vmask (leafOf s l) f.a.toNat).getLsbD i)).length)) c 2)

/-! ## Leaf: scratchpad -/

/-- R77, R83, R122, R126, R134: a load whose bank is granted brings the word or row that the core sees at the address; a generator
moves on (R83). The deposits that come before it stand in its row by then (R119, R125). -/
def Obligations.LoadResults : Prop :=
  (∀ (s : State) (l c b : Nat) (f : RI), issues s l (wRI 0x10 f) f.g [f.a.toNat, spadKey] false c = true →
    loadsAt s l (immAddr (leafOf s l) f 4) 4 b = true →
    let u := coreAtBank s l [b / 64] false
    ∃ t, exec (.ldw l f) s = .next t ∧ Issued u t l c [.s f.d.toNat] [] none 0
      ∧ HoldsS (leafOf t l) f.d.toNat (coreWord u l (b / 4)).1 c 4)
  ∧ (∀ (s : State) (l c b : Nat) (f : RI), issues s l (wRI 0x13 f) f.g [f.a.toNat, spadKey] false c = true →
    vecReady (leafOf s l) c [] f.d.toNat = true → loadsAt s l (immAddr (leafOf s l) f 64) 64 b = true →
    let u := coreAtBank s l [b / 64] false
    ∃ t, exec (.vld l f) s = .next t ∧ Issued u t l c [.v f.d.toNat] [] (portPush f.d.toNat (rowAt s l b) (c + 4)) 0
      ∧ HoldsV (leafOf s l) (leafOf t l) f.d.toNat 0xFFFF (rowAt s l b))
  ∧ (∀ (s : State) (l c b : Nat) (f : AGf), issues s l (wAG 0 0 f) f.g [spadKey] false c = true →
    loadsAt s l (agAddr (agOf (leafOf s l) f.ag.toNat)) 4 b = true →
    let u := coreAtBank s l [b / 64] false
    ∃ t, exec (.lda l f) s = .next t ∧ Issued u t l c [.s f.d.toNat, .ag f.ag.toNat] [] none 0
      ∧ HoldsS (leafOf t l) f.d.toNat (coreWord u l (b / 4)).1 c 4
      ∧ agOf (leafOf t l) f.ag.toNat = agStep (agOf (leafOf s l) f.ag.toNat))
  ∧ (∀ (s : State) (l c b : Nat) (f : AGf), issues s l (wAG 1 0 f) f.g [spadKey] false c = true →
    vecReady (leafOf s l) c [] f.d.toNat = true → loadsAt s l (agAddr (agOf (leafOf s l) f.ag.toNat)) 64 b = true →
    let u := coreAtBank s l [b / 64] false
    ∃ t, exec (.vlda l f) s = .next t
      ∧ Issued u t l c [.v f.d.toNat, .ag f.ag.toNat] [] (portPush f.d.toNat (rowAt s l b) (c + 4)) 0
      ∧ HoldsV (leafOf s l) (leafOf t l) f.d.toNat 0xFFFF (rowAt s l b)
      ∧ agOf (leafOf t l) f.ag.toNat = agStep (agOf (leafOf s l) f.ag.toNat))

/-- R129, R130: a store puts its words into the write-gather buffer; no byte of memory changes before the drain. -/
def Obligations.StoreResults : Prop :=
  (∀ (s : State) (l c b : Nat) (f : RI), issues s l (wRI 0x11 f) f.g [f.a.toNat, f.d.toNat, spadKey] false c = true →
    storesAt s l (immAddr (leafOf s l) f 4) 4 b (wordBit b) = true →
    ∃ t, exec (.stw l f) s = .next t ∧ Stored s t l c [] []
      ∧ Gathered (leafOf s l) (leafOf t l) (b / 64) (wordBit b) (mkLanes (fun _ => sreg (leafOf s l) f.d.toNat)))
  ∧ (∀ (s : State) (l c b : Nat) (f : AGf), issues s l (wAG 0 1 f) f.g [f.d.toNat, spadKey] false c = true →
    storesAt s l (agAddr (agOf (leafOf s l) f.ag.toNat)) 4 b (wordBit b) = true →
    ∃ t, exec (.sta l f) s = .next t ∧ Stored s t l c [f.ag.toNat] []
      ∧ agOf (leafOf t l) f.ag.toNat = agStep (agOf (leafOf s l) f.ag.toNat)
      ∧ Gathered (leafOf s l) (leafOf t l) (b / 64) (wordBit b) (mkLanes (fun _ => sreg (leafOf s l) f.d.toNat)))
  ∧ (∀ (s : State) (l c b : Nat) (f : RI), issues s l (wRI 0x14 f) f.g (f.a.toNat :: spadKey :: vkey f.d.toNat) false c = true →
    vBlock (leafOf s l) c [f.d.toNat] 0 = none → storesAt s l (immAddr (leafOf s l) f 64) 64 b 0xFFFF = true →
    ∃ t, exec (.vst l f) s = .next t ∧ Stored s t l c [] (vqs [f.d.toNat])
      ∧ Gathered (leafOf s l) (leafOf t l) (b / 64) 0xFFFF (vval (leafOf s l) f.d.toNat))
  ∧ (∀ (s : State) (l c b : Nat) (f : AGf),
    issues s l (wAG 1 1 f) f.g (spadKey :: vkey f.d.toNat ++ mkey f.msk.toNat) false c = true →
    vBlock (leafOf s l) c [f.d.toNat] 0 = none →
    storesAt s l (agAddr (agOf (leafOf s l) f.ag.toNat)) 64 b (selMask (leafOf s l) f.msk.toNat) = true →
    ∃ t, exec (.vsta l f) s = .next t ∧ Stored s t l c [f.ag.toNat] (vqs [f.d.toNat])
      ∧ agOf (leafOf t l) f.ag.toNat = agStep (agOf (leafOf s l) f.ag.toNat)
      ∧ Gathered (leafOf s l) (leafOf t l) (b / 64) (selMask (leafOf s l) f.msk.toNat) (vval (leafOf s l) f.d.toNat))

/-- R77, R122, R124, R136: an indexed access starts once the first row of every bank is granted, reads or writes those rows, and keeps
the lanes of its other rows for their grants. VLDX whose rows lie in different banks brings its lanes at once and changes no byte
but by the deposits due before it; VSTX changes no byte outside the rows granted, and where lanes name one word the highest one's
value stands there. -/
def Obligations.IndexedAccessResults : Prop :=
  (∀ (s : State) (l c : Nat) (f : RR),
    issues s l (wVV 0x15 0 f) f.g (f.a.toNat :: spadKey :: vkey f.b.toNat ++ mkey f.msk.toNat) false c = true →
    let x := leafOf s l
    let ws := (laneOffs x f).map (fun p => laneWord x p.2)
    let rows := firstRows ws
    let u := coreAtBank s l rows false
    vecReady x c [f.b.toNat] f.d.toNat = true → laneFault x (laneOffs x f) = none → sbHolds x ws false = false →
    coreWins s l rows false = true →
    (∃ t, exec (.vldx l f) s = .next t ∧ SameMem u t ∧ (∀ k, k ≠ l → leafOf t k = leafOf s k)
      ∧ (leafOf t l).pc = (seqNext x x.pc).1 ∧ (leafOf t l).sregs = x.sregs ∧ (leafOf t l).preds = x.preds
      ∧ (∀ q, queueOf (leafOf t l) q = if q ∈ vqs [f.b.toNat] then poppedQueue x q else queueOf x q)
      ∧ (ws.all (fun w => rows.contains (w / 16)) = false →
          ∃ o, (leafOf t l).idx = some o ∧ o.store = false ∧ o.d = f.d.toNat
            ∧ o.todo = ((laneOffs x f).map (fun p => (p.1, laneWord x p.2))).filter (fun p => !rows.contains (p.2 / 16))))
    ∧ (ws.all (fun w => rows.contains (w / 16) && (coreWord u l w).2 = (false, false)) = true →
      (portToks x (f.d.toNat - 24)).all (fun k => k.ready ≠ unread) = true →
      let v := mkLanes (fun i => if (selMask x f.msk.toNat).getLsbD i
        then (coreWord u l (laneWord x (sreg x f.a.toNat + lane (vval x f.b.toNat) i * 4).toNat)).1 else 0)
      ∃ t, exec (.vldx l f) s = .next t
        ∧ Issued u t l c [.v f.d.toNat] (vqs [f.b.toNat])
            (portPush f.d.toNat v (c + 4)) 0
        ∧ HoldsV x (leafOf t l) f.d.toNat (selMask x f.msk.toNat) v))
  ∧ (∀ (s : State) (l c : Nat) (f : RR),
    issues s l (wVV 0x15 1 f) f.g (f.a.toNat :: spadKey :: vkey f.b.toNat ++ vkey f.d.toNat ++ mkey f.msk.toNat) false c = true →
    let x := leafOf s l
    let word (i : Nat) : Nat := laneWord x (sreg x f.a.toNat + lane (vval x f.b.toNat) i * 4).toNat
    let ws := (laneOffs x f).map (fun p => laneWord x p.2)
    let rows := firstRows ws
    vBlock x c [f.b.toNat, f.d.toNat] 0 = none → laneFault x (laneOffs x f) = none → sbHolds x ws true = false →
    buffered x (ws.map (fun w => w / 16)) = false → coreWins s l rows true = true →
    ∃ t, exec (.vstx l f) s = .next t
      ∧ (∀ i, i < 16 → (selMask x f.msk.toNat).getLsbD i = true → rows.contains (word i / 16) = true →
          (∀ j, i < j → j < 16 → (selMask x f.msk.toNat).getLsbD j = true → word j ≠ word i) →
          spadWord t l (word i) = lane (vval x f.d.toNat) i)
      ∧ (∀ a, (∀ r ∈ rows, a < spadOff l (r * 64) ∨ spadOff l (r * 64) + 64 ≤ a) → readByte t.mem a = readByte s.mem a)
      ∧ (ws.all (fun w => rows.contains (w / 16)) = false →
          ∃ o, (leafOf t l).idx = some o ∧ o.store = true
            ∧ o.todo = ((laneOffs x f).map (fun p => (p.1, laneWord x p.2))).filter (fun p => !rows.contains (p.2 / 16)))
      ∧ (ws.all (fun w => rows.contains (w / 16)) = true → (leafOf t l).idx = none)
      ∧ (leafOf t l).sregs = x.sregs ∧ (leafOf t l).vregs = x.vregs ∧ (leafOf t l).preds = x.preds
      ∧ (leafOf t l).masks = x.masks ∧ (leafOf t l).vstat = x.vstat ∧ (leafOf t l).pc = (seqNext x x.pc).1
      ∧ (∀ q, queueOf (leafOf t l) q = if q ∈ vqs [f.b.toNat, f.d.toNat] then poppedQueue x q else queueOf x q)
      ∧ ∀ k, k ≠ l → leafOf t k = leafOf s k)

/-! ## Leaf: steering and queues -/

structure SteerRow where
  op : Nat → Sf → Instr
  fn : Nat
  src : Sf → Bool → BitVec 5
  dst : Sf → Bool → Option (BitVec 5)

/-- Source and destination fields by the predicate's truth (R92, R94). -/
def SteerRows (e : SteerRow) : Prop := e ∈
  [ ⟨.steer, 0, fun f _ => f.x, fun f p => some (if p then f.d else f.y)⟩,
    ⟨.merge, 1, fun f p => if p then f.x else f.y, fun f _ => some f.d⟩,
    ⟨.filter, 2, fun f _ => f.x, fun f p => if p then some f.d else none⟩ ]

def ScalarSteerRows (e : SteerRow) : Prop := e ∈
  [ ⟨.ssteer, 4, fun f _ => f.x, fun f p => some (if p then f.d else f.y)⟩,
    ⟨.smerge, 5, fun f p => if p then f.x else f.y, fun f _ => some f.d⟩,
    ⟨.sfilter, 6, fun f _ => f.x, fun f p => if p then some f.d else none⟩ ]

/-- R92 to R94: the predicate picks the source that moves and the destination that it moves to; every queue that a source or
the predicate names pops once. -/
def Obligations.SteeringResults : Prop :=
  (∀ e, SteerRows e → ∀ (s : State) (l c : Nat) (f : Sf),
    let x := leafOf s l
    let p := pTrue x f.p.toNat
    let src := (e.src f p).toNat
    let dst := (e.dst f p).map BitVec.toNat
    let qs := (pQueue f.p.toNat ++ vqs [src]).eraseDups
    issues s l (wS e.fn f) f.g (pKey f.p.toNat ++ vkey src) false c = true →
    firstBlock (qs.map (fun q => popBlock x c q true) ++ ((dst.bind vPort).toList.map (pushBlock x))) = none →
    (∀ d, dst = some d → deliverable x d = true) →
    ∃ t, exec (e.op l f) s = .next t
      ∧ Issued s t l c (dst.toList.map .v) qs (dst.bind (fun d => portPush d (vval x src) (c + 1))) 0
      ∧ ∀ d, dst = some d → HoldsV x (leafOf t l) d 0xFFFF (vval x src))
  ∧ (∀ e, ScalarSteerRows e → ∀ (s : State) (l c : Nat) (f : Sf),
    let x := leafOf s l
    let p := pTrue x f.p.toNat
    let src := (e.src f p).toNat
    let dst := (e.dst f p).map BitVec.toNat
    let qs := (pQueue f.p.toNat ++ [4 + src]).eraseDups
    issues s l (wS e.fn f) f.g (pKey f.p.toNat ++ [204 + src]) false c = true →
    firstBlock (qs.map (fun q => popBlock x c q true) ++ (dst.toList.map (fun d => pushBlock x (d - 2)))) = none →
    (dst ≠ none → (effect x).isSome = true) →
    ∃ t, exec (e.op l f) s = .next t
      ∧ Issued s t l c [] qs (dst.map (fun d => (d - 2,
          { data := [lane (sqTok x src).data 0], tag := (sqTok x src).tag, ready := c + 1 }))) 0)

/-- R77, R88, R91: the scalar-queue instructions and the tests of queues and ports. -/
def Obligations.QueueResults : Prop :=
  (∀ (s : State) (l c : Nat) (f : RR), issues s l (wRR 0x21 0 f) f.g [204 + f.b.toNat] false c = true →
    popBlock (leafOf s l) c (4 + f.b.toNat) true = none →
    ∃ t, exec (.sqpop l f) s = .next t ∧ Issued s t l c [.s f.d.toNat] [4 + f.b.toNat] none 0
      ∧ HoldsS (leafOf t l) f.d.toNat (lane (sqTok (leafOf s l) f.b.toNat).data 0) c 1)
  ∧ (∀ (s : State) (l c : Nat) (f : RR), issues s l (wRR 0x21 1 f) f.g [204 + f.b.toNat] false c = true →
    popBlock (leafOf s l) c (4 + f.b.toNat) false = none →
    ∃ t, exec (.sqtag l f) s = .next t ∧ Issued s t l c [.s f.d.toNat] [] none 0
      ∧ HoldsS (leafOf t l) f.d.toNat ((sqTok (leafOf s l) f.b.toNat).tag.setWidth 32) c 1)
  ∧ (∀ (s : State) (l c : Nat) (f : RR), issues s l (wRR 0x21 2 f) f.g [f.a.toNat, f.b.toNat] false c = true →
    pushBlock (leafOf s l) (2 + f.d.toNat) = none → (effect (leafOf s l)).isSome = true →
    ∃ t, exec (.sqpush l f) s = .next t
      ∧ Issued s t l c [] [] (some (2 + f.d.toNat,
          { data := [sreg (leafOf s l) f.a.toNat], tag := (sreg (leafOf s l) f.b.toNat).setWidth 8, ready := c + 1 })) 0)
  ∧ (∀ (s : State) (l c : Nat) (f : RR), issues s l (wRR 0x21 3 f) f.g [] false c = true →
    ∃ t, exec (.qtestv l f) s = .next t ∧ Issued s t l c [.p f.d.toNat] [] none 0
      ∧ pget (leafOf t l) f.d.toNat = headAt (leafOf s l) f.b.toNat c)
  ∧ (∀ (s : State) (l c : Nat) (f : RR), issues s l (wRR 0x21 4 f) f.g [] false c = true →
    ∃ t, exec (.qtests l f) s = .next t ∧ Issued s t l c [.p f.d.toNat] [] none 0
      ∧ pget (leafOf t l) f.d.toNat = headAt (leafOf s l) (4 + f.b.toNat) c)
  ∧ (∀ (s : State) (l c : Nat) (f : RR), issues s l (wRR 0x21 5 f) f.g [] false c = true →
    ∃ t, exec (.qspacev l f) s = .next t ∧ Issued s t l c [.p f.d.toNat] [] none 0
      ∧ pget (leafOf t l) f.d.toNat = pSpace (leafOf s l) f.b.toNat)
  ∧ (∀ (s : State) (l c : Nat) (f : RR), issues s l (wRR 0x21 6 f) f.g [] false c = true →
    ∃ t, exec (.qspaces l f) s = .next t ∧ Issued s t l c [.p f.d.toNat] [] none 0
      ∧ pget (leafOf t l) f.d.toNat = pSpace (leafOf s l) (2 + f.b.toNat))

/-! ## Leaf: counters, waits, remote access, posting -/

/-- R77, R373, R375, R382, R383: local counters are read as they show in the cycle, saturate when incremented, and end or begin the
wait that names them; an increment shows from the next cycle. -/
def Obligations.LocalCounterResults : Prop :=
  (∀ (s : State) (l c : Nat) (f : RR), issues s l (wRR 0x22 1 f) f.g [] false c = true →
    ∃ t, exec (.lcrd l f) s = .next t ∧ Issued s t l c [.s f.d.toNat, .s (f.d.toNat + 1)] [] none 0
      ∧ sreg (leafOf t l) f.d.toNat = (if f.d = 0 then 0 else (lcSeen (leafOf s l) f.b.toNat).setWidth 32)
      ∧ sreg (leafOf t l) (f.d.toNat + 1) = BitVec.ofNat 32 ((lcSeen (leafOf s l) f.b.toNat).toNat / 2 ^ 32))
  ∧ (∀ (s : State) (l c : Nat) (f : RR), issues s l (wRR 0x22 0 f) f.g [f.a.toNat] false c = true →
    performs (leafOf s l) = true →
    ∃ t, exec (.lcinc l f) s = .next t
      ∧ (lcGet t l f.b.toNat).toNat = min ((lcGet s l f.b.toNat).toNat + (sreg (leafOf s l) f.a.toNat).toNat) (2 ^ 64 - 1)
      ∧ (∀ k, k ≠ f.b.toNat → lcGet t l k = lcGet s l k)
      ∧ (∀ k, lcSeen (leafOf t l) k = lcSeen (leafOf s l) k)
      ∧ (leafOf t l).pc = (seqNext (leafOf s l) (leafOf s l).pc).1
      ∧ (leafOf t l).sregs = (leafOf s l).sregs ∧ (leafOf t l).vregs = (leafOf s l).vregs
      ∧ (leafOf t l).preds = (leafOf s l).preds ∧ SameElsewhere s t l)
  ∧ (∀ (s : State) (l c : Nat) (f : Wf),
    issues s l (wW 0x23 f) f.g (pairKeys f.a.toNat ++ [f.b.toNat]) false c = true →
    (spair (leafOf s l) f.a.toNat).toNat ≤ (lcSeen (leafOf s l) f.cn.toNat).toNat →
    ∃ t, exec (.lcwait l f) s = .next t
      ∧ Issued s t l c [.s f.d.toNat, .s (f.d.toNat + 1), .p f.pd.toNat] [] none 0
      ∧ sreg (leafOf t l) f.d.toNat = (if f.d = 0 then 0 else (lcSeen (leafOf s l) f.cn.toNat).setWidth 32)
      ∧ sreg (leafOf t l) (f.d.toNat + 1) = BitVec.ofNat 32 ((lcSeen (leafOf s l) f.cn.toNat).toNat / 2 ^ 32)
      ∧ pget (leafOf t l) f.pd.toNat = true)
  ∧ (∀ (s : State) (l c : Nat) (f : Wf),
    issues s l (wW 0x23 f) f.g (pairKeys f.a.toNat ++ [f.b.toNat]) false c = true →
    (lcSeen (leafOf s l) f.cn.toNat).toNat < (spair (leafOf s l) f.a.toNat).toNat →
    ∃ t, exec (.lcwait l f) s = .next t ∧ SameRegs (leafOf s l) (leafOf t l) ∧ SameElsewhere s t l
      ∧ (leafOf t l).pc = (seqNext (leafOf s l) (leafOf s l).pc).1
      ∧ (leafOf t l).wait = some
          { loc := true, n := f.cn.toNat, expected := spair (leafOf s l) f.a.toNat,
            deadline := deadlineOf s.clk.cclk (sreg (leafOf s l) f.b.toNat), d := f.d.toNat, pd := f.pd.toNat })
  ∧ (∀ (s : State) (l c : Nat) (f : Wf),
    issues s l (wW 0x24 f) f.g (f.d.toNat :: pairKeys f.a.toNat ++ [f.b.toNat]) false c = true →
    ∃ t, exec (.gwait l f) s = .next t ∧ SameRegs (leafOf s l) (leafOf t l) ∧ SameElsewhere s t l
      ∧ (leafOf t l).pc = (seqNext (leafOf s l) (leafOf s l).pc).1
      ∧ (leafOf t l).wait = some
          { loc := false, n := (sreg (leafOf s l) f.d.toNat).toNat % 4096, expected := spair (leafOf s l) f.a.toNat,
            deadline := deadlineOf s.clk.cclk (sreg (leafOf s l) f.b.toNat), d := f.d.toNat, pd := f.pd.toNat }
      ∧ (leafOf t l).toHub = (leafOf s l).toHub
          ++ [.watch ((sreg (leafOf s l) f.d.toNat).toNat % 4096) (spair (leafOf s l) f.a.toNat)])

/-- R96, R97, R374, R378: the remote writes and increments that are not served by the cache take a place in rem_out and
leave, or wait behind a GFINC, or as increments behind a window change (R144). -/
def Obligations.RemoteOperationsLeave : Prop :=
  (∀ (s : State) (l c : Nat) (f : RR),
    let x := leafOf s l
    let addr := spair x f.a.toNat
    let n := if f.b = 0 then 1 else (sreg x f.b.toNat).toNat
    issues s l (wRR 0x22 2 f) f.g (pairKeys f.a.toNat ++ [f.b.toNat]) false c = true → x.rem.length < 16 →
    performs x = true → sourceRefused s (chipOf addr) = false →
    ∃ t, exec (.ginc l f) s = .next t ∧ RemoteSent s t l addr false false [] (incMsg s l addr n))
  ∧ (∀ (s : State) (l c : Nat) (f : RR),
    let x := leafOf s l
    let addr := spair x f.a.toNat
    let n := if f.b = 0 then 1 else (sreg x f.b.toNat).toNat
    issues s l (wRR 0x22 3 f) f.g (pairKeys f.a.toNat ++ [f.b.toNat]) false c = true → x.rem.length < 16 →
    performs x = true → sourceRefused s (chipOf addr) = false →
    ∃ t, exec (.gfinc l f) s = .next t ∧ RemoteSent s t l addr false true [] (incMsg s l addr n))
  ∧ (∀ (s : State) (l c : Nat) (f : RR),
    let x := leafOf s l
    let addr := spair x f.a.toNat
    issues s l (wRR 0x22 5 f) f.g (pairKeys f.a.toNat) false c = true → x.rem.length < 16 →
    performs x = true → sourceRefused s (chipOf addr) = false →
    ∃ t, exec (.bara l f) s = .next t ∧ RemoteSent s t l addr false false [] (fun tag =>
      match localGc s addr with
      | some g => .bara l g tag
      | none => .req 5 (leafReq s l addr 1 [1] tag)))
  ∧ (∀ (s : State) (l c : Nat) (f : RR),
    let x := leafOf s l
    let addr := spair x f.a.toNat
    issues s l (wRR 0x25 1 f) f.g (pairKeys f.a.toNat ++ [f.b.toNat]) false c = true → x.rem.length < 16 →
    performs x = true → sourceRefused s (chipOf addr) = false → addr.toNat % 4 = 0 → cached s l addr = false →
    ∃ t, exec (.rstw l f) s = .next t
      ∧ RemoteSent s t l addr true false [] (fun tag => .req 2 (leafReq s l addr 1 [sreg x f.b.toNat] tag)))
  ∧ (∀ (s : State) (l c : Nat) (f : RR),
    let x := leafOf s l
    let addr := spair x f.a.toNat
    issues s l (wRR 0x25 2 f) f.g (pairKeys f.a.toNat ++ vkey f.b.toNat) false c = true → x.rem.length < 16 →
    performs x = true → sourceRefused s (chipOf addr) = false → addr.toNat % 64 = 0 → cached s l addr = false →
    vBlock x c [f.b.toNat] 0 = none →
    ∃ t, exec (.rstv l f) s = .next t
      ∧ RemoteSent s t l addr true false (vqs [f.b.toNat]) (fun tag => .req 3 (leafReq s l addr 4 (vval x f.b.toNat) tag)))

/-- R98: a read leaves and its destination awaits the response; nothing is written meanwhile. -/
def Obligations.RemoteReadsLeave : Prop :=
  ∀ (s : State) (l c : Nat) (f : RR) (i : Instr) (op : BitVec 5) (pair : Bool) (w : Nat),
    let x := leafOf s l
    let addr := spair x f.a.toNat
    let tag : BitVec 15 := freshTag x
    let m : NetMsg := .req op (leafReq s l addr 0 [] tag)
    ((i = .rldw l f ∧ op = 0 ∧ pair = false ∧ w = wRR 0x25 0 f ∧ addr.toNat % 4 = 0 ∧ cached s l addr = false)
      ∨ (i = .grd l f ∧ op = 4 ∧ pair = true ∧ w = wRR 0x22 4 f)) →
    issues s l w f.g (pairKeys f.a.toNat) false c = true → sourceRefused s (chipOf addr) = false →
    ∃ t, exec i s = .next t ∧ SameRegs x (leafOf t l) ∧ SameElsewhere s t l ∧ (leafOf t l).pc = (seqNext x x.pc).1
      ∧ (leafOf t l).loads = x.loads ++ [{ tag := tag, pair := pair, d := f.d.toNat, addr := addr, sentAt := s.clk.cclk,
                                           timeout := odNat s 0x304001, pc := pcOf x,
                                           inStep := decide (x.step.shadow ≠ none) }]
      ∧ (if x.heldSends ≠ [] then
          (leafOf t l).heldSends = x.heldSends ++ [{ msg := m, fence := none }] ∧ t.net = s.net ∧ t.links = s.links
        else (leafOf t l).heldSends = [] ∧ t.net = (launch s m).net ∧ t.links = (launch s m).links)

/-- R164, R165, R167: in cache mode a load that meets its line returns its word, a store to such a line replaces one word of
it, and RSTV allocates its line without a request; RFENCE empties the cache once nothing is outstanding. -/
def Obligations.CachedAccessResults : Prop :=
  (∀ (s : State) (l c : Nat) (f : RR) (k : CLine),
    let x := leafOf s l
    let addr := spair x f.a.toNat
    issues s l (wRR 0x25 0 f) f.g (pairKeys f.a.toNat) false c = true → addr.toNat % 4 = 0 → cached s l addr = true →
    findLine x (offOf addr / 64) = some k → k.bad = 0 → k.poison = 0 →
    ∃ t, exec (.rldw l f) s = .next t
      ∧ HoldsS (leafOf t l) f.d.toNat (lane k.data (offOf addr / 4 % 16)) c 6
      ∧ (∀ n, n ≠ f.d.toNat → sreg (leafOf t l) n = sreg x n) ∧ t.net = s.net ∧ SameElsewhere s t l)
  ∧ (∀ (s : State) (l c : Nat) (f : RR) (k : CLine),
    let x := leafOf s l
    let addr := spair x f.a.toNat
    issues s l (wRR 0x25 1 f) f.g (pairKeys f.a.toNat ++ [f.b.toNat]) false c = true → addr.toNat % 4 = 0 →
    cached s l addr = true → x.rem.length < 16 → performs x = true → findLine x (offOf addr / 64) = some k →
    ∃ t, exec (.rstw l f) s = .next t ∧ t.net = s.net ∧ SameElsewhere s t l
      ∧ findLine (leafOf t l) (offOf addr / 64) = some (storeWord k (offOf addr / 4 % 16) (sreg x f.b.toNat)))
  ∧ (∀ (s : State) (l c : Nat) (f : RR),
    let x := leafOf s l
    let addr := spair x f.a.toNat
    issues s l (wRR 0x25 2 f) f.g (pairKeys f.a.toNat ++ vkey f.b.toNat) false c = true → addr.toNat % 64 = 0 →
    cached s l addr = true → x.rem.length < 16 → performs x = true → vBlock x c [f.b.toNat] 0 = none →
    ∃ t, exec (.rstv l f) s = .next t ∧ SameElsewhere s t l
      ∧ findLine (leafOf t l) (offOf addr / 64) = some { line := offOf addr / 64, dirty := true, data := vval x f.b.toNat })
  ∧ (∀ (s : State) (l c : Nat) (f : RR),
    let x := leafOf s l
    issues s l (wRR 0x25 3 f) f.g [] false c = true → x.rem = [] → x.gather = [] → x.cache.misses = [] → dirtyLines x = [] →
    ∃ t, exec (.rfence l f) s = .next t ∧ (leafOf t l).cache.lines = [] ∧ SameRegs x (leafOf t l) ∧ SameElsewhere s t l
      ∧ (leafOf t l).pc = (seqNext x x.pc).1)

/-- The descriptor of a DMA post: eight lanes of the operand from `lane0` on. -/
def dmaBits (v : Lanes) (lane0 : Nat) : BitVec 256 :=
  BitVec.ofNat 256 (ofWords ((List.range 8).map (fun i => lane v (lane0 + i))))

/-- R99, R107, R148 to R151, R195, R226, R262, R412: a post puts its descriptor into the engine's queue, behind those posted before
it, or on its way to the home column, numbered, with its scoreboard entries; a refused EPOST gives its entries up at once. -/
def Obligations.PostsEnterQueues : Prop :=
  (∀ (s : State) (l c : Nat) (f : RR),
    let x := leafOf s l
    let b := boughOf l
    let e := engOf s b
    let d : BitVec 512 := BitVec.ofNat 512 (ofWords (vval x f.a.toNat))
    let n := postNumber x
    let q : EDesc :=
      { bits := d, leaf := l, post := n.1, replay := n.2, run := replayNo x n, at_ := s.clk.cclk
        opseq := if n.2 then x.step.opseqs.getD x.step.postIx 0 else freshOpseq s.clk.cclk l e
        inStep := decide (x.step.shadow ≠ none), pc := pcOf x, refused := engineRefusal s b d }
    let es (j : Nat) : List SbEntry := (engineEntries d (eOpId q) j).map (fun k =>
      if q.refused = none then k else { k with rel := some s.clk.cclk, freed := true })
    issues s l (wRR 0x26 0 f) f.g (vkey f.a.toNat) false c = true → vBlock x c [f.a.toNat] 0 = none →
    e.queue.length < 4 → (∀ j, j < 16 → (engineEntries d (eOpId q) j).length ≤ sbFree (leafOf s (boughLeaf b j))) →
    ∃ t, exec (.epost l f) s = .next t ∧ SameMem s t ∧ (engOf t b).opseq = (if n.2 then e.opseq else e.opseq + 1)
      ∧ (engOf t b).queue = enqueue s.clk.cclk q e.queue ∧ q ∈ (engOf t b).queue
      ∧ (leafOf t l).postNo = (if n.2 then x.postNo else x.postNo + 1) ∧ (leafOf t l).sregs = x.sregs
      ∧ (leafOf t l).vregs = x.vregs ∧ (leafOf t l).pc = (seqNext x x.pc).1
      ∧ ∀ j, j < 16 → (leafOf t (boughLeaf b j)).sb = (leafOf s (boughLeaf b j)).sb ++ es j)
  ∧ (∀ (s : State) (l c : Nat) (f : RR) (i : Instr) (w lane0 : Nat),
    let x := leafOf s l
    let d := dmaBits (vval x f.a.toNat) lane0
    let n := postNumber x
    let p : Poster := .leaf l n.1 (replayNo x n) (decide (x.step.shadow ≠ none)) (pcOf x) (mget 0 x.tdata x.task)
    let es := dmaEntries d (dBase p) (dOpId p 0)
    ((i = .dpost l f ∧ w = wRR 0x26 1 f ∧ lane0 = 0) ∨ (i = .dposth l f ∧ w = wRR 0x26 2 f ∧ lane0 = 8)) →
    issues s l w f.g (vkey f.a.toNat) false c = true → vBlock x c [f.a.toNat] 0 = none → x.dposts < 4 → es.length ≤ sbFree x →
    ∃ t, exec i s = .next t ∧ SameElsewhere s t l
      ∧ (colOf t (homeCol s (boughOf l))).posts
          = (colOf s (homeCol s (boughOf l))).posts ++ [{ bits := d, poster := p, at_ := s.clk.cclk + 2 }]
      ∧ (leafOf t l).dposts = x.dposts + 1 ∧ (leafOf t l).sb = x.sb ++ es ∧ (leafOf t l).sregs = x.sregs
      ∧ (leafOf t l).vregs = x.vregs ∧ (leafOf t l).pc = (seqNext x x.pc).1)

/-! ## Leaf: control flow and system -/

/-- R84 to R87: a branch jumps, links and leaves the loops that its target lies outside; a loop begins, or with a zero count
passes to the instruction after its END. -/
def Obligations.ControlFlowResults : Prop :=
  (∀ (s : State) (l c : Nat) (f : BRf),
    let x := leafOf s l
    let target := ((if f.a = 0 then 0 else sreg x f.a.toNat) + f.target.setWidth 32).toNat
    issues s l (wBR f) f.g [f.a.toNat] false c = true → x.loops.any (fun r => r.fin = x.pc) = false →
    ∃ t, exec (.br l f) s = .next t ∧ SameElsewhere s t l ∧ (leafOf t l).pc = target
      ∧ (leafOf t l).nextIssue = c + 3 ∧ HoldsS (leafOf t l) f.d.toNat (BitVec.ofNat 32 (x.pc + 1)) c 1
      ∧ (∀ n, n ≠ f.d.toNat → sreg (leafOf t l) n = sreg x n) ∧ (leafOf t l).preds = x.preds ∧ (leafOf t l).vregs = x.vregs
      ∧ (leafOf t l).loops = keepLoops x.loops target)
  ∧ (∀ (s : State) (l c : Nat) (i : Instr) (w k count fin : Nat) (g : BitVec 4) (srcs : List Nat),
    let x := leafOf s l
    ((∃ f : LPf, i = .loopR l f ∧ w = wLP f ∧ k = f.k.toNat ∧ count = (sreg x f.a.toNat).toNat ∧ fin = f.fin.toNat ∧ g = f.g
        ∧ srcs = [f.a.toNat])
      ∨ (∃ f : LPIf, i = .loopi l f ∧ w = wLPI f ∧ k = f.k.toNat ∧ count = f.count.toNat ∧ fin = f.fin.toNat ∧ g = f.g
        ∧ srcs = [])) →
    issues s l w g srcs false c = true → x.loops.any (fun r => r.k = k) = false → x.pc < fin →
    (∀ r, x.loops.head? = some r → fin < r.fin) →
    ∃ t, exec i s = .next t ∧ SameElsewhere s t l ∧ SameRegs x (leafOf t l)
      ∧ (if count = 0 then (leafOf t l).pc = fin + 1 ∧ (leafOf t l).loops = x.loops
         else (leafOf t l).pc = x.pc + 1
           ∧ (leafOf t l).loops = { k := k, count := BitVec.ofNat 32 count, start := x.pc + 1, fin := fin } :: x.loops))
  ∧ (∀ (s : State) (l c : Nat) (f : AGSf), issues s l (wAGS f) f.g [f.a.toNat] false c = true →
    let a := agOf (leafOf s l) f.ag.toNat
    let v := sreg (leafOf s l) f.a.toNat
    ∃ t, exec (.agset l f) s = .next t ∧ Issued s t l c [.ag f.ag.toNat] [] none 0
      ∧ agOf (leafOf t l) f.ag.toNat =
          { base := if f.field = 0 then (if f.add = 1 then a.base + v else v) else a.base
            stride := if f.field = 1 then (if f.add = 1 then a.stride + v else v) else a.stride
            count := if f.field = 2 then (if f.add = 1 then a.count + v else v) else a.count
            index := if f.field = 3 then (if f.add = 1 then a.index + v else v) else a.index })

/-- R66, R67, R77, R100, R101: NOP, special registers, steps, task switch and HALT. -/
def Obligations.SystemResults : Prop :=
  (∀ (s : State) (l c : Nat) (f : RR), issues s l (wRR 0 0 f) f.g [] false c = true →
    ∃ t, exec (.nop l f) s = .next t ∧ Issued s t l c [] [] none 0)
  ∧ (∀ (s : State) (l c : Nat) (f : RR) (v : Word), issues s l (wRR 0 5 f) f.g [] false c = true →
    srRead l (leafOf s l) c f.b.toNat = some v →
    ∃ t, exec (.mfsr l f) s = .next t ∧ Issued s t l c [.s f.d.toNat] [] none 0 ∧ HoldsS (leafOf t l) f.d.toNat v c 1)
  ∧ (∀ (s : State) (l c : Nat) (f : RR),
    let x := leafOf s l
    let n := f.b.toNat
    let v := sreg x f.a.toNat
    issues s l (wRR 0 6 f) f.g [f.a.toNat] false c = true →
    ((n = 2 ∧ v.toNat ≤ 4) ∨ (n = 3 ∧ v.toNat < 32) ∨ (16 ≤ n ∧ n ≤ 19 ∧ windowOk v.toNat 4096 = true ∧ n - 16 ≠ x.task)
      ∨ (20 ≤ n ∧ n ≤ 23 ∧ windowOk v.toNat (usableRows x) = true ∧ n - 20 ≠ x.task)) →
    ∃ t, exec (.mtsr l f) s = .next t ∧ SameElsewhere s t l ∧ (leafOf t l).pc = (seqNext x x.pc).1
      ∧ (leafOf t l).sregs = x.sregs ∧ (leafOf t l).vregs = x.vregs ∧ (leafOf t l).preds = x.preds
      ∧ (leafOf t l).rm = (if n = 2 then v.setWidth 3 else x.rm)
      ∧ (leafOf t l).vstat = (if n = 3 then v.setWidth 5 else x.vstat)
      ∧ (∀ k, mget 0 (leafOf t l).tcode k = if n = 16 + k ∧ k < 4 then v else mget 0 x.tcode k)
      ∧ (∀ k, mget 0 (leafOf t l).tdata k = if n = 20 + k ∧ k < 4 then v else mget 0 x.tdata k))
  ∧ (∀ (s : State) (l c : Nat) (f : RR),
    let x := leafOf s l
    issues s l (wRR 0 2 f) f.g [] false c = true → x.step.shadow = none →
    ∃ t, exec (.stepBegin l f) s = .next t ∧ SameElsewhere s t l ∧ (leafOf t l).pc = (seqNext x x.pc).1
      ∧ (leafOf t l).sregs = x.sregs ∧ (leafOf t l).vregs = x.vregs
      ∧ (leafOf t l).step.shadow = some { shadowOf x with pc := (seqNext x x.pc).1, loops := (seqNext x x.pc).2 }
      ∧ (leafOf t l).step.seen = 0 ∧ (leafOf t l).step.issued = 0 ∧ (leafOf t l).step.posts = [])
  ∧ (∀ (s : State) (l c : Nat) (f : RR),
    let x := leafOf s l
    issues s l (wRR 0 3 f) f.g [] false c = true → x.step.shadow ≠ none → stepLoads s l c = false →
    ∃ t, exec (.stepEnd l f) s = .next t ∧ SameElsewhere s t l ∧ (leafOf t l).pc = (seqNext x x.pc).1
      ∧ (leafOf t l).step.shadow = none ∧ (leafOf t l).reruns = 0 ∧ (leafOf t l).sregs = x.sregs
      ∧ (leafOf t l).run = (if x.sw.stopped then .halted else .running)
      ∧ ∀ q, queueOf (leafOf t l) q = { toks := (queueOf x q).toks.drop (queueOf x q).ret, ret := 0 })
  ∧ (∀ (s : State) (l c : Nat) (f : RR),
    let x := leafOf s l
    issues s l (wRR 0 4 f) f.g [] false c = true → x.step.shadow = none → x.loops = [] →
    ∃ t, exec (.tsw l f) s = .next t ∧ SameElsewhere s t l ∧ (leafOf t l).task = f.b.toNat
      ∧ mget 0 (leafOf t l).resume x.task = x.pc + 1
      ∧ (leafOf t l).pc = (if f.b.toNat = x.task then x.pc + 1 else mget 0 x.resume f.b.toNat)
      ∧ (leafOf t l).nextIssue = c + 3 ∧ (leafOf t l).sregs = x.sregs ∧ (leafOf t l).vregs = x.vregs)
  ∧ (∀ (s : State) (l c : Nat) (f : RR),
    let x := leafOf s l
    issues s l (wRR 0 1 f) f.g [] false c = true → x.step.shadow = none → x.rem = [] → x.gather = [] →
    x.cache.misses = [] → dirtyLines x = [] →
    ∃ t, exec (.halt l f) s = .next t ∧ SameElsewhere s t l ∧ (leafOf t l).run = .halted ∧ (leafOf t l).cache.lines = []
      ∧ (leafOf t l).sregs = x.sregs ∧ (leafOf t l).vregs = x.vregs)

/-! ## Power, resets and start-up -/

/-- What PORST_N keeps: MRAM, eFuse, the part, the straps as sampled, heartwood and scratchpad contents, pin levels. -/
def ResetForm (s t : State) : Prop :=
  t = { State.reset with
    pending := s.pending, pins := t.pins, tap := s.tap, part := s.part, fuse := s.fuse, mram := s.mram
    boot := { slotId := s.boot.slotId, profSel := s.boot.profSel, clears := s.boot.clears }
    mem := s.mem, hwPoison := s.hwPoison, free := s.free }

/-- R570, R571, R585, R673, R680: PORST_N low, a rail out of tolerance or REFCLK lost put the chiplet back to reset. -/
def PowerOnResetClears : Prop :=
  ∀ s : State,
    Completes .porstNAssert s (fun t => ResetForm s t
      ∧ t.pins = { s.pins with porst := false, porstPin := false, ready := false, alert := true, therm := true })
    ∧ (∀ rail, Completes (.supplyFault rail) s (fun t => ResetForm s t
      ∧ t.pins = { s.pins with porst := false, railsOk := false, ready := false, alert := true, therm := true }))
    ∧ Completes .refclkLoss s (fun t => ResetForm s t
      ∧ t.pins = { s.pins with porst := false, refOk := false, ready := false, alert := true, therm := true })

/-- Start-up has begun from `s`: a start is counted, log entries of earlier starts are marked, the strapped profile is
active, and debug is locked outside TEST and DEBUG (R551, R561, R651, R653). -/
def StartedForm (s t : State) (slotId : BitVec 6) (profSel : BitVec 2) : Prop :=
  let u : State := { s with
    pins := { s.pins with porst := true, porstPin := true, railsOk := true, refOk := true }
    mram := { s.mram with bootCount := (s.mram.bootCount + 1) % 2 ^ 32
                          persisted := s.mram.persisted.map (fun e => { e with prior := true }) }
    boot := { s.boot with slotId := slotId, profSel := profSel
                          debugLocked := decide (s.fuse.lifecycle ≠ 1) && decide (s.fuse.lifecycle ≠ 4) }
    mgmt := { s.mgmt with profileActive := profSel.toNat, profilePending := profSel.toNat } }
  if slotId.toNat < 40 then t = u else Raised u t 0x02 slotId.toNat 0 0

/-- R35, R551, R673, R678, R680: the release of PORST_N samples the straps and begins start-up once the rails and REFCLK
are good; their return begins one that they held. -/
def StartUpBegins : Prop :=
  ∀ (s : State), s.pins.porst = false → s.boot.clears = [] →
    (∀ slotId profSel, s.pins.porstPin = false → s.pins.railsOk = true → s.pins.refOk = true →
      Completes (.porstNRelease slotId profSel) s (fun t => StartedForm s t slotId profSel))
    ∧ (∀ slotId profSel, s.pins.porstPin = false → (s.pins.railsOk && s.pins.refOk) = false →
      Completes (.porstNRelease slotId profSel) s (fun t => t = { s with
        pins := { s.pins with porstPin := true }, boot := { s.boot with slotId := slotId, profSel := profSel } }))
    ∧ (s.pins.porstPin = true → s.pins.refOk = true →
      Completes .supplyRestored s (fun t => StartedForm s t s.boot.slotId s.boot.profSel))
    ∧ (s.pins.porstPin = true → s.pins.railsOk = true →
      Completes .refclkRestored s (fun t => StartedForm s t s.boot.slotId s.boot.profSel))

/-- R570, R546, R551, R573, R640 to R642: the phases up to calibration. ROM_BOOT and FW_VERIFY lead on; FW_VERIFY starts the
preferred slot, else the other, else the recovery dictionary; OD_ASSEMBLY reads the NV image and raises the fused security
version, and stops a chiplet without firmware, with a strap above 39 or RETIRED; PROFILE_APPLY activates the profile and
starts the ports' training. -/
def FirmwarePhases : Prop :=
  (∀ s : State, inPhase s .romBoot = true → Completes .romBoot s (fun t => PhaseMoved s t .fwVerify))
  ∧ (∀ s : State, inPhase s .fwVerify = true →
    let run (u : State) (k : Nat) : State :=
      { u with boot := { u.boot with fwSlot := k, fwVersion := BitVec.ofNat 32 (mVersion (fwSlotOf s k))
                                     fwSvn := mSvn (fwSlotOf s k), fwManifest := (fwSlotOf s k).take 0x200 } }
    let k := s.mram.preferred
    let fell (u : State) : Prop :=
      Raised s u 0x03 k (slotReason s k) (manifestPayload (fwSlotOf s k) + (1 - k) * 2 ^ 64)
    Completes .fwVerify s (fun t =>
      (slotReason s k = 0 → PhaseMoved (run s k) t .odAssembly)
      ∧ (slotReason s k ≠ 0 → slotReason s (1 - k) = 0 →
          ∃ u, fell u ∧ PhaseMoved (run u (1 - k)) t .odAssembly)
      ∧ (slotReason s k ≠ 0 → slotReason s (1 - k) ≠ 0 →
          ∃ u, fell u ∧ PhaseMoved { u with boot := { u.boot with recovery := true } } t .odAssembly)))
  ∧ (∀ s : State, inPhase s .odAssembly = true →
    let u : State := { s with
      mgmt := { s.mgmt with nv := if s.boot.recovery then [] else s.mram.nvImage }
      fuse := { s.fuse with secVer := max s.fuse.secVer s.boot.fwSvn } }
    let stops : Bool := s.boot.recovery || 40 ≤ s.boot.slotId.toNat || s.fuse.lifecycle = 5
    (stops = true → Completes .odAssembly s (fun t => t = { u with boot := { s.boot with held := true } }))
    ∧ (stops = false → Completes .odAssembly s (fun t => PhaseMoved u t .profileApply)))
  ∧ (∀ s : State, inPhase s .profileApply = true →
    Completes .profileApply s (fun t => t.boot.phase = .calibration ∧ t.pins.ready = false
      ∧ t.mgmt.profileActive = s.boot.profSel.toNat
      ∧ t.mgmt.overlay = (mget none s.mram.profiles s.boot.profSel.toNat).getD []
      ∧ (∀ p, p < 4 → (portOf t p).state = 1 ∧ (portOf t p).since = s.clk.us)
      ∧ t.leaves = s.leaves ∧ t.mem = s.mem ∧ t.mram.defects = s.mram.defects))

/-- R572, R573, R575, R576: a test's failures are in the defect list after its phase; MEMORY_INIT leaves every byte of
heartwood and scratchpad zero and whole, and CROWN_RST_N low holds start-up after it. -/
def MemoryAndTestPhases : Prop :=
  (∀ (s : State) (found : List Site), inPhase s .calibration = true →
    Completes (.calibration found) s (fun t => t.boot.phase = .memoryInit ∧ t.pins.ready = false
      ∧ (∀ x ∈ found, x.test.toNat ∈ [6, 9, 10, 12, 13] → listed t x = true)
      ∧ t.leaves = s.leaves ∧ t.mem = s.mem ∧ t.fuse = s.fuse))
  ∧ (∀ (s : State) (retire found : List Site), inPhase s .memoryInit = true →
    Completes (.memoryInit retire found) s (fun t =>
      (∀ a, a < spadBase + 2304 * 0x40000 → readByte t.mem a = 0) ∧ t.hwPoison = [] ∧ t.leaves = []
      ∧ (∀ x ∈ found, x.test.toNat = 0x0B → listed t x = true)
      ∧ (s.pins.crownRst = true → t.boot.phase = .startTest ∧ t.gov.step = 0)
      ∧ (s.pins.crownRst = false → t.boot.phase = .crownReset ∧ t.boot.waitCrownRst = true)
      ∧ t.pins.ready = false ∧ t.fuse = s.fuse))
  ∧ (∀ (s : State) (found : List Site), inPhase s .startTest = true →
    Completes (.startTest found) s (fun t => t.boot.phase = .gridBuild ∧ t.pins.ready = false
      ∧ (∀ x ∈ found, testRuns s x.test.toNat = true → listed t x = true)
      ∧ t.leaves = s.leaves ∧ t.mem = s.mem ∧ t.fuse = s.fuse))

/-- R55, R56, R359, R582 to R584, R626: GRID_BUILD takes the least count of working boughs in a row, at most the graded width, as
logical width, maps each row's first working boughs in order, and enters COMPUTE at the fastest permitted step, or at step 3
in an emergency, when the crown's needs hold; else CROWN_DOWN. The routers hold the route tables of that width, with no fault marked
(R359). -/
def GridBuildMapsBoughs : Prop :=
  ∀ s : State, inPhase s .gridBuild = true →
    Completes .gridBuild s (fun t =>
      t.boot.width ≤ s.part.gradedWidth
      ∧ (∀ y, y < 12 → t.boot.width ≤ ((List.range 12).filter (fun x => boughWorks s (12 * y + x))).length)
      ∧ (t.boot.width = s.part.gradedWidth
        ∨ ∃ y, y < 12 ∧ t.boot.width = ((List.range 12).filter (fun x => boughWorks s (12 * y + x))).length)
      ∧ (∀ y x, y < 12 → x < t.boot.width → homeCol t (12 * y + x)
          = 12 * y + ((List.range 12).filter (fun x => boughWorks s (12 * y + x))).getD x 0)
      ∧ t.boot.crownNeeds = crownNeedsNow s t.boot.width
      ∧ (crownNeedsNow s t.boot.width = true →
          t.boot.phase = .compute ∧ t.pins.ready = true
          ∧ t.gov.step = (if s.gov.emergency then 3 else fastestStep s))
      ∧ (crownNeedsNow s t.boot.width = false → t.boot.phase = .crownDown ∧ t.pins.ready = false ∧ t.gov.step = s.gov.step)
      ∧ t.net.routes = t.boot.width ∧ t.net.masks = []
      ∧ t.leaves = s.leaves ∧ t.mem = s.mem ∧ t.mram.defects = s.mram.defects)

/-- PORST_N, rails and REFCLK: what reset clears and keeps, and how start-up begins. -/
def Obligations.ResetAndStartUp : Prop := PowerOnResetClears ∧ StartUpBegins

/-- The phases of start-up, from ROM_BOOT to COMPUTE. -/
def Obligations.StartUpPhases : Prop := FirmwarePhases ∧ MemoryAndTestPhases ∧ GridBuildMapsBoughs

/-- R517, R558, R572, R581, R585, R586, R603, R685: CROWN_RST_N low begins a crown reset once START_TEST has begun and aborts
a PENDING command; a collective that has not confirmed fails; the entries that DEFECT_CLEAR named before leave the list, and
a restart takes no later ones; the release of CROWN_RST_N lets a start-up or crown reset that waits for it go on; the sequence
clears the crown, applies the pending profile, and goes on with START_TEST at step 0. -/
def Obligations.CrownResetSequence : Prop :=
  (∀ s : State, s.pins.crownRst = true → crownRstActs { s with pins := { s.pins with crownRst := false } } = true →
    Completes .crownRstN s (fun t => t.pins.crownRst = false ∧ t.boot.phase = .crownReset ∧ t.boot.crownSeq = true
      ∧ t.boot.cause = 2 ∧ t.boot.crownResets = s.boot.crownResets + 1 ∧ t.boot.waitCrownRst = false
      ∧ (s.boot.phase ≠ .crownReset → t.pins.ready = false)
      ∧ t.gov.change = none ∧ t.gov.decided = none ∧ t.gov.step = s.gov.step
      ∧ (∀ p, s.mgmt.pend = some p → p.sub ≠ 6 → t.mgmt.pend = none
          ∧ mget 0 t.mgmt.cmdStatus p.sub = BitVec.ofNat 32 (2 * 2 ^ 24 + 6 * 2 ^ 16 + p.seq.toNat))
      ∧ t.boot.clears = (if s.boot.crownSeq then s.boot.clears else [])
      ∧ (∀ k x, k < 16 → cslot s k = some x →
          cslot t k = if x.state = 3 then some { x with crownReset := true } else none)
      ∧ (s.boot.crownSeq = false → t.mram.defects = s.mram.defects.filter (fun d => !s.boot.clears.contains d))
      ∧ t.leaves = s.leaves ∧ t.mem = s.mem))
  ∧ (∀ s : State, s.pins.crownRst = true → crownRstActs { s with pins := { s.pins with crownRst := false } } = false →
    Completes .crownRstN s (fun t => t = { s with pins := { s.pins with crownRst := false } }))
  ∧ (∀ s : State, s.boot.waitCrownRst = true → s.boot.phase = .crownReset →
    Completes .crownRstNRelease s (fun t => t.pins.crownRst = true ∧ t.boot.phase = .startTest
      ∧ t.boot.waitCrownRst = false ∧ t.gov.step = 0 ∧ t.leaves = s.leaves ∧ t.mem = s.mem))
  ∧ (∀ s : State, (s.boot.waitCrownRst = false ∨ s.boot.phase ≠ .crownReset) →
    Completes .crownRstNRelease s (fun t => t = { s with pins := { s.pins with crownRst := true } }))
  ∧ (∀ s : State, inPhase s .crownReset = true → s.boot.crownSeq = true → s.boot.waitCrownRst = false →
    Completes .crownResetPhase s (fun t => t.leaves = [] ∧ t.engines = [] ∧ t.hub = {}
      ∧ (∀ a, spadBase ≤ a → a < spadBase + 2304 * 0x40000 → readByte t.mem a = 0)
      ∧ t.boot.fencedLeaves = [] ∧ t.boot.fencedBoughs = [] ∧ t.boot.fencedColumns = [] ∧ t.boot.fencedTrunks = []
      ∧ t.net.routes = 0 ∧ t.net.masks = [] ∧ t.graft.load = none ∧ t.graft.grafts = 0 ∧ t.graft.chain = List.replicate 48 0 ∧ t.coll.posts = 0
      ∧ t.boot.clears = s.boot.clears ∧ t.mgmt.profileActive = t.mgmt.profilePending
      ∧ (t.pins.crownRst = true → t.boot.phase = .startTest ∧ t.gov.step = 0)
      ∧ (t.pins.crownRst = false → t.boot.phase = .crownReset ∧ t.boot.waitCrownRst = true)))

/-- R361, R598 to R602, R620: a unit that fails in a run is recorded and fenced with what hangs on it, and the neighbours of a failed
leaf's router mark it; without the crown's needs,
or with a crown core failure or a crown sensor at 115 °C, the crown stops. -/
def Obligations.RunFailuresFence : Prop :=
  (∀ (s : State) (site : Site), s.boot.phase = .compute → 1 ≤ site.kind.toNat → site.kind.toNat ≤ 5 →
    hasDefect s site.kind.toNat site.position.toNat = false →
    Completes (.unitFailure site) s (fun t =>
      let pos := site.position.toNat
      hasDefect t site.kind.toNat pos = true
      ∧ (site.kind = 1 → ∀ b, b < 144 → boughAt s (pos / 48 / 4 * 12 + pos % 48 / 4) = some b →
          leafFenced t (boughLeaf b (pos / 48 % 4 * 4 + pos % 4)) = true
          ∧ ∀ d q, d < 4 → routerNext s.net.routes (boughLeaf b (pos / 48 % 4 * 4 + pos % 4)) d = some q →
              (mget 0 t.net.masks q).getLsbD (facing d) = true)
      ∧ (site.kind = 2 ∨ site.kind = 3 → ∀ b, b < 144 → boughAt s (if site.kind = 2 then pos else pos % 256) = some b →
          boughFenced t b = true ∧ ∀ j, j < 16 → leafFenced t (boughLeaf b j) = true)
      ∧ (site.kind = 4 → pos < 144 → colFenced t pos = true)
      ∧ (site.kind = 5 → mget false t.boot.fencedTrunks pos = true)
      ∧ t.boot.phase = (if crownNeedsNow t s.boot.width then .compute else .crownDown)
      ∧ t.mem = s.mem ∧ t.engines = s.engines ∧ t.fuse = s.fuse))
  ∧ (∀ (s : State) (core : Nat), s.boot.phase = .compute → core < 2 ^ 32 →
    Completes (.crownDown core) s (fun t => t.boot.phase = .crownDown ∧ t.pins.ready = false ∧ t.boot.crownNeeds = false
      ∧ hasDefect t 9 core = true ∧ (∀ l, leafOk s l = true → leafFenced t l = true)
      ∧ (∀ b, b < 144 → boughFenced t b = true ∧ colFenced t b = true) ∧ t.mem = s.mem ∧ t.fuse = s.fuse))
  ∧ (∀ (s : State) (sensor : Nat) (reading : Word), s.pins.porst = true → s.gov.tripped = false →
    115 * one149 ≤ f32Int reading →
    Completes (.thermalTrip sensor reading) s (fun t => t.pins.therm = false ∧ t.gov.tripped = true ∧ t.gov.change = none
      ∧ t.gov.decided = none ∧ t.boot.phase = (if s.boot.phase = .compute then .crownDown else s.boot.phase)
      ∧ (s.boot.phase = .compute → ∀ l, leafOk s l = true → leafFenced t l = true)
      ∧ t.mem = s.mem ∧ t.fuse = s.fuse))

/-! ## Governor -/

/-- PAYLOAD of a GOV_DECISION: TARGET new and old step, LIMIT, MEASURED; no advisory (R605). -/
def decisionPayload (c : StepChange) : Nat :=
  c.measured.toNat * 2 ^ 96 + c.limit.toNat * 2 ^ 64 + (c.target + 16 * c.old) * 2 ^ 32

/-- A step change has begun: slower ones stop the crown clock first, faster ones slew VCR first (R615, R616). -/
def ChangeBegun (s t : State) (c : StepChange) : Prop :=
  t = { s with gov := { s.gov with
    decided := none, change := some { c with old := s.gov.step, stage := if s.gov.step < c.target then 1 else 0 } } }

/-- R613, R615 to R617, R627: a decision waits for a step point or 10 ms; PLL relock restarts the clock at the new step and
reports it; a slewed VCR ends a slower change and lets a faster one stop the clock. -/
def Obligations.StepChangeSequence : Prop :=
  (∀ (s : State) (c : StepChange) (barrier : Bool), s.gov.decided = some c → s.gov.change = none →
    s.boot.phase = .compute → (barrier = true ∨ ∀ p ∈ s.leaves, p.2.run ≠ .running) →
    Completes (.stepPoint barrier) s (fun t => ChangeBegun s t c))
  ∧ (∀ (s : State) (c : StepChange), s.gov.decided = some c → s.gov.change = none → s.boot.phase = .compute →
    s.gov.decidedAt + 10000 ≤ s.clk.us → Completes .stepDeadline s (fun t => ChangeBegun s t c))
  ∧ (∀ (s : State) (c : StepChange), s.gov.change = some c → c.stage = 1 →
    let u : State := { s with gov := { s.gov with
      step := c.target, lastChange := some s.clk.us, coolSince := none, powerSince := none
      change := some { c with stage := 2 } } }
    (c.old < c.target → Completes .pllRelockDone s (fun t => Raised u t 0xE0 c.unit c.cause (decisionPayload c)))
    ∧ (c.target ≤ c.old → s.gov.afterChange = false → Completes .pllRelockDone s (fun t =>
        ∃ v, Raised u v 0xE0 c.unit c.cause (decisionPayload c)
          ∧ t = { v with gov := { v.gov with change := none, afterChange := false } })))
  ∧ (∀ (s : State) (c : StepChange), s.gov.change = some c → c.stage = 0 →
    Completes .vcrSlewDone s (fun t => t = { s with gov := { s.gov with
      vcrStep := c.target, change := some { c with stage := 1 } } }))
  ∧ (∀ (s : State) (c : StepChange), s.gov.change = some c → c.stage = 2 → s.gov.afterChange = false →
    Completes .vcrSlewDone s (fun t => t = { s with gov := { s.gov with
      vcrStep := c.target, change := none, afterChange := false } }))

/-- A sample at which an emergency begins: a crown sensor at 110 °C or more, or a heartwood sensor above 105 °C (R618). -/
def emergencySample (r : Readings) : Bool :=
  r.crown.any (fun w => decide (110 * one149 ≤ f32Int w)) || r.hw.any (fun w => decide (105 * one149 < f32Int w))

/-- R604, R618, R619: a sample is kept with the last ten; an emergency sends a crown that computes to step 3 at once and
discards the decision that waits, and ends after gov_hysteresis within 100 °C and 102 °C. -/
def SensorSamples : Prop :=
  ∀ (s : State) (r : Readings), s.pins.porst = true →
    Completes (.sensorSample r) s (fun t =>
      t.gov.samples = (s.gov.samples ++ [r]).drop (s.gov.samples.length + 1 - 10)
      ∧ t.gov.step = s.gov.step ∧ t.boot = s.boot ∧ t.leaves = s.leaves ∧ t.mem = s.mem
      ∧ (emergencySample r = true → s.gov.emergency = false → t.gov.emergency = true ∧ t.gov.decided = none
          ∧ (s.boot.phase = .compute → s.gov.change = none → s.gov.step ≠ 3 →
              ∃ c, t.gov.change = some c ∧ c.target = 3 ∧ c.stage = (if s.gov.step < 3 then 1 else 0) ∧ c.cause = 6)
          ∧ (s.boot.phase = .compute → s.gov.change ≠ none → t.gov.change = s.gov.change ∧ t.gov.afterChange = true))
      ∧ (emergencySample r = false → s.gov.emergency = false → t.gov.emergency = false ∧ t.gov.change = s.gov.change
          ∧ t.gov.decided = s.gov.decided)
      ∧ (∀ t0, s.gov.calmSince = some t0 → s.gov.emergency = true → s.gov.change = none →
          r.crown.all (fun w => decide (f32Int w ≤ 100 * one149)) = true →
          r.hw.all (fun w => decide (f32Int w ≤ 102 * one149)) = true →
          t0 + odNat s 0x210004 * 1000 ≤ s.clk.us → t.gov.emergency = false))

/-- R604, R607, R611, R612: an evaluation by running firmware takes the newest readings and never moves the step itself; with
the clock adaptation automatic and the power cap off, a crown sensor above 100 °C decides for the next slower step. -/
def GovernorEvaluations : Prop :=
  ∀ (s : State) (r : Readings), identityOk s = true → 4 ≤ phaseCode s.boot.phase → s.gov.samples.getLast? = some r →
    Completes .governorEvaluation s (fun t =>
      t.gov.crown = r.crown ∧ t.gov.hw = r.hw ∧ t.gov.rails = r.rails ∧ t.gov.step = s.gov.step
      ∧ t.gov.change = s.gov.change ∧ t.gov.emergency = s.gov.emergency
      ∧ (s.boot.phase ≠ .compute ∨ s.gov.emergency = true → t.gov.decided = s.gov.decided)
      ∧ (s.boot.phase = .compute → s.gov.emergency = false → s.gov.decided = none → s.gov.change = none →
          govMode s 0 = 2 → govMode s 4 = 0 → s.gov.step < 3 → bit (odNat s 0x210002) (s.gov.step + 1) = true →
          anyAbove r.crown 100 = true →
          t.gov.decided = some { target := s.gov.step + 1, old := s.gov.step, unit := 0, cause := 3
                                 measured := hottest r.crown, limit := f32Nat 100, stage := 0 }
          ∧ t.gov.decidedAt = s.clk.us)
      ∧ t.leaves = s.leaves ∧ t.mem = s.mem ∧ t.fuse = s.fuse)

/-- The governor's samples and its evaluation of them. -/
def Obligations.GovernorOperation : Prop := SensorSamples ∧ GovernorEvaluations

/-! ## Edge links -/

/-- R36, R441, R466, R468, R471: the end of a port's training, the retry of an ABSENT port, modules that leave and return. -/
def LinkTrainingResults : Prop :=
  (∀ (s : State) (port : Nat) (modules : BitVec 8) (lanes : List Byte), port < 4 → (portOf s port).state ≤ 1 →
    s.pins.porst = true → 4 ≤ phaseCode s.boot.phase →
    Completes (.portTrainingComplete port false modules lanes) s (fun t =>
      let u := setPort s port { portOf s port with state := 2, since := s.clk.us, absentRaised := true }
      if (portOf s port).absentRaised then t = u else Raised u t 0xA0 port 0 0))
  ∧ (∀ (s : State) (port : Nat) (modules : BitVec 8) (lanes : List Byte), port < 4 → (portOf s port).state ≤ 1 →
    s.pins.porst = true → 4 ≤ phaseCode s.boot.phase → (portOf s port).armed = false →
    Completes (.portTrainingComplete port true modules lanes) s (fun t =>
      let up := modules &&& ~~~listedModules s port
      (portOf t port).modules = up ∧ (portOf t port).state = (if up = 0 then 6 else 3) ∧ (portOf t port).since = s.clk.us
      ∧ (∀ m, m < 8 → modules.getLsbD m = false → (listedModules s port).getLsbD m = false →
          hasDefect t 7 (8 * port + m) = true)
      ∧ (∀ q, q ≠ port → portOf t q = portOf s q) ∧ t.leaves = s.leaves ∧ t.mem = s.mem))
  ∧ (∀ (s : State) (port : Nat), port < 4 → s.pins.porst = true → (portOf s port).state = 2 →
    (portOf s port).since + 100000 ≤ s.clk.us →
    Completes (.linkTrainingRetry port) s (fun t =>
      t = setPort s port { portOf s port with state := 1, since := s.clk.us }))
  ∧ (∀ (s : State) (port mod : Nat), port < 4 → mod < 8 → s.pins.porst = true →
    (portOf s port).modules.getLsbD mod = true →
    Completes (.moduleFailure port mod) s (fun t =>
      (∀ m, m < 8 → (portOf t port).modules.getLsbD m = ((portOf s port).modules.getLsbD m && decide (m ≠ mod)))
      ∧ hasDefect t 7 (8 * port + mod) = true
      ∧ (portOf t port).state = (if (portOf t port).modules = 0
          ∧ ((portOf s port).state = 3 ∨ (portOf s port).state = 4 ∨ (portOf s port).state = 5) then 6 else (portOf s port).state)
      ∧ (∀ q, q ≠ port → portOf t q = portOf s q) ∧ t.leaves = s.leaves ∧ t.mem = s.mem))
  ∧ (∀ (s : State) (port mod : Nat) (lanes : Byte), port < 4 → mod < 8 →
    mget false s.gov.retraining (8 * port + mod) = true →
    Completes (.moduleRetrained port mod true lanes) s (fun t =>
      mget false t.gov.retraining (8 * port + mod) = false ∧ mget 0 t.links.lanes (8 * port + mod) = lanes
      ∧ (∀ m, m < 8 → (portOf t port).modules.getLsbD m = ((portOf s port).modules.getLsbD m || decide (m = mod)))
      ∧ (portOf t port).state = (portOf s port).state ∧ t.leaves = s.leaves ∧ t.mem = s.mem ∧ t.mram = s.mram)
    ∧ Completes (.moduleRetrained port mod false lanes) s (fun t =>
      mget false t.gov.retraining (8 * port + mod) = false ∧ hasDefect t 7 (8 * port + mod) = true
      ∧ t.leaves = s.leaves ∧ t.mem = s.mem))

/-- R452, R466 to R468: a LINK_PARAM before arming is held unchecked; on an armed port it is checked on arrival: the credits
it advertises are taken and the port opens, or the port enters MISMATCH and reports the data slot. -/
def LinkParamOpensPort : Prop :=
  ∀ (s : State) (port : Nat) (q : SPkt), port < 4 → pOp q = 0x0B → badHeader q = false → (pVc q = 0 ∨ pVc q = 2) →
    (portOf s port).state = 3 → (portOf s port).lpOk = false → (portOf s port).lpRx = none →
    ((portOf s port).armed = false → Completes (.linkParam port q) s (fun t =>
      t = setPort s port { portOf s port with lpRx := some q }))
    ∧ ((portOf s port).armed = true → linkParamOk s port (q.data.headD 0) = true →
      Completes (.linkParam port q) s (fun t =>
        (portOf t port).state = 4 ∧ (portOf t port).lpOk = true ∧ (portOf t port).lpSent = true
        ∧ (∀ k, k < 10 → mget 0 (portOf t port).credits k = 16 * fld (q.data.headD 0).toNat (8 * k) 8)
        ∧ (portOf t port).since = s.clk.us
        ∧ t.links.router = s.links.router ++ (portOf s port).buf.map (fun w => (port, w)) ∧ (portOf t port).buf = []
        ∧ t.links.out = s.links.out ++ (if (portOf s port).lpSent then [] else
            [(port, lowestModule (portOf s port), mkPkt 0 (chipId s) 0 0 false 0x0B 0 [linkParamSlot s port])])
        ∧ (∀ r, r ≠ port → portOf t r = portOf s r) ∧ t.leaves = s.leaves ∧ t.mem = s.mem))
    ∧ ((portOf s port).armed = true → linkParamOk s port (q.data.headD 0) = false →
      Completes (.linkParam port q) s (fun t =>
        (portOf t port).state = 7 ∧ (portOf t port).buf = [] ∧ (portOf t port).partials = [] ∧ (portOf t port).outSlots = []
        ∧ t.links.router = s.links.router ∧ Entered s t 0xA3 port 0 (q.data.headD 0).toNat
        ∧ (∀ r, r ≠ port → portOf t r = portOf s r) ∧ t.leaves = s.leaves ∧ t.mem = s.mem))

/-- R442 to R444, R450, R473: a flit's credits are added by class and its retries counted; one with a nonzero reserved field
is a malformed flit; a packet whole in slot 1 of a flit stands at the ring router of an OPEN port. -/
def FlitsAreReceived : Prop :=
  ∀ (s : State) (port mod : Nat) (flit : Flit), port < 4 → s.pins.porst = true →
    (portOf s port).modules.getLsbD mod = true → mget [] (portOf s port).partials mod = [] →
    mget (0, 0) (portOf s port).dropping mod = (0, 0) →
    let cr (k : Nat) : Nat := mget 0 (portOf s port).credits k + fld flit.ctl.toNat (28 + 8 * k) 8
    (∀ retries, ((portOf s port).state = 3 ∨ (portOf s port).state = 4 ∨ (portOf s port).state = 5) →
      fld flit.ctl.toNat 0 28 = 0 → fld flit.ctl.toNat 108 20 = 0 → (∀ i, i < 14 → flit.slots.getD i 0 = 0) →
      Completes (.flitReceive port mod retries flit) s (fun t =>
        (∀ k, k < 10 → mget 0 (portOf t port).credits k = cr k)
        ∧ mget 0 t.links.retries (8 * port + mod)
            = (if retries = 0 then mget 0 s.links.retries (8 * port + mod)
               else sat32 (mget 0 s.links.retries (8 * port + mod) + retries))
        ∧ (portOf t port).state = (portOf s port).state ∧ t.links.router = s.links.router ∧ t.links.out = s.links.out
        ∧ (∀ q, q ≠ port → portOf t q = portOf s q) ∧ t.leaves = s.leaves ∧ t.mem = s.mem))
    ∧ ((portOf s port).state = 4 → fld flit.ctl.toNat 108 20 ≠ 0 →
      Completes (.flitReceive port mod 0 flit) s (fun t =>
        mget 0 t.links.violations (16 * port + 1) = sat32 (mget 0 s.links.violations (16 * port + 1) + 1)
        ∧ t.links.router = s.links.router ∧ t.leaves = s.leaves ∧ t.mem = s.mem))
    ∧ ((portOf s port).state = 4 → fld flit.ctl.toNat 0 28 = 1 + 2 ^ 14 → fld flit.ctl.toNat 108 20 = 0 →
      (∀ i, i < 14 → i ≠ 0 → flit.slots.getD i 0 = 0) →
      let q : SPkt := { hdr := flit.slots.getD 0 0, data := [] }
      pLen q = 0 → pOp q ≠ 0x0B → packetCode s port q = 0 →
      Completes (.flitReceive port mod 0 flit) s (fun t =>
        t.links.router = s.links.router ++ [(port, q)]
        ∧ mget 0 (portOf t port).used (pClass q) = mget 0 (portOf s port).used (pClass q) + 1
        ∧ (∀ k, k < 10 → mget 0 (portOf t port).credits k = cr k)
        ∧ t.leaves = s.leaves ∧ t.mem = s.mem))

/-- R443, R444, R450, R451: a module's flit in its nanosecond carries the first fourteen slots that wait for it, marked VALID
and at a packet's header START, and on the lowest working module the credits that are due, at most 255 a class; without
either no flit goes. -/
def FlitsAreSent : Prop :=
  ∀ (s : State) (p m : Nat), p < 4 → m < 8 → (portOf s p).modules.getLsbD m = true →
    ((portOf s p).state = 3 ∨ (portOf s p).state = 4 ∨ (portOf s p).state = 5) →
    let slots := (mget [] (portOf s p).outSlots m).take 14
    let credit (k : Nat) : Nat := if m = lowestModule (portOf s p) then creditDue (portOf s p) k else 0
    let t := sendFlit s p m
    (slots = [] → (∀ k, k < 10 → credit k = 0) → t = s)
    ∧ ((slots ≠ [] ∨ ∃ k, k < 10 ∧ credit k ≠ 0) →
        ∃ f : Flit, t.links.flits = s.links.flits ++ [(p, m, f)]
          ∧ (∀ i, i < 14 → f.ctl.getLsbD i = decide (i < slots.length)
              ∧ f.ctl.getLsbD (14 + i) = (slots.getD i (false, 0)).1 ∧ f.slots.getD i 0 = (slots.getD i (false, 0)).2)
          ∧ (∀ k, k < 10 → fld f.ctl.toNat (28 + 8 * k) 8 = credit k ∧ mget 0 (portOf t p).carried k = mget 0 (portOf s p).carried k + credit k)
          ∧ fld f.ctl.toNat 108 20 = 0
          ∧ mget [] (portOf t p).outSlots m = (mget [] (portOf s p).outSlots m).drop 14
          ∧ (∀ q, q ≠ p → portOf t q = portOf s q) ∧ t.leaves = s.leaves ∧ t.mem = s.mem ∧ t.links.router = s.links.router)

/-- R450, R456, R460 to R462, R472: the router's oldest packet that can go leaves through its route's port with one hop less,
taking a credit for each slot, or reaches its target in this chiplet. -/
def PacketsAreForwarded : Prop :=
  (∀ (s : State) (i p m : Nat) (q w : SPkt), s.pins.porst = true → s.links.router.find? (canForward s) = some (i, q) →
    fwdState s (i, q) = .goes p m w →
    Completes .packetForward s (fun t =>
      w = leaving s i p q ∧ (portOf s p).state = 4 ∧ 1 ≤ hopsLeft s i q ∧ pSlots w ≤ mget 0 (portOf s p).credits (pClass w)
      ∧ t.links.out = s.links.out ++ [(p, m, w)]
      ∧ mget [] (portOf t p).outSlots m = mget [] (portOf s p).outSlots m ++ (true, w.hdr) :: w.data.map (fun d => (false, d))
      ∧ t.links.router = s.links.router.erase (i, q)
      ∧ mget 0 (portOf t p).credits (pClass w) = mget 0 (portOf s p).credits (pClass w) - pSlots w
      ∧ t.net = s.net ∧ t.coll = s.coll ∧ t.leaves = s.leaves ∧ t.mem = s.mem))
  ∧ (∀ (s : State) (i : Nat) (q : SPkt), s.pins.porst = true → s.links.router.find? (canForward s) = some (i, q) →
    pDest q = chipId s →
    (pOp q ≤ 8 → Completes .packetForward s (fun t =>
      t.net.msgs = s.net.msgs ++ [.req (BitVec.ofNat 5 (pOp q)) (linkReq s i q)]
      ∧ t.links.router = s.links.router.erase (i, q) ∧ t.links.out = s.links.out ∧ t.leaves = s.leaves ∧ t.mem = s.mem))
    ∧ (pOp q = 9 ∨ pOp q = 0x14 → Completes .packetForward s (fun t =>
      t.coll.inbox = s.coll.inbox ++ [q] ∧ t.links.router = s.links.router.erase (i, q) ∧ t.links.out = s.links.out
      ∧ t.net = s.net ∧ t.leaves = s.leaves ∧ t.mem = s.mem))
    ∧ (∀ ep tag, 0x10 ≤ pOp q → pOp q ≤ 0x12 → mget none s.net.xtags (pTag q) = some (ep, tag) →
      Completes .packetForward s (fun t =>
        t.net.resps = s.net.resps ++ [linkResp s i ep tag q] ∧ mget none t.net.xtags (pTag q) = none
        ∧ t.links.router = s.links.router.erase (i, q) ∧ t.links.out = s.links.out ∧ t.leaves = s.leaves ∧ t.mem = s.mem)))

/-- Ports train and open. -/
def Obligations.PortTrainingAndOpening : Prop := LinkTrainingResults ∧ LinkParamOpensPort

/-- Flits come in at the ports and go out, and packets go on from the ring router. -/
def Obligations.PacketTransport : Prop := FlitsAreReceived ∧ FlitsAreSent ∧ PacketsAreForwarded

/-! ## Requests at their targets -/

/-- A read's row: constructor, operation, bytes. -/
structure ReadRow where
  op : Req → Instr
  code : Nat
  n : Nat

def ReadRows (e : ReadRow) : Prop := e ∈ [⟨.read4, 0, 4⟩, ⟨.read64, 1, 64⟩]

/-- A write's row: constructor, operation, data flits, bytes. -/
structure WriteRow where
  op : Req → Instr
  code : Nat
  len : Nat
  n : Nat

def WriteRows (e : WriteRow) : Prop := e ∈ [⟨.write4, 2, 1, 4⟩, ⟨.write64, 3, 4, 64⟩]

/-- R47, R48, R119, R157, R374, R395, R423, R448: a read of heartwood or scratchpad answers the bytes that stand there when its
access is made, and changes no byte; a read that finds a line uncorrectable answers NAK DATA_ERROR. -/
def Obligations.ReadRequestResults : Prop :=
  (∀ e, ReadRows e → ∀ (s : State) (r : Req), served s e.code r 0 e.n false false = true →
    let p := atPort s e.code r e.n false
    (∀ c, soundHeartwood s c (offOf r.addr) e.n → r.check.headD .clean = .clean →
      Completes (e.op r) s (fun t => Answered s t r 0x11 0 (wordsOfBytes (readBytes s.mem (offOf r.addr) e.n))
        ∧ SameMem s t ∧ t.leaves = s.leaves ∧ t.hwPoison = s.hwPoison
        ∧ mget 0 (colOf t c).counters 0 = sat32 (mget 0 (colOf s c).counters 0 + 1)
        ∧ mget 0 (colOf t c).counters 3 = sat32 (mget 0 (colOf s c).counters 3 + 1)
        ∧ ∀ k, k ≠ c → colOf t k = colOf s k))
    ∧ (∀ c, placeOf (offOf r.addr) = .heartwood c → r.check.headD .clean = .uncorrectable → r.via = none →
      Completes (e.op r) s (fun t => Answered s t r 0x12 9 [] ∧ SameMem s t ∧ t.leaves = s.leaves
        ∧ mget 0 t.net.refusals 9 = sat32 (mget 0 s.net.refusals 9 + 1)))
    ∧ (∀ l, soundSpad p l (offOf r.addr) e.n →
      Completes (e.op r) s (fun t => Answered s t r 0x11 0 (wordsOfBytes (readBytes p.mem (offOf r.addr) e.n))
        ∧ SameMem p t ∧ t.leaves = p.leaves ∧ t.columns = s.columns)))
  ∧ (∀ (s : State) (r : Req), served256 s 7 r 0 false = true → r.check = [] →
    let p := atPort s 7 r 256 false
    (∀ c, soundHeartwood s c (offOf r.addr) 256 →
      Completes (.read256 r) s (fun t => Answered s t r 0x11 0 (wordsOfBytes (readBytes s.mem (offOf r.addr) 256))
        ∧ SameMem s t ∧ t.leaves = s.leaves))
    ∧ (∀ l, soundSpad p l (offOf r.addr) 256 →
      Completes (.read256 r) s (fun t => Answered s t r 0x11 0 (wordsOfBytes (readBytes p.mem (offOf r.addr) 256))
        ∧ SameMem p t ∧ t.columns = s.columns)))

/-- R119, R377, R380, R421, R423, R448: a write puts the request's bytes at its address and nowhere else, adds its byte count to
the accounting counter it names, and is acknowledged. -/
def Obligations.WriteRequestResults : Prop :=
  let Wrote (s p t : State) (r : Req) (n : Nat) : Prop :=
    WroteBytes p t (offOf r.addr) (reqBytes r (n / 4)) ∧ Answered s t r 0x10 0 []
      ∧ (∀ g, gcGet t g = if r.acctEn = true ∧ g = r.acctGc.toNat then (incCounter (gcGet s g) n).1 else gcGet s g)
      ∧ ∀ k, (leafOf t k).sregs = (leafOf s k).sregs ∧ (leafOf t k).vregs = (leafOf s k).vregs
          ∧ (leafOf t k).run = (leafOf s k).run ∧ (leafOf t k).pc = (leafOf s k).pc
  (∀ e, WriteRows e → ∀ (s : State) (r : Req), served s e.code r e.len e.n false true = true →
    let p := atPort s e.code r e.n true
    (∀ c, soundHeartwood s c (offOf r.addr) e.n → r.check.headD .clean = .clean → wbPoison r = false →
      Completes (e.op r) s (fun t => Wrote s s t r e.n))
    ∧ (∀ l, soundSpad p l (offOf r.addr) e.n → Completes (e.op r) s (fun t => Wrote s p t r e.n)))
  ∧ (∀ (s : State) (r : Req), served256 s 8 r 16 true = true →
    let p := atPort s 8 r 256 true
    (∀ c, soundHeartwood s c (offOf r.addr) 256 → Completes (.write256 r) s (fun t => Wrote s s t r 256))
    ∧ (∀ l, soundSpad p l (offOf r.addr) 256 → Completes (.write256 r) s (fun t => Wrote s p t r 256)))

/-- R370, R373 to R375: CREAD answers a counter's value; CINC adds to it, up to its greatest value, and is acknowledged. -/
def Obligations.CounterRequestResults : Prop :=
  (∀ (s : State) (r : Req), served s 4 r 0 8 true false = true →
    (∀ g, placeOf (offOf r.addr) = .gc g → Completes (.cread r) s (fun t =>
      Answered s t r 0x11 0 (wordsOfBytes (leBytes (gcGet s g).toNat 8)) ∧ SameMem s t ∧ t.hub = s.hub ∧ t.leaves = s.leaves))
    ∧ (∀ l k, placeOf (offOf r.addr) = .lc l k → Completes (.cread r) s (fun t =>
      Answered s t r 0x11 0 (wordsOfBytes (leBytes (lcGet s l k).toNat 8)) ∧ SameMem s t ∧ t.hub = s.hub ∧ t.leaves = s.leaves)))
  ∧ (∀ (s : State) (r : Req), served s 5 r 1 8 true true = true →
    let n := (r.data.getD 0 0).toNat
    (∀ g, placeOf (offOf r.addr) = .gc g → Completes (.cinc r) s (fun t =>
      Answered s t r 0x10 0 [] ∧ (gcGet t g).toNat = min ((gcGet s g).toNat + n) (2 ^ 64 - 1)
      ∧ (∀ k, k ≠ g → gcGet t k = gcGet s k) ∧ SameMem s t ∧ t.columns = s.columns))
    ∧ (∀ l k, placeOf (offOf r.addr) = .lc l k → Completes (.cinc r) s (fun t =>
      Answered s t r 0x10 0 [] ∧ (lcGet t l k).toNat = min ((lcGet s l k).toNat + n) (2 ^ 64 - 1)
      ∧ (∀ j, j ≠ k → lcGet t l j = lcGet s l j) ∧ (∀ m, m ≠ l → leafOf t m = leafOf s m) ∧ SameMem s t ∧ t.hub = s.hub)))

/-- A request row of one access: constructor, operation, data flits, bytes, counter operation, write. -/
structure AccessRow where
  op : Req → Instr
  code : Nat
  len : Nat
  n : Nat
  ctr : Bool
  write : Bool

def AccessRows (e : AccessRow) : Prop := e ∈
  [ ⟨.read4, 0, 0, 4, false, false⟩, ⟨.read64, 1, 0, 64, false, false⟩, ⟨.write4, 2, 1, 4, false, true⟩,
    ⟨.write64, 3, 4, 64, false, true⟩, ⟨.cread, 4, 0, 8, true, false⟩, ⟨.cinc, 5, 1, 8, true, true⟩ ]

/-- The request has been refused with `code`: answered, counted, reported with ADDR as it was delivered; no byte of memory and no
counter has changed (R355, R369). -/
def RefusedWith (s t : State) (r : Req) (code : Nat) : Prop :=
  Answered s t r 0x12 code [] ∧ SameMem s t ∧ t.hub = s.hub
    ∧ mget 0 t.net.refusals code = sat32 (mget 0 s.net.refusals code + 1)
    ∧ Entered s t 0x27 r.src code ((gaddr r.origin.toNat (offOf r.addr)).toNat + r.origin.toNat * 2 ^ 64)
    ∧ ∀ k, (leafOf t k).lcs = (leafOf s k).lcs ∧ (leafOf t k).sregs = (leafOf s k).sregs

/-- R46, R47, R139, R141, R142, R355 to R357, R360 to R362, R369, R413, R414: what a router or a target refuses it answers with NAK and
the code of the first condition that fails, counts and reports. A request behind an earlier one of its source and destination waits. A
DPOST request takes its place in the column's queue or is refused. -/
def Obligations.RequestRefusals : Prop :=
  (∀ e, AccessRows e → ∀ (s : State) (r : Req), r.via = none → overtakes s e.code r = false →
    let reaches : Prop := s.boot.phase ≠ .compute ∨ endpointOk s r.dst = true
    (∀ code, routeCode s r.src r.dst = some code → Completes (e.op r) s (fun t => RefusedWith s t r code))
    ∧ (routeCode s r.src r.dst = none →
      (badPacket r e.len = true → Completes (e.op r) s (fun t => RefusedWith s t r 0x0A))
      ∧ (badPacket r e.len = false → s.boot.phase = .compute → endpointOk s r.dst = false →
          Completes (e.op r) s (fun t => RefusedWith s t r 3))
      ∧ (∀ code, badPacket r e.len = false → reaches →
          accessCode s (offOf r.addr) e.n e.ctr e.write = some code → Completes (e.op r) s (fun t => RefusedWith s t r code))
      ∧ (∀ l, badPacket r e.len = false → reaches → accessCode s (offOf r.addr) e.n e.ctr e.write = none →
          placeOf (offOf r.addr) = .spad l → remoteHeld s (offOf r.addr) e.n e.write = false →
          windowAdmits s l (offOf r.addr % 0x40000) e.n e.write r.origin = false →
          Completes (e.op r) s (fun t => RefusedWith s t r 8
            ∧ mget 0 (leafOf t l).counters (if e.write then 5 else 6)
                = sat32 (mget 0 (leafOf s l).counters (if e.write then 5 else 6) + 1)))))
  ∧ (∀ e, AccessRows e → ∀ (s : State) (r : Req), overtakes s e.code r = true → Completes (e.op r) s (fun t =>
      SameMem s t ∧ t.hub = s.hub ∧ t.leaves = s.leaves ∧ t.columns = s.columns ∧ t.net.resps = s.net.resps
      ∧ t.links = s.links ∧ ∀ m ∈ s.net.msgs, m ∈ t.net.msgs))
  ∧ (∀ (s : State) (r : Req), overtakes s 6 r = false → admitCode s r 2 = none → dpostCode s r = none →
    let c := r.dst - 0x900
    let bits : BitVec 256 := BitVec.ofNat 256 (ofWords ((List.range 8).map (fun i => r.data.getD i 0)))
    let l := boughLeaf ((boughAt s c).getD 0) (dSpLeaf bits)
    let who : Poster := .net r.origin l
    let code := dmaRefusal s c who bits
    let es := dmaEntries bits (dBase who) (dOpId who (colOf s c).dseq)
    nextPost s (colOf s c) = none → (colOf s c).netAt ≠ s.clk.cclk + 1 → (colOf s c).queue.length < 16 →
    (code = none → es.length ≤ sbFree (leafOf s l)) →
    Completes (.dpostRequest r) s (fun t => Answered s t r 0x10 0 [] ∧ SameMem s t
      ∧ (colOf t c).queue = (colOf s c).queue ++
          [{ bits := bits, poster := who, at_ := s.clk.cclk, dseq := (colOf s c).dseq, refused := code }]
      ∧ (colOf t c).dseq = (colOf s c).dseq + 1
      ∧ (leafOf t l).sb = (leafOf s l).sb ++ (if code = none then es else [])
      ∧ mget 0 (colOf t c).counters 5
          = (if code = none then mget 0 (colOf s c).counters 5 else sat32 (mget 0 (colOf s c).counters 5 + 1))
      ∧ (∀ k, k ≠ c → colOf t k = colOf s k) ∧ ∀ k, k ≠ l → leafOf t k = leafOf s k))
  ∧ (∀ (s : State) (r : Req) (code : Nat), r.via = none → overtakes s 6 r = false →
    (admitCode s r 2 = some code ∨ (admitCode s r 2 = none ∧ dpostCode s r = some code)) →
    Completes (.dpostRequest r) s (fun t => RefusedWith s t r code ∧ t.leaves = s.leaves ∧ t.columns = s.columns))

/-- R371 to R374, R383, R387, R388: an increment at the hub adds to its counter, satisfies the watches that the value meets
and acknowledges in the same step; a combiner sends the sum of its arrivals on, and the hub's becomes an increment. -/
def Obligations.HubIncrements : Prop :=
  (∀ (s : State) (m : IncMsg), s.boot.phase = .compute →
    Completes (.remoteIncrement m) s (fun t =>
      (gcGet t m.gc).toNat = min ((gcGet s m.gc).toNat + m.amount) (2 ^ 64 - 1)
      ∧ (∀ g, g ≠ m.gc → gcGet t g = gcGet s g)
      ∧ t.net.msgs = s.net.msgs.erase (.inc m) ∧ t.net.resps = s.net.resps
      ∧ (∀ l w, (leafOf s l).watch = some w → w.1 = m.gc → w.2.toNat ≤ (gcGet t m.gc).toNat →
          (leafOf t l).watch = none ∧ (leafOf t l).fromHub = (leafOf s l).fromHub ++ [.satisfy (gcGet t m.gc)])
      ∧ (∀ l w, (leafOf s l).watch = some w → (w.1 ≠ m.gc ∨ (gcGet t m.gc).toNat < w.2.toNat) →
          (leafOf t l).watch = some w ∧ (leafOf t l).fromHub = (leafOf s l).fromHub)
      ∧ (∀ a ∈ m.acks, ∀ r ∈ (leafOf t a.1).rem, r.tag ≠ a.2)
      ∧ (∀ l, (leafOf t l).sregs = (leafOf s l).sregs ∧ (leafOf t l).lcs = (leafOf s l).lcs) ∧ SameMem s t))
  ∧ (∀ (s : State) (node gc : Nat), s.boot.phase = .compute → arrivals s node gc ≠ [] →
    let sum := ((arrivals s node gc).map (fun c => c.sum)).sum
    let acks := (arrivals s node gc).flatMap (fun c => c.acks)
    (160 ≤ node → Completes (.barrierCombine node gc) s (fun t =>
      t.net.msgs = s.net.msgs ++ [.inc { gc := gc, amount := sum, acks := acks }]
      ∧ (∀ c ∈ t.hub.comb, ¬(c.node = node ∧ c.gc = gc)) ∧ t.hub.gcs = s.hub.gcs ∧ t.leaves = s.leaves ∧ t.mem = s.mem))
    ∧ (node < 160 → Completes (.barrierCombine node gc) s (fun t =>
      let up := if node < 144 then 144 + clockRegion (homeCol s node) else 160
      { node := up, gc := gc, sum := sum, acks := acks } ∈ t.hub.comb
      ∧ (up ≠ node → arrivals t node gc = []) ∧ t.hub.gcs = s.hub.gcs ∧ t.leaves = s.leaves ∧ t.mem = s.mem)))

/-! ## Responses, waits and the scratchpad's own events -/

/-- A response that reaches its endpoint: none of its source and endpoint stands before it (R362), the routers bring it there (R360),
and it is well formed (R356). -/
def arrives (s : State) (op : Nat) (r : Resp) : Bool :=
  !respWaits s op r && (routeCode s r.src r.ep).isNone && !badResp op r

/-- The response operations with the command that brings each. -/
def RespRows (e : (Resp → Instr) × Nat) : Prop := e ∈ [(.ack, 0x10), (.data, 0x11), (.nak, 0x12)]

/-- R96, R98, R356, R360, R362, R365, R367, R422, R475: a response ends what its requester waits for: an acknowledged operation leaves
rem_out, a read writes its destination, a refusal is counted with its code or faults the read; one that nobody awaits, that is
malformed or that no router brings to its endpoint is counted and discarded; one behind an earlier waits. A request out for its timeout
ends as one refused with code 0x0C. -/
def Obligations.ResponsesReachRequesters : Prop :=
  (∀ e, RespRows e → ∀ (s : State) (r : Resp), r.ep ≠ 0xA40 →
    (respWaits s e.2 r = true → Completes (e.1 r) s (fun t =>
      t.leaves = s.leaves ∧ t.columns = s.columns ∧ t.mem = s.mem ∧ ∀ m ∈ s.net.resps, m ∈ t.net.resps))
    ∧ (respWaits s e.2 r = false → ((routeCode s r.src r.ep).isSome = true ∨ badResp e.2 r = true) → Completes (e.1 r) s (fun t =>
      t.net.resps = s.net.resps.eraseP (sameResp e.2 r) ∧ t.net.discards = sat32 (s.net.discards + 1)
      ∧ t.leaves = s.leaves ∧ t.columns = s.columns ∧ t.mem = s.mem)))
  ∧ (∀ (s : State) (r : Resp), arrives s 0x10 r = true →
    let taken (t : State) : Prop := t.net.resps = s.net.resps.eraseP (sameResp 0x10 r) ∧ SameMem s t
    (∀ o, r.ep < 0x900 → remOf (leafOf s r.ep) r.tag = some o → Completes (.ack r) s (fun t => taken t
      ∧ LeafBecame s t r.ep { leafOf s r.ep with rem := (leafOf s r.ep).rem.filter (fun q => q.tag ≠ r.tag) }))
    ∧ (r.ep < 0x900 → remOf (leafOf s r.ep) r.tag = none → Completes (.ack r) s (fun t => taken t
      ∧ t.net.discards = sat32 (s.net.discards + 1) ∧ t.leaves = s.leaves))
    ∧ (∀ p, 0x900 ≤ r.ep → pieceOf (colOf s (r.ep - 0x900)) r.tag = some p → Completes (.ack r) s (fun t =>
      (∀ q ∈ (colOf t (r.ep - 0x900)).pieces, q.tag ≠ r.tag) ∧ ∀ k, k ≠ r.ep - 0x900 → colOf t k = colOf s k)))
  ∧ (∀ (s : State) (r : Resp) (p : PendLoad), arrives s 0x11 r = true → r.ep < 0x900 →
    loadOf (leafOf s r.ep) r.tag = some p → p.dropped = false →
    let c := leafNow s (leafOf s r.ep)
    Completes (.data r) s (fun t =>
      t.net.resps = s.net.resps.eraseP (sameResp 0x11 r) ∧ SameMem s t
      ∧ (p.pair = false → HoldsS (leafOf t r.ep) p.d (r.data.getD 0 0) c 1)
      ∧ (p.pair = true → HoldsS (leafOf t r.ep) p.d (r.data.getD 0 0) c 1
          ∧ HoldsS (leafOf t r.ep) (p.d + 1) (r.data.getD 1 0) c 1)
      ∧ (∀ n, n ≠ p.d → n ≠ p.d + 1 → sreg (leafOf t r.ep) n = sreg (leafOf s r.ep) n)
      ∧ LeafBecame s t r.ep { leafOf s r.ep with
          sregs := (leafOf t r.ep).sregs, readyAt := (leafOf t r.ep).readyAt,
          loads := (leafOf s r.ep).loads.filter (fun q => q.tag ≠ r.tag) }))
  ∧ (∀ (s : State) (r : Resp), arrives s 0x12 r = true → r.ep < 0x900 →
    (∀ o, remOf (leafOf s r.ep) r.tag = some o → o.wb = false → Completes (.nak r) s (fun t =>
      t.net.resps = s.net.resps.eraseP (sameResp 0x12 r) ∧ SameMem s t
      ∧ LeafBecame s t r.ep { leafOf s r.ep with
          rem := (leafOf s r.ep).rem.filter (fun q => q.tag ≠ r.tag)
          remRefused := sat32 ((leafOf s r.ep).remRefused + 1), remLast := BitVec.ofNat 8 (seenCode r) }))
    ∧ (∀ p, remOf (leafOf s r.ep) r.tag = none → loadOf (leafOf s r.ep) r.tag = some p → p.dropped = false →
      (leafOf s r.ep).run = .running → Completes (.nak r) s (fun t =>
        (leafOf t r.ep).run = .faulted ∧ (leafOf t r.ep).faultCode = 0x0F
        ∧ (leafOf t r.ep).faultPc = BitVec.ofNat 32 p.pc ∧ SameMem s t ∧ ∀ k, k ≠ r.ep → leafOf t k = leafOf s k)))
  ∧ (∀ (s : State) (ep tag : Nat) (o : RemOp), ep < 0x900 → remOf (leafOf s ep) (BitVec.ofNat 15 tag) = some o →
    o.wb = false → o.timeout ≠ 0 → o.sentAt + o.timeout ≤ s.clk.cclk →
    (∀ h ∈ (leafOf s ep).heldSends, msgTag h.msg ≠ BitVec.ofNat 15 tag) →
    Completes (.responseTimeout ep tag) s (fun t =>
      LeafBecame s t ep { leafOf s ep with
        rem := (leafOf s ep).rem.filter (fun q => q.tag ≠ o.tag)
        remRefused := sat32 ((leafOf s ep).remRefused + 1), remLast := 0x0C }
      ∧ mget 0 t.net.refusals 0x0C = sat32 (mget 0 s.net.refusals 0x0C + 1)
      ∧ Entered s t 0x27 ep 0x0C (o.addr.toNat + (originId s).toNat * 2 ^ 64) ∧ SameMem s t))

/-- R95, R144, R367, R378, R382 to R386: a watch is held at the hub until its counter reaches the value that it expects; SATISFY and
VALUE complete the wait with the counter's value in its pair and its outcome in its predicate; a wait whose deadline has
passed ends, or sends CANCEL; a held send leaves once the earlier writes that it awaits are acknowledged, and an increment once no
window change is under way. -/
def Obligations.GlobalWaits : Prop :=
  (∀ (s : State) (l g : Nat) (e : BitVec 64) (r : List SyncMsg), (leafOf s l).toHub = .watch g e :: r →
    Completes (.watch l) s (fun t => t = { s with leaves := t.leaves }
      ∧ ((gcGet s g).toNat < e.toNat → leafOf t l = { leafOf s l with toHub := r, watch := some (g, e) })
      ∧ (e.toNat ≤ (gcGet s g).toNat → leafOf t l = { leafOf s l with
          toHub := r, watch := none, fromHub := (leafOf s l).fromHub ++ [.satisfy (gcGet s g)] })))
  ∧ (∀ (s : State) (l g : Nat) (r : List SyncMsg), (leafOf s l).toHub = .cancel g :: r →
    Completes (.cancel l) s (fun t => t = { s with leaves := t.leaves } ∧ LeafBecame s t l { leafOf s l with
      toHub := r, watch := none, fromHub := (leafOf s l).fromHub ++ [.value (gcGet s g)] }))
  ∧ (∀ (s : State) (l : Nat) (w : Wait), (leafOf s l).wait = some w → w.pd < 8 →
    let c := leafNow s (leafOf s l)
    let ended (t : State) (y : DWord) (ok : Bool) : Prop := t = { s with leaves := t.leaves }
      ∧ (leafOf t l).wait = none ∧ HoldsPair (leafOf t l) w.d y c 1 ∧ pget (leafOf t l) w.pd = ok
      ∧ (leafOf t l).nextIssue = c + 1 ∧ (∀ n, n ≠ w.d → n ≠ w.d + 1 → sreg (leafOf t l) n = sreg (leafOf s l) n)
      ∧ (∀ n, n ≠ w.pd → pget (leafOf t l) n = pget (leafOf s l) n) ∧ ∀ k, k ≠ l → leafOf t k = leafOf s k
    (∀ v r, (leafOf s l).fromHub = .satisfy v :: r → w.loc = false → w.cancelling = false →
      (∀ d, w.deadline = some d → s.clk.cclk ≤ d) →
      Completes (.satisfy l) s (fun t => ended t v true ∧ (leafOf t l).fromHub = r))
    ∧ (∀ v r, (leafOf s l).fromHub = .value v :: r → w.cancelling = true →
      Completes (.value l) s (fun t => ended t v false ∧ (leafOf t l).fromHub = r))
    ∧ (∀ d, w.deadline = some d → w.loc = true → crownRuns s = true → d ≤ s.clk.cclk →
      Completes (.waitTimeout l) s (fun t =>
        ended t (lcSeen (leafOf s l) w.n) (w.expected.toNat ≤ (lcSeen (leafOf s l) w.n).toNat)))
    ∧ (∀ d, w.deadline = some d → w.loc = false → w.cancelling = false → crownRuns s = true → d < s.clk.cclk →
      Completes (.waitTimeout l) s (fun t => t = { s with leaves := t.leaves } ∧ LeafBecame s t l { leafOf s l with
        wait := some { w with cancelling := true }, toHub := (leafOf s l).toHub ++ [.cancel w.n] })))
  ∧ (∀ (s : State) (l : Nat) (h : HeldSend), crownRuns s = true → (leafOf s l).heldSends = [h] →
    let waits : Prop := (∃ chip, h.fence = some chip ∧ fenceHolds (leafOf s l) chip (msgTag h.msg) = true)
      ∨ (isIncr h.msg = true ∧ windowsLate s l = true)
    (waits → Completes (.gfincLeaves l) s (fun t =>
      LeafBecame s t l (leafOf s l) ∧ t.net = s.net ∧ t.links = s.links))
    ∧ (¬waits → Completes (.gfincLeaves l) s (fun t =>
      (leafOf t l).heldSends = [] ∧ (∀ k, k ≠ l → leafOf t k = leafOf s k) ∧ SameRegs (leafOf s l) (leafOf t l)
      ∧ (∀ q ∈ (leafOf t l).rem, q.tag = msgTag h.msg → q.sentAt = s.clk.cclk ∧ q.timeout = odNat s 0x304001)
      ∧ t.net = (launch s h.msg).net ∧ t.links = (launch s h.msg).links ∧ SameMem s t)))

/-- R119, R123, R125, R128, R131, R135, R151, R153, R161, R164, R166, R311, R315, R349: a granted drain writes its row's valid words
after the deposits that came before it; a deposit in its bank cycle and a landing row reach the scratchpad and no other byte; a
landing row of the cache or of a fenced leaf is dropped; entries whose last access is made are free; a fill gives the waiting load its
word. -/
def Obligations.ScratchpadEvents : Prop :=
  (∀ (s : State) (l row w : Nat) (g : Gather), crownRuns s = true → gatherOf (leafOf s l) row = some g → g.want = some w →
    w ≤ s.clk.cclk → bankWins (leafOf s l) s.clk.cclk (row % 16) 1 true w = true →
    let p := settle s l [row]
    Completes (.gatherDrain l row) s (fun t =>
      (∃ h, gatherOf (leafOf p l) row = some h ∧ ∀ i, i < 16 → spadWord t l (16 * row + i)
        = if h.valid.getLsbD i then lane h.data i else spadWord p l (16 * row + i))
      ∧ (∀ a, (a < spadOff l (64 * row) ∨ spadOff l (64 * row + 64) ≤ a) → readByte t.mem a = readByte s.mem a)
      ∧ gatherOf (leafOf t l) row = none
      ∧ (∀ h, h.row ≠ row → (h ∈ (leafOf t l).gather ↔ h ∈ (leafOf s l).gather))
      ∧ SameRegs (leafOf s l) (leafOf t l) ∧ ∀ k, k ≠ l → leafOf t k = leafOf s k))
  ∧ (∀ (s : State) (l : Nat) (d : Deposit), crownRuns s = true →
    (leafOf s l).deposits.find? (depositNow s.clk.cclk) = some d → d.word % 16 + d.vals.length ≤ 16 →
    let meets := (leafOf s l).sb.any (fun e => e.lo ≤ d.word + d.vals.length - 1 && d.word ≤ e.hi)
    Completes (.depositWrite l) s (fun t =>
      (d.settled = false → WroteWords s t l d.word d.vals ∧ ∀ h ∈ (leafOf t l).gather, h.row = d.word / 16 →
        ∀ i, i < d.vals.length → h.valid.getLsbD (d.word % 16 + i) = false)
      ∧ (d.settled = true → SameMem s t)
      ∧ (leafOf t l).deposits = (leafOf s l).deposits.map (fun k => if k = d then { k with settled := true, written := true } else k)
      ∧ (d.spill = false → meets = true → mget 0 (leafOf t l).counters 9 = sat32 (mget 0 (leafOf s l).counters 9 + 1)
          ∧ Entered s t 0x22 l 0 (4 * d.word))
      ∧ ((d.spill = true ∨ meets = false) → (leafOf t l).counters = (leafOf s l).counters ∧ t.log = s.log)
      ∧ SameRegs (leafOf s l) (leafOf t l) ∧ ∀ k, k ≠ l → leafOf t k = leafOf s k))
  ∧ (∀ (s : State) (l : Nat) (e : Landing) (r : List Landing), crownRuns s = true → (leafOf s l).landing = e :: r →
    e.data.length = 16 → (leafOf s l).landAt ≠ s.clk.cclk + 1 →
    (∀ d ∈ (leafOf s l).deposits, d.at_ + 2 = s.clk.cclk → d.word / 16 % 16 ≠ e.row % 16) →
    let counted (t : State) : Prop := ∀ k, lcGet t l k = if e.cnt = some k then (incCounter (lcGet s l k) 1).1 else lcGet s l k
    (leafFenced s l = false → e.row < usableRows (leafOf s l) → Completes (.canopyLandingWrite l) s (fun t =>
      WroteWords s t l (16 * e.row) e.data ∧ (leafOf t l).landing = r ∧ counted t ∧ ∀ k, k ≠ l → leafOf t k = leafOf s k))
    ∧ (leafFenced s l = false → usableRows (leafOf s l) ≤ e.row → Completes (.canopyLandingWrite l) s (fun t =>
      SameMem s t ∧ (leafOf t l).landing = r ∧ counted t ∧ (∀ k, k ≠ l → leafOf t k = leafOf s k)
      ∧ mget 0 (leafOf t l).counters 10 = sat32 (mget 0 (leafOf s l).counters 10 + 1)))
    ∧ (leafFenced s l = true → Completes (.canopyLandingWrite l) s (fun t =>
      SameMem s t ∧ (leafOf t l).landing = r ∧ (leafOf t l).lcs = (leafOf s l).lcs ∧ ∀ k, k ≠ l → leafOf t k = leafOf s k)))
  ∧ (∀ (s : State) (l : Nat), Completes (.scoreboardRelease l) s (fun t => t = { s with leaves := t.leaves }
      ∧ (leafOf t l).sb.length = (leafOf s l).sb.length
      ∧ (∀ (i : Nat) (e : SbEntry), (leafOf s l).sb[i]? = some e → (leafOf t l).sb[i]?
          = some ({ e with freed := e.freed || e.rel.any (fun c => c ≤ s.clk.cclk) } : SbEntry))
      ∧ LeafBecame s t l { leafOf s l with sb := (leafOf t l).sb, stall := (leafOf t l).stall }
      ∧ (leafOf t l).stall ≠ some .scoreboard))
  ∧ (∀ (s : State) (l c : Nat) (m : CMiss), crownRuns s = true → (leafOf s l).cache.misses = [m] → m.store = none →
    m.w < 16 → soundHeartwood s c (64 * m.line) 64 → accessCode s (64 * m.line) 64 false false = none →
    lineAhead s c (64 * m.line % 0x80000000 / 64) 64 = false → findLine (leafOf s l) m.line = none →
    (∀ q ∈ (leafOf s l).rem, q.wb = true → offOf q.addr / 64 ≠ m.line) →
    (askSlot s c (0x1000 + l) 0 [64 * m.line % 0x80000000 / 64] false).1 = true →
    Completes (.cacheFill l .clean) s (fun t =>
      let v : Word := BitVec.ofNat 32 (ofLe (readBytes s.mem (64 * m.line + 4 * m.w) 4))
      HoldsS (leafOf t l) m.d v (leafNow s (leafOf s l)) 1 ∧ (leafOf t l).cache.misses = []
      ∧ (∃ k, findLine (leafOf t l) m.line = some k ∧ k.dirty = false ∧ lane k.data m.w = v)
      ∧ (∀ n, n ≠ m.d → sreg (leafOf t l) n = sreg (leafOf s l) n) ∧ SameMem s t ∧ ∀ k, k ≠ l → leafOf t k = leafOf s k))

/-- R62, R102 to R104, R113, R195, R199, R265, R289, R301 to R303, R411, R597: a loaded leaf starts with every register zero at index 0,
or waits for its go; the first of its image starts the engines' OPSEQ again; a re-run returns the leaf to its shadow set eight cycles
after the error, outside a step or after three re-runs the leaf faults instead; a held member rejoins, counted when late. An error
after HALT faults too (log 128), and an error of a post that the step does not hold (log 129). -/
def Obligations.LeafStartsAndReRuns : Prop :=
  (∀ (s : State) (l : Nat), crownRuns s = true → leafOk s l = true → leafFenced s l = false →
    startHolds s (leafOf s l) = true →
    let r := (leafOf s l).image.record.getD 0
    (recStart r = 0 → Completes (.leafStart l) s (fun t =>
      let y := leafOf t l
      y.run = .running ∧ y.pc = 0 ∧ y.task = 0 ∧ y.startCycle = s.clk.cclk ∧ y.preds = 0 ∧ y.rm = 0 ∧ y.vstat = 0
      ∧ y.loops = [] ∧ y.step.shadow = none ∧ (∀ n, sreg y n = 0) ∧ (∀ n, vreg y n = zeroLanes) ∧ (∀ n, vmask y n = 0)
      ∧ (∀ n, agOf y n = {}) ∧ (∀ q, queueOf y q = {}) ∧ (∀ p, portToks y p = [])
      ∧ (∀ i, i < 4 → mget 0 y.tcode i = recTask r false i ∧ mget 0 y.tdata i = recTask r true i)
      ∧ y.cache.size = recCache r ∧ y.lcs = (leafOf s l).lcs ∧ y.istore = (leafOf s l).istore
      ∧ ((leafOf s l).image.load ≤ s.graft.started → t.graft = s.graft ∧ t.engines = s.engines)
      ∧ (s.graft.started < (leafOf s l).image.load → (∀ b, (engOf t b).opseq = 0)
          ∧ t.graft.seed = some (BitVec.ofNat 32 (odNat s 0x310001)) ∧ t.graft.roundDef = some (odNat s 0x310002))
      ∧ ((leafOf s l).cache.size = recCache r → SameMem s t) ∧ ∀ k, k ≠ l → leafOf t k = leafOf s k))
    ∧ (recStart r = 1 → Completes (.leafStart l) s (fun t => t = { s with leaves := t.leaves }
      ∧ LeafBecame s t l { leafOf s l with image := { (leafOf s l).image with waitGo := true } })))
  ∧ (∀ (s : State) (l : Nat) (e : ErrRec), crownRuns s = true → ((leafOf s l).run = .running ∨ (leafOf s l).run = .halted) →
    (leafOf s l).errs = [e] → e.at_ ≤ s.clk.cclk →
    let x := leafOf s l
    let faults (code : BitVec 8) : Prop := Completes (.reRun l) s (fun t => (leafOf t l).run = .faulted
      ∧ (leafOf t l).faultCode = code ∧ (leafOf t l).faultPc = BitVec.ofNat 32 e.pc ∧ SameMem s t)
    (∀ sh, x.step.shadow = some sh → x.reruns < 3 → stepOwns x e = true → Completes (.reRun l) s (fun t =>
      let y := leafOf t l
      y.sregs = sh.sregs ∧ y.vregs = sh.vregs ∧ y.preds = sh.preds ∧ y.masks = sh.masks ∧ y.loops = sh.loops
      ∧ y.ags = sh.ags ∧ y.rm = sh.rm ∧ y.vstat = sh.vstat ∧ y.pc = sh.pc ∧ y.nextIssue = e.at_ - x.sw.lag + 8 ∧ y.errs = []
      ∧ y.wait = none ∧ y.reruns = x.reruns + 1 ∧ y.rerunTotal = sat32 (x.rerunTotal + 1)
      ∧ (∀ q, queueOf y q = { queueOf x q with ret := 0 }) ∧ y.ports = x.ports ∧ y.lcs = x.lcs ∧ y.gather = x.gather
      ∧ y.step.issued = x.step.issued ∧ y.step.seen = 0 ∧ y.step.posts = x.step.posts
      ∧ y.sw.held = (x.sw.held || (x.sw.running && x.step.timedUse))
      ∧ t = { s with leaves := t.leaves } ∧ ∀ k, k ≠ l → leafOf t k = leafOf s k))
    ∧ (x.step.shadow = none → faults 0x0E)
    ∧ (x.step.shadow.isSome = true → stepOwns x e = false → faults 0x0E)
    ∧ (x.step.shadow.isSome = true → stepOwns x e = true → 3 ≤ x.reruns → x.step.parity = false → e.poison = true → faults 0x0D)
    ∧ (x.step.shadow.isSome = true → stepOwns x e = true → 3 ≤ x.reruns → (x.step.parity = true ∨ e.poison = false) → faults 0x0C))
  ∧ (∀ (s : State) (l : Nat) (r : Nat × Nat), crownRuns s = true → leafFenced s l = false → (leafOf s l).run = .running →
    (leafOf s l).sw.held = true → (leafOf s l).step.recorded = some r → r.1 ≤ (leafOf s l).step.insns →
    let x := leafOf s l
    let due := x.step.cycles + r.2
    max due x.nextIssue ≤ leafNow s x →
    Completes (.rejoin l) s (fun t =>
      (leafOf t l).sw.held = false ∧ (leafOf t l).step.recorded = none ∧ (leafOf t l).stall = none
      ∧ (leafOf t l).nextIssue = x.nextIssue ∧ (leafOf t l).sw.base = leafNow s x - x.sw.v
      ∧ (x.step.reached ≤ due → mget 0 (leafOf t l).netCounters 6 = mget 0 x.netCounters 6)
      ∧ (due < x.step.reached → mget 0 (leafOf t l).netCounters 6 = sat32 (mget 0 x.netCounters 6 + 1))
      ∧ SameMem s t))

/-! ## Bough engines and column controllers -/

/-- R118, R123, R151, R195, R222 to R225, R259 to R265: the queue head starts when the scoreboard and the banks let it, reads its operands,
loads the SR generator and gives up its operands' entries; an operand error is reported to its leaf. At its completion the results that
it computed stand in memory, its record in the status ring, and its counter has advanced; an operand error is counted and advances
no counter; a refused descriptor leaves its record, in the scratchpad too with STATUS_EN where R262 lets the engine write (log 119), and
advances the counter. When the start reads and the completion writes is the model's choice (log 130). -/
def Obligations.EngineOperation : Prop :=
  ∀ (s : State) (b : Nat) (q : EDesc) (r : List EDesc), engineRuns s b = true → (engOf s b).queue = q :: r →
    let e := engOf s b
    let others (t : State) : Prop := (∀ k, k ≠ b → engOf t k = engOf s k) ∧ t.columns = s.columns
      ∧ t.net = s.net ∧ t.hwPoison = s.hwPoison ∧ t.hub = s.hub ∧ ∀ l, SameRegs { leafOf s l with lcs := (leafOf t l).lcs } (leafOf t l)
    (let g := engineAsk s b false (readRows q.bits)
      let x := runEngine g.2 b q.bits
      let by_ := checkedBy s.clk.cclk ((List.range 16).foldl (fun m j => max m (readRows q.bits j).length) 0)
      q.refused = none → e.run = none → q.at_ < s.clk.cclk → engineHeld s b q = false → g.1 = true →
      Completes (.engineOpStart b) s (fun t =>
        let w : Word := seedInEffect s ^^^ BitVec.ofNat 32 (b * 0x9E3779B9) ^^^ BitVec.ofNat 32 (q.opseq * 0x85EBCA6B)
        engOf t b = { e with
          run := some { tiles := x.tiles, nan := x.load.nan, inf := x.load.inf, flush := x.load.flush, sats := x.sats,
                        par := x.r.par, poi := x.r.poi, readBy := by_ }
          sr := if w = 0 then 1 else w }
        ∧ t.mem = x.r.s.mem ∧ others t
        ∧ (∀ j, j < 16 → (leafOf t (boughLeaf b j)).sb = (sbDone (leafOf s (boughLeaf b j)) (eOpId q) (fun k => !k.w)
            (checkedBy s.clk.cclk (readRows q.bits j).length)).sb)
        ∧ (x.r.par = false → x.r.poi = false → ∀ l, (leafOf t l).errs = (leafOf s l).errs)
        ∧ ((x.r.par = true ∨ x.r.poi = true) → (leafOf s q.leaf).run = .running → (leafOf t q.leaf).errs
            = (leafOf s q.leaf).errs ++ [{ poison := !x.r.par, pc := q.pc, at_ := by_, post := some q.post }])))
    ∧ (∀ x, q.refused = none → e.run = some x → x.readBy ≤ s.clk.cclk →
      let a := engineAsk s b true (writeRows s b q)
      let w := storeTiles a.2 b q.bits e.sr x.tiles
      a.1 = true →
      (x.par = false → x.poi = false → eStatEn q.bits = false → Completes (.engineOpComplete b) s (fun t =>
        t.mem = w.1.mem ∧ (engOf t b).queue = r ∧ (engOf t b).run = none ∧ (engOf t b).last = 0
        ∧ (engOf t b).sr = w.2.x ∧ (engOf t b).opseq = e.opseq
        ∧ (∀ i, mget 0 (engOf t b).ring i
            = if i = q.opseq % 16 then BitVec.ofNat 256 (statusRecord q 0 x w.2.k) else mget 0 e.ring i)
        ∧ mget 0 (engOf t b).counters 0 = sat32 (mget 0 e.counters 0 + 1)
        ∧ (postCounted e q = false → LcAdvanced s t (boughLeaf b (eCntLeaf q.bits)) (eCnt q.bits))
        ∧ (postCounted e q = true → ∀ l k, lcGet t l k = lcGet s l k) ∧ others t))
      ∧ ((x.par = true ∨ x.poi = true) → Completes (.engineOpComplete b) s (fun t =>
        (engOf t b).queue = r ∧ (engOf t b).run = none ∧ (engOf t b).last = 1
        ∧ mget 0 (engOf t b).ring (q.opseq % 16) = BitVec.ofNat 256 (statusRecord q 1 x w.2.k)
        ∧ mget 0 (engOf t b).counters 3 = sat32 (mget 0 e.counters 3 + 1)
        ∧ (∀ l k, lcGet t l k = lcGet s l k) ∧ others t)))
    ∧ (∀ c, q.refused = some c → e.run = none → q.at_ < s.clk.cclk → (engineAsk s b true (writeRows s b q)).1 = true →
      Completes (.engineRefusedAtHead b) s (fun t =>
        let record := c * 2 ^ 28 + fld q.bits.toNat 0 2 * 2 ^ 26 + b2n q.replay * 2 ^ 25 + q.opseq % 2 ^ 24
        let l := boughLeaf b (eStatLeaf q.bits)
        let p := spadOff l (64 * eStatRow q.bits + 32 * eStatHalf q.bits)
        (engOf t b).queue = r ∧ (engOf t b).last = c
        ∧ ((eStatEn q.bits = false ∨ recordPlace s b q.bits = false) → SameMem s t)
        ∧ (eStatEn q.bits = true → recordPlace s b q.bits = true → ∀ a, readByte t.mem a
            = if p ≤ a ∧ a < p + 32 then (leBytes record 32).getD (a - p) 0 else readByte (settle s l [eStatRow q.bits]).mem a)
        ∧ (∀ i, mget 0 (engOf t b).ring i = if i = q.opseq % 16 then BitVec.ofNat 256 record else mget 0 e.ring i)
        ∧ (postCounted e q = false → LcAdvanced s t (boughLeaf b (eCntLeaf q.bits)) (eCnt q.bits)) ∧ others t))

/-- The descriptor adds two INT32 tiles into an INT32 tile (R221, R256). -/
def addsInt (d : BitVec 512) : Prop :=
  engineBadField d = false ∧ eStatEn d = false ∧ eOp d = 2 ∧ eASt d = 11 ∧ eAOp d = 11 ∧ eBSt d = 11 ∧ eBOp d = 11 ∧ eCFmt d = 11
    ∧ ∀ w ∈ engineRows d, w.2.2 < 4096

/-- R229, R230, R233, R256: TADD of two INT32 tiles reads the elements of both operand streams and adds each pair, limited to
the range of INT32; its completion stores each sum at the element's place of the result stream. -/
def Obligations.TileAddition : Prop :=
  ∀ (s : State) (b : Nat) (q : EDesc) (r : List EDesc), engineRuns s b = true → (engOf s b).queue = q :: r → q.refused = none →
    addsInt q.bits →
    let d := q.bits
    ((engOf s b).run = none → q.at_ < s.clk.cclk → engineHeld s b q = false → (engineAsk s b false (readRows d)).1 = true →
      Completes (.engineOpStart b) s (fun t => ∃ x tile, (engOf t b).run = some x ∧ x.tiles = [(0, tile)] ∧ tile.length = 64
        ∧ (∀ line ∈ tile, line.length = 64)
        ∧ ∀ p i, p < 256 → i < 16 →
          let n : Int := (streamWord t b (eALeaf d) (eALeaves d) (eARow d) p i).toInt
            + (streamWord t b (eBLeaf d) (eBLeaves d) (eBRow d) p i).toInt
          ((tile.getD (p / 4) []).getD (p % 4 * 16 + i) 0).toInt
            = (if n > 2 ^ 31 - 1 then 2 ^ 31 - 1 else if n < -(2 ^ 31) then -(2 ^ 31) else n)))
    ∧ (∀ x tile, (engOf s b).run = some x → x.readBy ≤ s.clk.cclk → (engineAsk s b true (writeRows s b q)).1 = true →
      x.tiles = [(0, tile)] → tile.length = 64 → (∀ line ∈ tile, line.length = 64) →
      Completes (.engineOpComplete b) s (fun t => ∀ p i, p < 256 → i < 16 →
        streamWord t b (eCLeaf d) (eCLeaves d) (eCRow d) p i = (tile.getD (p / 4) []).getD (p % 4 * 16 + i) 0))

/-- R148, R150, R151, R400, R401, R403, R405, R411 to R416, R419 to R421, R423 to R425, R427: a column takes the next post into its queue, or
marks it refused; it commits a line of its own column to the open slot or leaves the slot empty where the bank is in use; the oldest
line moves its bytes between heartwood and scratchpad; the completed descriptor leaves its record and advances its counter or
reports its error, as a refused one leaves its record. -/
def Obligations.DmaOperation : Prop :=
  ∀ (s : State) (c : Nat), colThere s c = true →
    let x := colOf s c
    let others (t : State) : Prop := (∀ k, k ≠ c → colOf t k = colOf s k) ∧ t.engines = s.engines
    (∀ d l n rp st pc td, nextPost s x = some d → x.queue.length < 16 → d.poster = .leaf l n rp st pc td →
      Completes (.dmaDescriptorAccept c) s (fun t =>
        (colOf t c).queue = x.queue ++ [{ d with dseq := x.dseq, refused := dmaRefusal s c d.poster d.bits }]
        ∧ (colOf t c).posts = x.posts.erase d ∧ (colOf t c).dseq = x.dseq + 1
        ∧ (leafOf t l).dposts = (leafOf s l).dposts - 1
        ∧ mget 0 (colOf t c).counters 5 = (if dmaRefusal s c d.poster d.bits = none then mget 0 x.counters 5
            else sat32 (mget 0 x.counters 5 + 1))
        ∧ (dmaRefusal s c d.poster d.bits ≠ none → ∀ e ∈ (leafOf t l).sb, e.op = dOpId d.poster x.dseq → e.rel.isSome = true)
        ∧ SameMem s t ∧ others t ∧ ∀ k, k ≠ l → leafOf t k = leafOf s k))
    ∧ (∀ d r co, colFenced s c = false → x.queue = d :: r → d.refused = none → d.begun = true → d.off < dElem d.bits →
      ownOffset s c (d.far + d.off) = some co →
      let k := openSlot s
      let n := min (64 - co % 64) (dElem d.bits - d.off)
      let l := dLeaf d.poster
      let b := elemSpad d.poster d.bits d.elem d.off
      let a := slotAAsk s l 3 (rowsOf b n) false
      let p := settle a.2 l (rowsOf b n)
      let line : LineOp := { dseq := d.dseq, elem := d.elem, off := co, len := n, spad := b, write := dDir d.bits, at_ := s.clk.cclk }
      ((slotFree s x = false ∨ floorClaim s c = true) → Completes (.lineLaunch c) s (fun t => t = s))
      ∧ (slotFree s x = true → floorClaim s c = false →
        (bankBusy x k (bankKey (co / 64)) = true → Completes (.lineLaunch c) s (fun t =>
          (colOf t c).lines = x.lines ∧ (colOf t c).slot = k ∧ (colOf t c).queue = x.queue
          ∧ mget 0 (colOf t c).counters 4 = sat32 (mget 0 x.counters 4 + 1) ∧ SameMem s t ∧ t.leaves = s.leaves ∧ others t))
        ∧ (bankBusy x k (bankKey (co / 64)) = false → dDir d.bits = false → Completes (.lineLaunch c) s (fun t =>
          (colOf t c).lines = x.lines ++ [line] ∧ (colOf t c).slot = k ∧ (k, bankKey (co / 64)) ∈ (colOf t c).banks ∧ others t))
        ∧ (bankBusy x k (bankKey (co / 64)) = false → dDir d.bits = true → a.1 = true → soundSpad p l (spadOff l b) n →
          Completes (.lineLaunch c) s (fun t =>
            (colOf t c).lines = x.lines ++ [{ line with src := readBytes p.mem (spadOff l b) n }] ∧ (colOf t c).slot = k
            ∧ (k, bankKey (co / 64)) ∈ (colOf t c).banks ∧ (n < 64 → (k + 8, bankKey (co / 64)) ∈ (colOf t c).banks) ∧ others t))))
    ∧ (∀ k r d, colFenced s c = false → x.lines = k :: r → findDesc x k.dseq = some d → k.off % 64 + k.len ≤ 64 →
      mget false s.hwPoison (lineNo c (k.off / 64)) = false →
      let l := dLeaf d.poster
      let a := slotAAsk s l 3 (rowsOf k.spad k.len) true
      (k.write = false → s.clk.cclk < k.at_ + 112 → Completes (.lineComplete c .clean) s (fun t => t = s))
      ∧ (k.write = false → k.at_ + 112 ≤ s.clk.cclk → a.1 = true → Completes (.lineComplete c .clean) s (fun t =>
        WroteBytes (settle a.2 l (rowsOf k.spad k.len)) t (spadOff l k.spad)
          (readBytes s.mem (lineOff c (k.off / 64) + k.off % 64) k.len)
        ∧ (colOf t c).lines = r ∧ t.hwPoison = s.hwPoison ∧ others t))
      ∧ (k.write = true → k.srcBad = false → k.src.length = k.len → dAcctEn d.bits = false →
        Completes (.lineComplete c .clean) s (fun t =>
          WroteBytes s t (lineOff c (k.off / 64) + k.off % 64) k.src ∧ (colOf t c).lines = r
          ∧ mget false t.hwPoison (lineNo c (k.off / 64)) = false ∧ t.leaves = s.leaves ∧ others t)))
    ∧ (∀ d l n rp st pc td, colFenced s c = false → (∀ y ∈ x.active, y.held = []) → x.active.find? (dmaDone s) = some d →
      d.poster = .leaf l n rp st pc td →
      let left (t : State) : Prop := (∀ y ∈ (colOf t c).active, y.dseq ≠ d.dseq) ∧ (colOf t c).queue = x.queue
        ∧ mget 0 (colOf t c).ring (d.dseq % 16) = dmaRecord d (dmaResult d)
        ∧ (∀ e ∈ (leafOf t l).sb, e.op = dOpId d.poster d.dseq → e.rel.isSome = true) ∧ SameMem s t ∧ others t
      (d.srcErr = false → (l, n) ∉ x.counted → dCntEn d.bits = true → Completes (.dmaComplete c) s (fun t =>
        left t ∧ LcAdvanced s t l (dCnt d.bits) ∧ (leafOf t l).errs = (leafOf s l).errs))
      ∧ (d.srcErr = true → (leafOf s l).run = .running → Completes (.dmaComplete c) s (fun t =>
        left t ∧ (∀ j k, lcGet t j k = lcGet s j k) ∧ (leafOf t l).errs
          = (leafOf s l).errs ++ [{ poison := d.errPoison, pc := pc, at_ := s.clk.cclk, post := some n }])))
    ∧ (∀ d r l n rp st pc td code, x.queue = d :: r → d.refused = some code → d.poster = .leaf l n rp st pc td →
      (l, n) ∉ x.counted → dCntEn d.bits = true →
      Completes (.dmaRefusedAtHead c) s (fun t =>
        (colOf t c).queue = r ∧ (colOf t c).active = x.active
        ∧ mget 0 (colOf t c).ring (d.dseq % 16) = dmaRecord d code ∧ Entered s t 0x85 c code (d.dseq % 2 ^ 24)
        ∧ LcAdvanced s t l (dCnt d.bits) ∧ SameMem s t ∧ others t))

/-- R401, R402, R408, R428, R431 to R434: a refresh advances each tier that has a free bank and defers the others, and a forced one from
the fourth time; the patrol, when its next line is due, reads it in a reserved slot and queues a corrected line's write-back; the
oldest correction is written back in one; a retirement reads and writes each line of its row in one each, and the last records
it. -/
def Obligations.ColumnMaintenance : Prop :=
  ∀ (s : State) (c : Nat), heartLive s c = true →
    let x := colOf s c
    let others (t : State) : Prop := (∀ k, k ≠ c → colOf t k = colOf s k) ∧ t.leaves = s.leaves ∧ t.hub = s.hub
    let busy (k : Nat) : Bool :=
      (List.range 8).all (fun b => x.banks.any (fun a => a.1 ≤ x.refSlot + 7 && x.refSlot ≤ a.1 + 7 && a.2 = k + 16 * b))
    (x.refSlot + 7 ≤ committedTo s x → Completes (.refresh c) s (fun t =>
      (colOf t c).refSlot = x.refSlot + 32
      ∧ (∀ k, k < 16 → (busy k = false ∨ mget false x.forced k = true) →
          mget 0 (colOf t c).refreshAt k = (mget 0 x.refreshAt k + 1) % 65792 ∧ mget 0 (colOf t c).deferred k = 0
          ∧ mget false (colOf t c).forced k = false)
      ∧ (∀ k, k < 16 → busy k = true → mget false x.forced k = false →
          mget 0 (colOf t c).refreshAt k = mget 0 x.refreshAt k
          ∧ mget 0 (colOf t c).deferred k = mget 0 x.deferred k + 1
          ∧ mget false (colOf t c).forced k = decide (4 ≤ mget 0 x.deferred k + 1))
      ∧ SameMem s t ∧ others t))
    ∧ (∀ r, maintSlotFor s x x.patrol = some r → patrolDue s x = true → mget false s.hwPoison (lineNo c x.patrol) = false →
      let read (t : State) : Prop := (colOf t c).patrol = (x.patrol + 1) % 2 ^ 25 ∧ (colOf t c).maintSlot = r
        ∧ mget 0 (colOf t c).counters 8 = sat32 (mget 0 x.counters 8 + 1) ∧ SameMem s t ∧ others t
      Completes (.patrolScrub c .clean) s (fun t => read t
        ∧ (colOf t c).tierCounters = x.tierCounters ∧ (colOf t c).writeBacks = x.writeBacks
        ∧ (colOf t c).passes = (if x.patrol + 1 = 2 ^ 25 ∧ x.fastClean = true then x.passes + 1 else x.passes))
      ∧ Completes (.patrolScrub c .oneSymbol) s (fun t => read t
        ∧ mget 0 (colOf t c).tierCounters (lineTier x.patrol) = sat32 (mget 0 x.tierCounters (lineTier x.patrol) + 1)
        ∧ (colOf t c).writeBacks = (if x.writeBacks.length < 8
            then x.writeBacks ++ [(x.patrol, readBytes s.mem (lineOff c x.patrol) 64)] else x.writeBacks)))
    ∧ (∀ w rest, x.writeBacks = w :: rest →
      (∀ r, maintSlotFor s x w.1 = some r → Completes (.correctionWriteBack c) s (fun t =>
        colOf t c = { x with writeBacks := rest, maintSlot := r } ∧ WroteBytes s t (lineOff c w.1) w.2 ∧ others t))
      ∧ (maintSlotFor s x w.1 = none → Completes (.correctionWriteBack c) s (fun t => t = s)))
    ∧ (∀ r k, x.retire = some r → maintSlotFor s x (copyLine r) = some k →
      (r.got = none → Completes (.retirementCopy c) s (fun t => (colOf t c).maintSlot = k ∧ SameMem s t ∧ others t
        ∧ ∃ check, (colOf t c).retire = some { r with
            got := some (lineData s c (copyLine r) check, badRead (lineRead s c (copyLine r) check)) }))
      ∧ (∀ g, r.got = some g → Completes (.retirementCopy c) s (fun t =>
        WroteBytes s t (lineOff c (copyLine r)) g.1 ∧ mget false t.hwPoison (lineNo c (copyLine r)) = g.2 ∧ others t
        ∧ (r.copied + 1 ≠ 32 → (colOf t c).retire = some { r with copied := r.copied + 1, got := none })
        ∧ (r.copied + 1 = 32 → (colOf t c).retire = none
            ∧ (colOf t c).retired = x.retired ++ [r.tier + 16 * r.bank + 128 * r.row]
            ∧ Entered s t 0x82 c (r.tier + 1) (r.row + r.bank * 2 ^ 16)
            ∧ (s.mram.defects.length < 8192 → ∃ d, t.mram.defects = s.mram.defects ++ [d] ∧ d.kind = 8
                ∧ d.position = BitVec.ofNat 32 (c + r.tier * 2 ^ 8 + r.bank * 2 ^ 12 + r.row * 2 ^ 15)
                ∧ d.boot = s.mram.bootCount)))))

/-! ## Timed groups, the canopy and the flow fabric -/

/-- R271, R279, R283, R289 to R294, R296, R324: a member performs its group cycle, delivering each selected token to its queue or
counting an overrun; a finished slot chains or stops; a ready report counts towards the armed group, whose go starts every
member in the thirty-second cycle after it. -/
def Obligations.TimedGroupOperation : Prop :=
  (∀ (s : State) (l : Nat), canAdvance s l = true → (leafOf s l).sw.held = false →
    Completes (.groupCycleAdvance l) s (fun t =>
      let x := leafOf s l
      let c := x.sw.base + x.sw.v
      (leafOf t l).sw.v = x.sw.v + 1 ∧ (leafOf t l).sw.base = x.sw.base ∧ (leafOf t l).sw.advAt = s.clk.cclk + 1 ∧ (leafOf t l).sregs = x.sregs ∧ SameMem s t
      ∧ (∀ p i k, p < 2 → i < 4 → planeTimed x p = true → sourceTok s l p (entrySel (curEntry x) p (4 + i)) c = some k →
          (queueOf x (4 * p + i)).toks.length < qcap (4 * p + i) →
          queueOf (leafOf t l) (4 * p + i)
            = { queueOf x (4 * p + i) with toks := (queueOf x (4 * p + i)).toks ++ [{ k with ready := c + 1 }] })
      ∧ (∀ p i, p < 2 → i < 4 → sourceTok s l p (entrySel (curEntry x) p (4 + i)) c = none →
          queueOf (leafOf t l) (4 * p + i) = queueOf x (4 * p + i))))
  ∧ (∀ (s : State) (l : Nat), crownRuns s = true → leafFenced s l = false → (leafOf s l).sw.running = true →
    slotDone (leafOf s l) = true → (leafOf s l).sw.held = false →
    let x := leafOf s l
    let chains : Bool := slotChain x.sw.cur && slotValid x.sw.nxt && slotGroup x.sw.nxt = slotGroup x.sw.cur
    (chains = true → Completes (.slotComplete l) s (fun t =>
      (leafOf t l).sw.cur = { x.sw.nxt with frozen := false } ∧ (leafOf t l).sw.nxt = {}
      ∧ (slotTimed x.sw.nxt = true → (leafOf t l).sw.v0 = x.sw.v)
      ∧ (leafOf t l).sw.running = slotTimed x.sw.nxt ∧ (leafOf t l).ring = slotRing x.sw.nxt
      ∧ (leafOf t l).sw.spent = liveCredits s l ∧ SameRegs x (leafOf t l) ∧ SameElsewhere s t l))
    ∧ (chains = false → Completes (.slotComplete l) s (fun t =>
      LeafBecame s t l { x with
        netCounters := mmod 0 x.netCounters 3 (fun v => sat32 (v + straysIn x))
        sw := { x.sw with running := false, skid := [] } } ∧ t.mem = s.mem)))
  ∧ (∀ (s : State) (l : Nat), crownRuns s = true → leafOk s l = true → leafFenced s l = false →
    let x := leafOf s l
    let g := slotGroup x.sw.nxt
    x.sw.running = false → slotTimed x.sw.nxt = true → x.sw.readySent = false → x.run ≠ .notStarted →
    Completes (.readyReport l) s (fun t =>
      LeafBecame s t l { x with sw := { x.sw with readySent := true } }
      ∧ (groupOf t g).ready = (groupOf s g).ready + 1 ∧ (∀ k, k ≠ g → groupOf t k = groupOf s k)
      ∧ ((groupOf s g).arm = true → (groupOf s g).members < (groupOf s g).ready + 1 →
          (groupOf t g).arm = false ∧ (groupOf t g).stopped = true ∧ Entered s t 0x42 g 1 0)
      ∧ ((groupOf s g).ready + 1 ≤ (groupOf s g).members → groupOf t g = { groupOf s g with ready := (groupOf s g).ready + 1 })))
  ∧ (∀ (s : State) (g : Nat), crownRuns s = true → (groupOf s g).arm = true → (groupOf s g).ready = (groupOf s g).members →
    (groupOf s g).goVal.toNat ≤ (gcGet s (groupOf s g).goGc).toNat →
    Completes (.go g) s (fun t =>
      groupOf t g = { groupOf s g with arm := false, ready := 0, goAt := some s.clk.cclk }
      ∧ (∀ k, k ≠ g → groupOf t k = groupOf s k) ∧ t.leaves = s.leaves ∧ t.mem = s.mem))
  ∧ (∀ (s : State) (g c : Nat), crownRuns s = true → (groupOf s g).goAt = some c →
    let member (l : Nat) : Bool := leafOk s l && !leafFenced s l && !(leafOf s l).sw.running && slotTimed (leafOf s l).sw.nxt
      && slotGroup (leafOf s l).sw.nxt = g
    (c + 32 ≠ s.clk.cclk → Completes (.goArrival g) s (fun t => t = s))
    ∧ (c + 32 = s.clk.cclk → Completes (.goArrival g) s (fun t =>
      (groupOf t g).goAt = none ∧ (groupOf t g).stopped = false ∧ (∀ k, k ≠ g → groupOf t k = groupOf s k)
      ∧ (∀ l, member l = true → (leafOf t l).sw.running = true ∧ (leafOf t l).sw.base = leafNow s (leafOf s l) ∧ (leafOf t l).sw.v = 0
          ∧ (leafOf t l).sw.v0 = 0 ∧ (leafOf t l).sw.cur = { (leafOf s l).sw.nxt with frozen := false }
          ∧ (leafOf t l).sw.nxt = {} ∧ (leafOf t l).ring = slotRing (leafOf s l).sw.nxt
          ∧ ((leafOf s l).run = .notStarted → (leafOf s l).image.waitGo = true → (leafOf t l).run = .running
              ∧ (leafOf t l).pc = 0 ∧ (leafOf t l).startCycle = s.clk.cclk))
      ∧ ∀ l, member l = false → leafOf t l = leafOf s l)))

/-- A packet that leaf `l` takes as a target: in the shape, not fenced, whole, and its SEQ not yet received (R308, R311,
R313, R316, R593). -/
def freshFor (s : State) (p : Canopy) (l : Nat) : Bool :=
  leafOk s l && !leafFenced s l && crcOk p && !p.hurt.contains l && !p.rsv && inTarget p l
    && !((leafOf s l).image.id = some p.image && mget false (leafOf s l).image.got p.seq.toNat)

/-- The leaf has counted the packet's SEQ before (R315). -/
def countedBefore (s : State) (p : Canopy) (l : Nat) : Bool :=
  (leafOf s l).image.id = some p.image && mget false (leafOf s l).image.counted p.seq.toNat

/-- R31, R128, R275, R285, R287, R288, R308 to R316, R590 to R597: what each packet of the canopy writes at a leaf it targets, and
GROUP at the hub; a damaged packet, or one with a reserved field nonzero, is counted and writes nothing; END completes a leaf whose digest agrees; a repair reaches
its leaf whatever its target fields say; a repair round resends and asks again, and fails the load after the third, or at once when
more than 1% of the leaves report a digest mismatch. A packet reaches the leaves forty cycles after it leaves the root. -/
def Obligations.CanopyPackets : Prop :=
  (∀ (s : State) (p : Canopy) (l : Nat), crownRuns s = true → freshFor s p l = true →
    let x := leafOf s l
    let o := p.offset.toNat
    let counts (t : State) : Prop := ∀ k, lcGet t l k
      = if p.cntEn = true ∧ countedBefore s p l = false ∧ k = p.cnt.toNat then (incCounter (lcGet s l k) 1).1 else lcGet s l k
    (hasArrived s 0 p = true → p.payload.length % 2 = 0 → o + p.payload.length / 2 ≤ 4096 → (o ≠ 0 ∨ x.run ≠ .running) →
      (8 < x.landing.length + p.payload.length / 2 → Completes (.spad p) s (fun t => SameMem s t
        ∧ (leafOf t l).landing = x.landing ∧ mget false (leafOf t l).image.got p.seq.toNat = false
        ∧ mget 0 (leafOf t l).counters 10 = sat32 (mget 0 x.counters 10 + 1)))
      ∧ (x.landing.length + p.payload.length / 2 ≤ 8 → Completes (.spad p) s (fun t => SameMem s t ∧ (leafOf t l).landing = x.landing
        ++ (List.range (p.payload.length / 2)).map (fun i => {
             row := o + i, data := ((payWords p).drop (16 * i)).take 16
             cnt := if i + 1 = p.payload.length / 2 ∧ p.cntEn = true ∧ countedBefore s p l = false then some p.cnt.toNat
               else none }))))
    ∧ (hasArrived s 1 p = true → o + 8 * p.payload.length ≤ 4096 → x.run ≠ .running → Completes (.istore p) s (fun t => counts t ∧ SameMem s t
        ∧ ∀ k, mget 0 (leafOf t l).istore k
            = if o ≤ k ∧ k < o + 8 * p.payload.length then (payWords p).getD (k - o) 0 else mget 0 x.istore k))
    ∧ (hasArrived s 2 p = true → o * 8 + 32 * p.payload.length ≤ 0x1038 → x.sw.nxt.frozen = false → Completes (.switchNext p) s (fun t =>
        let n := (payDwords p).zipIdx.foldl (fun m w => slotWord m (o + w.2) w.1) x.sw.nxt
        counts t ∧ SameMem s t ∧ (leafOf t l).sw.cur = x.sw.cur
        ∧ (leafOf t l).sw.nxt = (if o = 0 ∧ slotValid n = true then
            (if slotRefused s l { x with sw := { x.sw with nxt := n } } then { n with hdr := n.hdr &&& ~~~1 }
             else { n with frozen := true }) else n)))
    ∧ (hasArrived s 3 p = true → p.payload.length = 4 → recBad (recOf p) = false → x.run ≠ .running → Completes (.leafRecord p) s (fun t =>
        counts t ∧ SameMem s t ∧ (leafOf t l).run = .notStarted ∧ (leafOf t l).image.record = some (recOf p)
        ∧ (leafOf t l).image.recId = p.image ∧ (leafOf t l).image.load = s.graft.grafts
        ∧ (leafOf t l).image.complete = false ∧ (leafOf t l).image.start = none)))
  ∧ (∀ e ∈ ([(.spad, 0), (.istore, 1), (.switchNext, 2), (.leafRecord, 3)] : List ((Canopy → Instr) × BitVec 4)),
    ∀ (s : State) (p : Canopy) (l : Nat), crownRuns s = true → leafOk s l = true → leafFenced s l = false →
    hasArrived s e.2 p = true → (crcOk p = false ∨ p.hurt.contains l = true) →
    Completes (e.1 p) s (fun t =>
      mget 0 (leafOf t l).netCounters 7 = sat32 (mget 0 (leafOf s l).netCounters 7 + 1)
      ∧ (leafOf t l).landing = (leafOf s l).landing ∧ (leafOf t l).istore = (leafOf s l).istore
      ∧ (leafOf t l).sw = (leafOf s l).sw ∧ (leafOf t l).run = (leafOf s l).run ∧ (leafOf t l).lcs = (leafOf s l).lcs))
  ∧ (∀ e ∈ ([(.spad, 0), (.istore, 1), (.switchNext, 2), (.leafRecord, 3)] : List ((Canopy → Instr) × BitVec 4)),
    ∀ (s : State) (p : Canopy) (l : Nat), crownRuns s = true → hasArrived s e.2 p = true →
    freshFor s { p with rsv := false } l = true → p.rsv = true →
    Completes (e.1 p) s (fun t =>
      mget 0 (leafOf t l).netCounters 8 = sat32 (mget 0 (leafOf s l).netCounters 8 + 1)
      ∧ mget false (leafOf t l).image.got p.seq.toNat = true
      ∧ (leafOf t l).landing = (leafOf s l).landing ∧ (leafOf t l).istore = (leafOf s l).istore
      ∧ (leafOf t l).sw = (leafOf s l).sw ∧ (leafOf t l).run = (leafOf s l).run ∧ (leafOf t l).lcs = (leafOf s l).lcs))
  ∧ (∀ (s : State) (p : Canopy) (b : BitVec 256), crownRuns s = true → hasArrived s 4 p = true →
    p.payload = [b] → crcOk p = true → p.hurt.contains 0xA00 = false →
    let g := fld b.toNat 0 4
    let e := groupOf s g
    let m := fld b.toNat 36 12
    (groupBad p b.toNat = true → Completes (.groupPkt p) s (fun t =>
      Entered s t 0x42 g 3 0 ∧ t.hub.groups = s.hub.groups ∧ SameMem s t))
    ∧ (groupBad p b.toNat = false → bit b.toNat 4 = false → Completes (.groupPkt p) s (fun t =>
      groupOf t g = { e with arm := false } ∧ (∀ k, k ≠ g → groupOf t k = groupOf s k) ∧ SameMem s t))
    ∧ (groupBad p b.toNat = false → bit b.toNat 4 = true → e.ready ≤ m → Completes (.groupPkt p) s (fun t =>
      groupOf t g = { e with goGc := fld b.toNat 8 12, goVal := BitVec.ofNat 64 (fld b.toNat 64 64), members := m
                             arm := true, stopped := false }
      ∧ (∀ k, k ≠ g → groupOf t k = groupOf s k) ∧ SameMem s t))
    ∧ (groupBad p b.toNat = false → bit b.toNat 4 = true → m < e.ready → Completes (.groupPkt p) s (fun t =>
      (groupOf t g).arm = false ∧ (groupOf t g).stopped = true ∧ Entered s t 0x42 g 1 0 ∧ SameMem s t)))
  ∧ (∀ (s : State) (p : Canopy) (b : BitVec 256) (l : Nat) (r : BitVec 1024), crownRuns s = true →
    hasArrived s 5 p = true → p.payload = [b] →
    leafOk s l = true → leafFenced s l = false → crcOk p = true → p.hurt.contains l = false → endBad p = false →
    inTarget p l = true → (leafOf s l).image.id = some p.image → (leafOf s l).image.recId = p.image →
    (leafOf s l).image.record = some r →
    ((leafOf s l).image.complete = false ∨ (leafOf s l).image.start ≠ some (fld b.toNat 160 12, fld b.toNat 192 64)) →
    (∀ i, i ≤ fld b.toNat 0 32 → mget false (leafOf s l).image.got i = true) →
    imageDigest s l r = leBytes (r.toNat / 2 ^ 640) 48 →
    Completes (.endPkt p) s (fun t =>
      (leafOf t l).image.complete = true ∧ (leafOf t l).image.start = some (fld b.toNat 160 12, fld b.toNat 192 64)
      ∧ .inc { gc := fld b.toNat 160 12, amount := 1, acks := [] } ∈ t.net.msgs ∧ SameMem s t))
  ∧ (∀ (s : State) (p : Canopy) (l : Nat), crownRuns s = true → leafOk s l = true → leafFenced s l = false →
    crcOk p = true → p.hurt.contains l = false → p.rsv = false → (leafOf s l).run ≠ .running →
    ((leafOf s l).image.id = some p.image → mget false (leafOf s l).image.got p.seq.toNat = false) →
    p.offset.toNat + 8 * p.payload.length ≤ 4096 →
    Completes (.canopyRepairPacket l 1 p) s (fun t =>
      (∀ k, mget 0 (leafOf t l).istore k = if p.offset.toNat ≤ k ∧ k < p.offset.toNat + 8 * p.payload.length
          then (payWords p).getD (k - p.offset.toNat) 0 else mget 0 (leafOf s l).istore k)
      ∧ SameMem s t ∧ ∀ k, k ≠ l → leafOf t k = leafOf s k))
  ∧ (∀ (s : State) (g : GraftLoad), s.graft.load = some g → g.failed = false → allComplete s g = false →
    crownRuns s = true →
    let failed (t : State) : Prop := t.graft.load = some { g with failed := true } ∧ t.graft.bus = [] ∧ SameMem s t
      ∧ ∀ l, (leafOf t l).image.recId = g.image → (leafOf t l).image.start = none
    (g.targets.length < 100 * g.mismatch.length → Completes .repairRound s (fun t =>
      failed t ∧ t.boot = s.boot ∧ t.mram = s.mram ∧ t.log = s.log))
    ∧ (100 * g.mismatch.length ≤ g.targets.length → g.endAt + 200 ≤ s.clk.us → s.graft.bus = [] →
      (g.round < 3 → Completes .repairRound s (fun t =>
        t = { s with graft := { s.graft with
          bus := onBus s.clk.cclk (repairs s g)
          load := some { g with round := g.round + 1, endAt := s.clk.us, reports := [], answered := [], mismatch := [] } } }))
      ∧ (3 ≤ g.round → Completes .repairRound s failed)))

/-- R322, R324 to R327, R330 to R334, R344, R346, R347: a head that can pass leaves its source for its sink: a queue, or a
link, which spends a credit, or its spill area; a marker flips its sink; a stale token is discarded, counted and reported; a returned credit can
be spent again; at the ring point a marker follows each routed port; the next slot becomes current once every sink has
flipped; a granted refill reads the head of the spill area and enters it in its queue three cycles later. -/
def Obligations.FlowFabricOperation : Prop :=
  (∀ (s : State) (l : Nat) (m : FlowMove), fabricRuns s l = true → slotFlow (leafOf s l).sw.cur = true →
    (leafOf s l).sw.xferAt ≠ s.clk.cclk + 1 → (canAdvance s l = false ∨ (leafOf s l).sw.held = true) → flowMoves s l = [m] →
    let x := leafOf s l
    let after (t : State) : Prop := (leafOf t l).sw.xferAt = s.clk.cclk + 1 ∧ (leafOf t l).sw.quietSent = false ∧ SameMem s t
      ∧ (5 ≤ m.src → portToks (leafOf t l) (2 * m.p + (m.src - 5)) = (portToks x (2 * m.p + (m.src - 5))).drop 1)
      ∧ (∀ d, m.src = d + 1 → d < 4 → mget [] (leafOf t l).sw.lbuf (linkKey d m.p)
            = (mget [] x.sw.lbuf (linkKey d m.p)).drop 1
          ∧ ∀ n, neighbour s l d = some n → (s.clk.cclk + hopLat l n) ∈ mget [] (leafOf t n).sw.returning (linkKey (opposite d) m.p))
    (∀ i next, m.route = .sink i next → m.tok.marker = false → 4 ≤ i → i < 8 → inSpill x (sinkQueue m.p i) = false →
      Completes (.flowTransfer l) s (fun t => after t
        ∧ queueOf (leafOf t l) (sinkQueue m.p i) = { queueOf x (sinkQueue m.p i) with
            toks := (queueOf x (sinkQueue m.p i)).toks ++ [{ m.tok with ready := leafNow s x + 1 }] }))
    ∧ (∀ i next, m.route = .sink i next → m.tok.marker = false → 4 ≤ i → i < 8 → inSpill x (sinkQueue m.p i) = true →
      Completes (.flowTransfer l) s (fun t => after t
        ∧ let q := sinkQueue m.p i
          (leafOf t l).queues = x.queues ∧ mget 0 (leafOf t l).sw.spillWr q = mget 0 x.sw.spillWr q + 1
          ∧ (leafOf t l).deposits = x.deposits ++ [{ at_ := s.clk.cclk, word := spillWord x q (mget 0 x.sw.spillWr q)
                                                     vals := spillVals q m.tok, spill := true }]
          ∧ mget 0 (leafOf t l).netCounters 21 = sat32 (mget 0 x.netCounters 21 + 1)))
    ∧ (∀ i next n, m.route = .sink i next → m.tok.marker = false → i < 4 → neighbour s l i = some n →
      (slotValid (leafOf s n).sw.cur = true → planeFlow (leafOf s n).sw.cur m.p = true) →
      Completes (.flowTransfer l) s (fun t => after t
        ∧ mget 0 (leafOf t l).sw.spent (linkKey i m.p) = mget 0 x.sw.spent (linkKey i m.p) + 1
        ∧ mget [] (leafOf t n).sw.lbuf (linkKey (opposite i) m.p)
            = mget [] (leafOf s n).sw.lbuf (linkKey (opposite i) m.p) ++ [{ m.tok with ready := s.clk.cclk + hopLat l n }]))
    ∧ (∀ i next, m.route = .sink i next → m.tok.marker = true → 4 ≤ i →
      Completes (.flowTransfer l) s (fun t => after t ∧ (leafOf t l).queues = x.queues
        ∧ mget false (leafOf t l).sw.flips (i + 9 * m.p + (if next then 18 else 0)) = true
        ∧ (leafOf t l).sw.flipAt = s.clk.cclk))
    ∧ (m.route = .stale → Completes (.flowTransfer l) s (fun t => after t ∧ (leafOf t l).queues = x.queues
        ∧ mget 0 (leafOf t l).netCounters 18 = sat32 (mget 0 x.netCounters 18 + 1)
        ∧ Entered s t 0x47 l m.tok.ring.toNat 0)))
  ∧ (∀ (s : State) (l : Nat), fabricRuns s l = true →
    let x := leafOf s l
    (∀ sink c r, mget [] x.sw.returning sink = c :: r → c ≤ s.clk.cclk → Completes (.flowCreditReturn l sink) s (fun t =>
      mget 0 (leafOf t l).sw.spent sink = mget 0 x.sw.spent sink - 1 ∧ mget [] (leafOf t l).sw.returning sink = r
      ∧ SameRegs x (leafOf t l) ∧ SameElsewhere s t l))
    ∧ (x.sw.markerDue = true → x.sw.ringAt < s.clk.cclk → Completes (.ringMarker l) s (fun t =>
      (leafOf t l).ring = slotRing x.sw.nxt ∧ (leafOf t l).sw.markerDue = false
      ∧ (∀ k, k < 4 → portToks (leafOf t l) k = portToks x k ++
          (if planeFlow x.sw.cur (k / 2) = true ∧ slotValid x.sw.cur = true ∧ (sinkOf x.sw.cur (k / 2) (5 + k % 2)).isSome = true
           then [{ data := [], ring := slotRing x.sw.cur, marker := true, ready := leafNow s x }] else []))
      ∧ (leafOf t l).queues = x.queues ∧ SameElsewhere s t l))
    ∧ (x.sw.ringPoint = true → x.sw.markerDue = false → x.sw.ringAt < s.clk.cclk → x.sw.flipAt < s.clk.cclk →
      allFlipped x = true → Completes (.nextSlotCurrent l) s (fun t =>
      (leafOf t l).sw.cur = { x.sw.nxt with frozen := false } ∧ (leafOf t l).sw.nxt = {} ∧ (leafOf t l).ring = slotRing x.sw.nxt
      ∧ (leafOf t l).sw.ringPoint = false ∧ (leafOf t l).sw.spent = liveCredits s l ∧ SameRegs x (leafOf t l) ∧ SameElsewhere s t l))
    ∧ (∀ q, refillDue x q = true → spillHeadWritten s.clk.cclk x q = true → x.sw.refillAt ≠ s.clk.cclk + 1 →
      (∀ r ∈ x.sw.refills, s.clk.cclk < r.at_) →
      let w := spillWord x q (mget 0 x.sw.spillRd q)
      let n := if q < 4 then 64 else 8
      let a := slotAAsk s l 3 [w / 16] false
      let p := settle a.2 l [w / 16]
      a.1 = true → soundSpad p l (spadOff l (4 * w)) n → Completes (.refill l q) s (fun t =>
        mget 0 (leafOf t l).sw.spillRd q = mget 0 x.sw.spillRd q + 1 ∧ SameElsewhere p t l ∧ (leafOf t l).queues = x.queues
        ∧ (leafOf t l).sw.spilling = x.sw.spilling
        ∧ ∃ k, (leafOf t l).sw.refills = x.sw.refills ++ [{ at_ := s.clk.cclk + 3, q := q, tok := k }] ∧ k.bad = false
          ∧ lane k.data 0 = spadWord p l w ∧ (q < 4 → ∀ i, i < 16 → lane k.data i = spadWord p l (w + i))
          ∧ (4 ≤ q → k.tag = (spadWord p l (w + 1)).setWidth 8)))
    ∧ (∀ q r, x.sw.refills = [r] → r.at_ ≤ s.clk.cclk → Completes (.refill l q) s (fun t =>
        queueOf (leafOf t l) r.q = { queueOf x r.q with toks := (queueOf x r.q).toks ++ [{ r.tok with ready := leafNow s x + 1 }] }
        ∧ (inSpill (leafOf t l) r.q = true ↔ inSpill x r.q = true ∧ 0 < spillUsed x r.q)
        ∧ ∀ k, k ≠ l → leafOf t k = leafOf s k)))

/-- R336 to R343, R345, R348: joins and leaves change the region's active members; a member quiet for 64 cycles reports, and
its flags reach the hub; the last QUIET opens the window, a CLEAR cancels it; at its end each member is asked to spill and
answers; an ACTIVE answer cancels, a SPILLED one goes on, otherwise every member aborts and faults; a resolved region opens a
window again where every QUIET stands. -/
def Obligations.FlowRegionOperation : Prop :=
  ∀ (s : State), crownRuns s = true →
    (∀ l g, (leafOf s l).sw.joinDue = true → (leafOf s l).sw.leaveDue = none → regionNow (leafOf s l) = some g →
      Completes (.join l) s (fun t => (∀ m, m ∈ (regionOf t g).active ↔ m = l ∨ m ∈ (regionOf s g).active)
        ∧ (regionOf t g).window = none ∧ (∀ k, k ≠ g → regionOf t k = regionOf s k) ∧ t.mem = s.mem
        ∧ LeafBecame s t l { leafOf s l with sw := { (leafOf s l).sw with joinDue := false, joined := some g } }))
    ∧ (∀ l g, (leafOf s l).sw.leaveDue = some g →
      Completes (.leave l) s (fun t => (∀ m, m ∈ (regionOf t g).active ↔ m ≠ l ∧ m ∈ (regionOf s g).active)
        ∧ (∀ m, m ∈ (regionOf t g).quiet ↔ m ≠ l ∧ m ∈ (regionOf s g).quiet)
        ∧ ((regionOf t g).active = [] → (regionOf t g).window = none)
        ∧ ((regionOf t g).active ≠ [] → (∀ m ∈ (regionOf t g).active, m ∈ (regionOf t g).quiet) →
            (regionOf s g).window = none → (regionOf s g).awaiting = false → (regionOf t g).window = some s.clk.cclk)
        ∧ (leafOf t l).sw.joined = none
        ∧ (leafOf t l).sw.leaveDue = none ∧ (∀ k, k ≠ g → regionOf t k = regionOf s k) ∧ SameElsewhere s t l))
    ∧ (∀ l, fabricRuns s l = true → (leafOf s l).sw.joined ≠ none → 64 ≤ (leafOf s l).sw.quietFor →
      (leafOf s l).sw.quietSent = false → Completes (.quiet l) s (fun t => t = { s with leaves := t.leaves }
        ∧ LeafBecame s t l { leafOf s l with sw := { (leafOf s l).sw with
            quietSent := true, flags := (leafOf s l).sw.flags ++ [(true, s.clk.cclk)] } }))
    ∧ (∀ l g c r, (leafOf s l).sw.flags = (true, c) :: r → (leafOf s l).sw.joined = some g →
      Completes (.quietAtHub l) s (fun t => (∀ m, m ∈ (regionOf t g).quiet ↔ m = l ∨ m ∈ (regionOf s g).quiet)
        ∧ (regionOf t g).active = (regionOf s g).active ∧ (leafOf t l).sw.flags = r ∧ SameElsewhere s t l
        ∧ ((∀ m ∈ (regionOf s g).active, m = l ∨ m ∈ (regionOf s g).quiet) → (regionOf s g).active ≠ [] →
            (regionOf s g).window = none → (regionOf s g).awaiting = false → (regionOf t g).window = some s.clk.cclk)
        ∧ ((∃ m ∈ (regionOf s g).active, m ≠ l ∧ m ∉ (regionOf s g).quiet) →
            (regionOf t g).window = (regionOf s g).window)))
    ∧ (∀ l g c r, (leafOf s l).sw.flags = (false, c) :: r → (leafOf s l).sw.joined = some g →
      Completes (.clearAtHub l) s (fun t => (∀ m, m ∈ (regionOf t g).quiet ↔ m ≠ l ∧ m ∈ (regionOf s g).quiet)
        ∧ (regionOf t g).window = none ∧ (regionOf t g).active = (regionOf s g).active ∧ (leafOf t l).sw.flags = r
        ∧ SameElsewhere s t l))
    ∧ (∀ g c, (regionOf s g).window = some c → c + 4096 ≤ s.clk.cclk →
      Completes (.confirmationWindowEnd g) s (fun t =>
        regionOf t g = { regionOf s g with window := none, awaiting := true, asked := (regionOf s g).active, answers := [] } ∧ t.mem = s.mem
        ∧ ∀ l, leafOf t l = if l ∈ (regionOf s g).active
            then { leafOf s l with sw := { (leafOf s l).sw with spillDue := true } } else leafOf s l))
    ∧ (∀ l g, (leafOf s l).sw.spillDue = true → (leafOf s l).sw.joined = some g →
      Completes (.spill l) s (fun t =>
        let a : Nat := if (leafOf s l).sw.quietSent = false then 0
          else if (List.range 8).any (entersSpill s l) then 1 else 2
        (regionOf t g).answers = (regionOf s g).answers ++ [(l, a)] ∧ (leafOf t l).sw.spillDue = false
        ∧ (∀ q, inSpill (leafOf t l) q = (inSpill (leafOf s l) q || (decide (a = 1) && decide (q < 8) && entersSpill s l q)))
        ∧ SameRegs (leafOf s l) (leafOf t l) ∧ SameElsewhere s t l))
    ∧ (∀ g, (regionOf s g).awaiting = true → (∀ l ∈ (regionOf s g).asked, ∃ a ∈ (regionOf s g).answers, a.1 = l) →
      let r := regionOf s g
      let done := openWindow s { r with awaiting := false, asked := [], answers := [] }
      ((∃ a ∈ r.answers, a.2 = 0) → Completes (.answer g) s (fun t =>
        regionOf t g = { done with cancelled := sat32 (r.cancelled + 1) }
        ∧ t.leaves = s.leaves ∧ t.mem = s.mem))
      ∧ ((∀ a ∈ r.answers, a.2 ≠ 0) → (∃ a ∈ r.answers, a.2 = 1) → Completes (.answer g) s (fun t =>
        regionOf t g = { done with spills := sat32 (r.spills + 1) }
        ∧ Entered s t 0x45 g 0 (sat32 (r.spills + 1)) ∧ t.leaves = s.leaves ∧ t.mem = s.mem))
      ∧ ((∀ a ∈ r.answers, a.2 ≠ 0 ∧ a.2 ≠ 1) → Completes (.answer g) s (fun t =>
        regionOf t g = { done with aborted := true } ∧ Entered s t 0x46 g 0 r.active.length
        ∧ (∀ l ∈ r.active, (leafOf t l).sw.abortDue = true) ∧ t.mem = s.mem)))
    ∧ (∀ l, (leafOf s l).sw.abortDue = true → (leafOf s l).run = .running →
      Completes (.abort l) s (fun t => (leafOf t l).run = .faulted ∧ (leafOf t l).faultCode = 0x10
        ∧ (leafOf t l).sw.abortDue = false ∧ SameElsewhere s t l))

/-! ## The collective unit -/

/-- Slot `k` holds the collective `x` that the message names (R491). -/
def InSlot (s : State) (m : CollMsg) (k : Nat) (x : CSlot) : Prop :=
  s.pins.porst = true ∧ slotWith s m.group.toNat m.seq.toNat = some k ∧ cslot s k = some x

/-- Counter `i` of the collective unit has advanced by `n`. -/
def CollCounted (s t : State) (i n : Nat) : Prop := mget 0 t.coll.counts i = sat32 (mget 0 s.coll.counts i + n)

/-- The collective of slot `k` has ended in failure (R512, R514). -/
def CollFailed (s t : State) (k : Nat) (x : CSlot) (reason rank : Nat) : Prop :=
  cslot t k = none ∧ CollCounted s t 2 1 ∧ Entered s t 0xC0 k reason (collId x + rank % 2 ^ 12 * 2 ^ 32)
    ∧ (∀ j, j ≠ k → cslot t j = cslot s j) ∧ ∀ l, (leafOf t l).sregs = (leafOf s l).sregs

/-- The 64 bytes of a piece lie in one sound heartwood line that the unit may write. -/
def pieceLands (s : State) (off : Nat) (data : List Byte) : Prop :=
  data.length = 64 ∧ off % 64 = 0 ∧ (∃ c, soundHeartwood s c off 64) ∧ accessCode s off 64 false true = none

/-- Nothing holds an access of the unit at its target: no buffered row, scoreboard entry or launched line (R133, R152, R406). -/
def NothingHeld (s : State) : Prop :=
  (∀ l, (leafOf s l).gather = [] ∧ (leafOf s l).sb = []) ∧ ∀ c, (colOf s c).lines = []

/-- The line of a leaf's scratchpad may be read by the unit, is whole, and no deposit is on its way to it. -/
def readsLine (s : State) (l off : Nat) : Prop :=
  off % 64 = 0 ∧ soundSpad s l off 64 ∧ accessCode s off 64 false false = none
    ∧ windowAdmits s l (off % 0x40000) 64 false (originId s) = true ∧ (leafOf s l).deposits = []

/-- The kinds of message with the command that brings each (R499). -/
def MsgRows (e : (CollMsg → Instr) × Nat) : Prop :=
  e ∈ [(.contrib, 0), (.result, 1), (.small, 2), (.grant, 3), (.confirm, 4), (.settle, 5), (.poison, 6)]

/-- R484, R489 to R491, R496, R501 to R504, R507, R509 to R515, R518: a post is taken into a slot, or refused; a piece lands
and is noted; a GRANT, a SMALL and a CONFIRM are noted, and complete the collective with the last of them; SETTLE ends it;
a POISON, a message that the operation does not require, or a timeout fails it; a stale message is counted. What needs an access
that is held at its target waits whole (log 141). The post ring stands in a scratchpad: of a heartwood line the check stage's
finding is a free value (log 137). -/
def Obligations.CollectiveUnitOperation : Prop :=
  (∀ (s : State) (k l : Nat), (List.range 16).find? (fun k => cslot s k = none) = some k → s.boot.phase = .compute →
    let ring := odNat s 0x600001
    let p := s.coll.posts
    let at_ := ring + 64 * (p % 16)
    let d : BitVec 512 := BitVec.ofNat 512 (ofLe (readBytes s.mem at_ 64))
    let g := cGroupNo d
    let n := (cgroup s g).members.length
    let r := (cgroup s g).rank
    let q := (cgroup s g).nextSeq
    let id := g * 2 ^ 24 + q
    let taken (t : State) : Prop := t.coll.posts = p + 1 ∧ CollCounted s t 0 1 ∧ (∀ j, j ≠ k → cslot t j = cslot s j)
      ∧ (n ≠ 0 → (cgroup t g).nextSeq = (q + 1) % 2 ^ 24)
    ring ≠ 0xFFFFFFFFFFFFFFFF → odNat s 0x600002 ≠ 0xFFFF → p < (gcGet s (odNat s 0x600002)).toNat → readsLine s l at_ →
    (sbHolds (leafOf s l) (wordsOf (at_ % 0x40000) 64) false = true ∨ buffered (leafOf s l) (rowsOf (at_ % 0x40000) 64) = true →
      Completes .postTake s (fun t => t = { s with leaves := t.leaves } ∧ (∀ j, j ≠ l → leafOf t j = leafOf s j)
        ∧ leafOf t l = { leafOf s l with gather := (leafOf t l).gather }
        ∧ ∀ e ∈ (leafOf t l).gather, e.row = at_ % 0x40000 / 64 → ∃ w, e.want = some w ∧ w ≤ s.clk.cclk))
    ∧ (NothingHeld s → (n = 0 → Completes .postTake s (fun t => taken t ∧ cslot t k = none ∧ CollCounted s t 3 1
      ∧ Entered s t 0xC2 k 2 (g * 2 ^ 24 + 0xFFFFFF)))
    ∧ (n ≠ 0 → collBad d n r = true → s.coll.early = [] → Completes .postTake s (fun t => taken t ∧ cslot t k = none
      ∧ CollCounted s t 3 1 ∧ CollCounted s t 4 (n - 1) ∧ Entered s t 0xC2 k 1 id))
    ∧ (2 ≤ n → r < n → collBad d n r = false → hasDefect s 10 1 = false → s.coll.early = [] → cOp d = 5 → cRoot d ≠ r →
      64 < cBytes d → Completes .postTake s (fun t => taken t
      ∧ cslot t k = some { desc := d, group := g, seq := q, post := p, takenAt := s.clk.us, copied := true, sent := n - 1 }
      ∧ (∃ w, t.links.router = s.links.router ++ [(4, w)] ∧ pOp w = 0x14
          ∧ pDest w = ((cgroup s g).members.getD (cRoot d) 0).toNat ∧ fld (w.data.getD 0 0).toNat 44 4 = 3
          ∧ fld (w.data.getD 0 0).toNat 0 24 = q % 2 ^ 24 ∧ fld (w.data.getD 1 0).toNat 64 47 = cDst d)
      ∧ SameMem s t))))
  ∧ (∀ (s : State) (m : CollMsg) (k : Nat) (x : CSlot), InSlot s m k x → crcFits m = true → x.state = 1 →
    let n := slotN s x
    let r := slotRank s x
    let rk := m.rank.toNat
    let held := remoteHeld s m.landing.toNat 64 true
    (∀ e ∈ [((Instr.contrib m), 0), (.result m, 1)], msgOk s x e.2 m = true → pieceLands s m.landing.toNat m.data → held = true →
      Completes e.1 s (fun t => SameMem s t ∧ t.coll.slots = s.coll.slots ∧ (e.2, m) ∈ t.coll.waiting ∧ t.leaves = s.leaves))
    ∧ (∀ q, msgOk s x 0 m = true → pieceLands s m.landing.toNat m.data → held = false → x.resq = [] → n - 1 ≤ x.sent →
      dstComplete s x = false → (∀ p, x.reduced.contains p = false → pieceReady s x p = false) →
      q < n → q ≠ r → q ≠ rk → x.gotC.contains (q, m.piece.toNat) = false →
      Completes (.contrib m) s (fun t => WroteBytes s t m.landing.toNat m.data
        ∧ cslot t k = some { x with gotC := x.gotC ++ [(rk, m.piece.toNat)] }))
    ∧ (∀ q, msgOk s x 1 m = true → pieceLands s m.landing.toNat m.data → held = false → cOp x.desc = 2 → x.resq = [] → n - 1 ≤ x.sent →
      q < n → q ≠ r → q ≠ rk → (∀ p, (q, p) ∉ x.gotR) → 0 < resultLen x.desc n q r →
      Completes (.result m) s (fun t => WroteBytes s t m.landing.toNat m.data
        ∧ cslot t k = some { x with gotR := x.gotR ++ [(rk, m.piece.toNat)] }))
    ∧ (∀ q, msgOk s x 2 m = true → q ∈ smallNeeds x.desc n → q ≠ rk → mget none x.smalls q = none →
      Completes (.small m) s (fun t => SameMem s t
        ∧ cslot t k = some { x with smalls := mset none x.smalls rk (some m.data) }))
    ∧ (msgOk s x 2 m = true → cOp x.desc = 5 → x.copied = false → r ≠ 0 → s.boot.phase = .compute →
      pieceLands s (cDst x.desc) m.data → remoteHeld s (cDst x.desc) 64 true = false →
      Completes (.small m) s (fun t => WroteBytes s t (cDst x.desc) m.data
        ∧ gcGet t (cDoneGc x.desc) = (incCounter (gcGet s (cDoneGc x.desc)) 1).1
        ∧ (∃ y, cslot t k = some y ∧ y.state = 3 ∧ y.copied = true ∧ y.doneAdv = true ∧ y.confirmedAt = s.clk.us)
        ∧ ∃ w, t.links.router = s.links.router ++ [(4, w)] ∧ pOp w = 0x14 ∧ fld (w.data.getD 0 0).toNat 44 4 = 4))
    ∧ (∀ q, msgOk s x 3 m = true → 2 ≤ cOp x.desc → x.resq = [] → dstComplete s x = false →
      (destOrder n r)[x.sent]? = some q → sendsFirst x n r q = true → q ≠ rk → mget none x.grants q = none →
      Completes (.grant m) s (fun t => SameMem s t
        ∧ cslot t k = some { x with grants := mset none x.grants rk (some (m.dstBase.toNat, m.recvBase.toNat)) })))
  ∧ (∀ (s : State) (m : CollMsg) (k : Nat) (x : CSlot), InSlot s m k x → crcFits m = true →
    let n := slotN s x
    let rk := m.rank.toNat
    let others (t : State) : Prop := ∀ j, j ≠ k → cslot t j = cslot s j
    (∀ q, msgOk s x 4 m = true → x.small = true → x.state = 2 → q < n → q ≠ 0 → q ≠ rk → x.confirms.contains q = false →
      Completes (.confirm m) s (fun t => cslot t k = some { x with confirms := x.confirms ++ [rk] } ∧ others t ∧ SameMem s t))
    ∧ (msgOk s x 4 m = true → x.small = true → x.state = 2 → slotRank s x = 0 →
      (∀ q, q < n → q = 0 ∨ q = rk ∨ x.confirms.contains q = true) → x.crownReset = false → cStatusEn x.desc = false →
      s.boot.phase = .compute → Completes (.confirm m) s (fun t => cslot t k = none ∧ CollCounted s t 1 1 ∧ others t
        ∧ (∃ w, t.links.router = s.links.router ++ w ∧ w.length = n - 1 ∧ ∀ e ∈ w, fld (e.2.data.getD 0 0).toNat 44 4 = 5)
        ∧ gcGet t (cSettledGc x.desc) = (incCounter (gcGet s (cSettledGc x.desc)) 1).1 ∧ SameMem s t))
    ∧ (msgOk s x 5 m = true → x.crownReset = false → cStatusEn x.desc = false → s.boot.phase = .compute →
      Completes (.settle m) s (fun t => cslot t k = none ∧ CollCounted s t 1 1 ∧ others t
        ∧ gcGet t (cSettledGc x.desc) = (incCounter (gcGet s (cSettledGc x.desc)) 1).1 ∧ SameMem s t))
    ∧ (msgOk s x 6 m = true → NothingHeld s → Completes (.poison m) s (fun t =>
      CollFailed s t k x m.reason.toNat rk ∧ CollCounted s t 5 1)))
  ∧ (∀ e, MsgRows e → ∀ (s : State) (m : CollMsg),
    (∀ k x, InSlot s m k x → msgOk s x e.2 m = false → x.state ≠ 3 → NothingHeld s → Completes (e.1 m) s (fun t =>
      CollFailed s t k x 4 (slotRank s x) ∧ CollCounted s t 7 1))
    ∧ (s.pins.porst = true → slotWith s m.group.toNat m.seq.toNat = none →
      2 ^ 23 ≤ (m.seq.toNat + 2 ^ 24 - (cgroup s m.group.toNat).nextSeq) % 2 ^ 24 →
      Completes (e.1 m) s (fun t => CollCounted s t 8 1 ∧ t.coll.slots = s.coll.slots ∧ t.coll.early = s.coll.early
        ∧ t.leaves = s.leaves ∧ t.mem = s.mem)))
  ∧ (∀ (s : State) (k : Nat) (x : CSlot), cslot s k = some x → NothingHeld s →
    (x.state ≠ 3 → x.takenAt + odNat s 0x600004 ≤ s.clk.us → Completes (.collTimeout k) s (fun t =>
      CollFailed s t k x 7 (slotRank s x)))
    ∧ (x.state = 3 → x.confirmedAt + odNat s 0x600004 ≤ s.clk.us →
      (∀ g, (gcGet s g).toNat + 2 < 2 ^ 64) → Completes (.settleLost k) s (fun t =>
      cslot t k = none ∧ (x.crownReset = true → t.mem = s.mem ∧ t.hub = s.hub) ∧ CollCounted s t 11 1 ∧ Entered s t 0xC0 k 9 (collId x) ∧ ∀ j, j ≠ k → cslot t j = cslot s j)))

/-! ## Sideband, test port and management -/

/-- The request `m` has come to stand in the inbox, which is now `box`: behind every request that arrived before it, and of those of its
own cycle behind those that go first (R41, R531). -/
def Queues (s : State) (m : ConasMsg) (box : List ConasMsg) : Prop :=
  let first (q : ConasMsg) : Prop := q.at_ = rootCycle s → acceptRank q ≤ acceptRank m
  ∃ a b, s.mgmt.inbox = a ++ b ∧ box = a ++ [{ m with at_ := rootCycle s }] ++ b ∧ (∀ q ∈ a, first q) ∧ ∀ q, b.head? = some q → ¬ first q

/-- R523 to R526, R529, R652, R653: dynamic address assignment; the MCTP control commands, whose payloads and versions are the
model's choice (log 13); a Conas message in one packet or assembled waits in the inbox; a damaged unit is discarded; what the
test access port does locked and unlocked (a locked or unknown instruction selects BYPASS: log 14). -/
def Obligations.SidebandAndTestPort : Prop :=
  (∀ (s : State) (addr : BitVec 7), s.pins.porst = true →
    let pid : BitVec 48 := BitVec.ofNat 48 (0x6E41 * 2 ^ 33 + 0xC288 * 2 ^ 16 + s.boot.slotId.toNat * 2 ^ 10
      + s.part.serial.toNat % 2 ^ 10)
    Completes (.dynamicAddressAssignment addr) s (fun t => t = { s with
      mgmt := { s.mgmt with dynAddr := some addr, out := s.mgmt.out ++ [.daa pid 0x06 0x00] } }))
  ∧ (∀ (s : State) (m : MctpCtl), s.pins.porst = true → s.mgmt.dynAddr ≠ none →
    let answered (u t : State) (bytes : List Byte) : Prop :=
      t = { u with mgmt := { u.mgmt with out := s.mgmt.out ++ [.mctp m.eid m.tag bytes] } }
    let drawn : State := { s with free := s.free + 1 }
    (∀ eid, Completes (.setEndpointId m eid) s (fun t =>
      if eid = 0 ∨ eid = 0xFF then answered s t [2]
      else answered { s with mgmt := { s.mgmt with eid := eid } } t [0, 0, eid, 0]))
    ∧ Completes (.getEndpointId m) s (fun t => answered s t [0, s.mgmt.eid, 0, 0])
    ∧ Completes (.getMessageTypeSupport m) s (fun t => answered s t [0, 1, 0x7F])
    ∧ Completes (.getMctpVersionSupport m) s (fun t =>
        ∃ bs, bs.length = 4 ∧ answered drawn t ([0, 1] ++ bs))
    ∧ Completes (.getVendorDefinedMessageSupport m) s (fun t =>
        ∃ bs, bs.length = 2 ∧ answered drawn t ([0, 0xFF, 1, 0x00, 0x03, 0xE1, 0xA5] ++ bs)))
  ∧ (∀ (s : State) (u : MctpUnit) (msg : List Byte), s.pins.porst = true → s.mgmt.dynAddr ≠ none →
    2 ≤ phaseCode s.boot.phase → (u.dstEid = s.mgmt.eid ∨ u.dstEid = 0) → 0 < u.payload.length → u.payload.length ≤ 64 →
    let m := parseConas .i3c (u.srcEid.setWidth 17) (u.tag.setWidth 15) msg
    let whole : List Byte := [0x7F, 0x00, 0x03, 0xE1, 0xA5] ++ msg
    let old := s.mgmt.assembling.find? (sameAssembly u)
    let rest := s.mgmt.assembling.filter (fun a => !sameAssembly u a)
    (u.pecOk = false → Completes (.mctpPacket u) s (fun t =>
      t = { s with mgmt := { s.mgmt with discards := sat32 (s.mgmt.discards + 1) } }))
    ∧ (u.pecOk = true → u.som = true → u.eom = true → old = none → u.payload = whole → 8 ≤ msg.length →
      knownCode m.code = true → Completes (.mctpPacket u) s (fun t =>
        ∃ box, Queues s m box ∧ t = { s with mgmt := { s.mgmt with inbox := box } }))
    ∧ (u.pecOk = true → u.som = true → u.eom = false → old = none → u.payload.length = 64 →
      s.mgmt.assembling.length < 8 → Completes (.mctpPacket u) s (fun t =>
        t = { s with mgmt := { s.mgmt with assembling := s.mgmt.assembling ++
          [{ srcEid := u.srcEid, tag := u.tag, owner := u.owner, next := u.pktSeq + 1, bytes := u.payload }] } }))
    ∧ (∀ a, u.pecOk = true → u.som = false → u.eom = true → old = some a → a.next = u.pktSeq →
      a.bytes ++ u.payload = whole → 8 ≤ msg.length → knownCode m.code = true → Completes (.mctpPacket u) s (fun t =>
        ∃ box, Queues s m box ∧ t = { s with mgmt := { s.mgmt with assembling := rest, inbox := box } })))
  ∧ (∀ s : State,
    let became (t : State) (free : Nat) (x : Tap) : Prop := t = { s with free := free, tap := x }
    Completes (.testAccessPort .trst) s (fun t => became t s.free {})
    ∧ (∀ bits, Completes (.testAccessPort (.bypass bits)) s (fun t =>
        became t s.free { s.tap with ir := 0, bypass := (bits.getLast?).getD false, out := (false :: bits).take bits.length }))
    ∧ Completes (.testAccessPort .idcode) s (fun t =>
        became t s.free { s.tap with ir := 1, out := (List.range 32).map (fun i => (0x1C288FE7#32).getLsbD i) })
    ∧ (∀ pre, Completes (.testAccessPort (.samplePreload pre)) s (fun t =>
        ∃ out, out.length = 32 ∧ became t (s.free + 1) { s.tap with ir := 2, cells := pre, out := out }))
    ∧ Completes (.testAccessPort .extest) s (fun t => became t s.free { s.tap with ir := 3, out := s.tap.cells })
    ∧ (∀ e : TapOp × Nat, (e ∈ [(.startTestAccess, 5), (.mramRead false, 6)] ∨ ∃ tier, e = (.ieee1838 tier, 4)) →
        Completes (.testAccessPort e.1) s (fun t =>
          if s.boot.debugLocked then became t s.free { s.tap with ir := 0, bypass := false, out := [false] }
          else ∃ out, out.length = 32 ∧ became t (s.free + 1) { s.tap with ir := e.2, out := out }))
    ∧ Completes (.testAccessPort (.mramRead true)) s (fun t =>
        became t s.free { s.tap with ir := if s.boot.debugLocked then 0 else 6, out := [] })
    ∧ Completes (.testAccessPort .unknown) s (fun t =>
        became t s.free { s.tap with ir := 0, bypass := false, out := [false] }))

/-- The commands that bring a Conas request, with the request's header, CODE and body: those with bodies of their own, the
object accesses, and the writes of one object each (R533, R557). -/
def ConasRow (c : Instr) (h : ConasHdr) (code : Nat) (body : List Byte) : Prop :=
  (∃ q : Conas, q.h = h ∧ q.body = body ∧
    ((c, code) ∈ [(.sessionOpen q, 0x01), (.sessionClose q, 0x02), (.eventRead q, 0x20), (.trustGetIdentity q, 0x30),
      (.trustOwnerProvision q, 0x32)]
    ∨ (code = 0x31 ∧ c = (if bodyNat body 0 4 = 0 then .quoteBuild q else .quoteRead q))
    ∨ (code = 0x33 ∧ c = (if bodyNat body 0 1 = 0 then .debugUnlockChallenge q else .debugUnlockTransition q))))
  ∨ (∃ q : OdReq, q.h = h ∧ body = odBody q.index.toNat q.sub.toNat q.zero.toNat q.offset.toNat q.data
      ∧ (c, code) ∈ [(.odRead q, 0x10), (.odWrite q, 0x11)])
  ∨ (∃ (q : CmdReq) (ix sub : Nat), q.h = h ∧ code = 0x11 ∧ body = odBody ix sub 0 q.offset.toNat q.data
      ∧ (c, ix, sub) ∈ [(.groveId q, 0x5100, 0x01), (.alertAckSeq q, 0x1300, 0x07), (.govPowerBudget q, 0x2100, 0x03),
        (.govStepsPermitted q, 0x2100, 0x02), (.nvCommit q, 0xF000, 0x01), (.factoryRestore q, 0xF000, 0x02),
        (.profileSelect q, 0xF000, 0x03), (.profileStore q, 0xF000, 0x04), (.profileClear q, 0xF000, 0x05),
        (.crownReset q, 0xF000, 0x06), (.portReset q, 0xF000, 0x07), (.portsOpen q, 0xF000, 0x08), (.runBegin q, 0xF000, 0x09),
        (.groupInstall q, 0xF000, 0x0A), (.groupRemove q, 0xF000, 0x0B), (.graftLoad q, 0xF000, 0x0C),
        (.defectClear q, 0xF000, 0x0D), (.fwInstall q, 0xF000, 0x0E)])

/-- R41, R530, R531, R534, R542, R543, R566, R688: requests are executed one at a time in the order of their arrival, so behind another
a request waits; a request before OD_ASSEMBLY is discarded; one that a check refuses is counted,
answered with the violation's status and an empty body, and changes nothing that it names; the number of the last request gets
the cached response again; one more than 256 ahead is STALE_SEQUENCE. -/
def Obligations.RequestsChecked : Prop :=
  ∀ (s : State) (c : Instr) (h : ConasHdr) (code : Nat) (body : List Byte), ConasRow c h code body → s.pins.porst = true →
    let u := unqueued s h code body
    let refused (t : State) (status : Nat) : Prop := ∃ v, Sent v t h (response h code status [])
      ∧ mget 0 v.mgmt.violations (status - 0x20) = sat32 (mget 0 s.mgmt.violations (status - 0x20) + 1)
      ∧ v.mgmt.rt = s.mgmt.rt ∧ v.mgmt.pend = s.mgmt.pend ∧ v.mgmt.cmdStatus = s.mgmt.cmdStatus
      ∧ (∀ k, k ≠ h.session.toNat → sessionAt v k = sessionAt s k)
      ∧ (boundSession s h = none → sessionAt v h.session.toNat = sessionAt s h.session.toNat)
      ∧ (∀ x, sessionAt s h.session.toNat = some x → sessionAt v h.session.toNat = none
          ∨ ∃ y, sessionAt v h.session.toNat = some y ∧ y.lastSeq = x.lastSeq ∧ y.cached = x.cached)
      ∧ v.boot = s.boot ∧ v.leaves = s.leaves ∧ v.mem = s.mem ∧ v.links = s.links ∧ v.fuse = s.fuse
    (atHead s h code body = false → 2 ≤ phaseCode s.boot.phase → Completes c s (fun t =>
      if s.mgmt.inbox.any (fun m => m.h = h && m.code = code && m.body = body) then t = s
      else ∃ box, Queues s { h := h, code := code, body := body } box ∧ t = { s with mgmt := { s.mgmt with inbox := box } }))
    ∧ (atHead s h code body = true → phaseCode s.boot.phase < 2 → Completes c s (fun t =>
      t = { u with mgmt := { u.mgmt with discards := sat32 (s.mgmt.discards + 1) } }))
    ∧ (atHead s h code body = true → 2 ≤ phaseCode s.boot.phase →
      (∀ status, verdict u h code body = .refuse status → Completes c s (fun t => refused t status))
      ∧ (∀ r, verdict u h code body = .cached r → Completes c s (fun t => Sent u t h r))
      ∧ (∀ x, headViolation { h := h, code := code, body := body } = none → h.session ≠ 0xF → code ≠ 0x01 →
          h.session.toNat < 8 → boundSession s h = some x →
          let d := (h.seq.toNat + 2 ^ 16 - x.lastSeq.toNat) % 2 ^ 16
          (∀ r, d = 0 → x.cached = some r → Completes c s (fun t => Sent u t h r))
          ∧ (256 < d → Completes c s (fun t => refused t 0x25))))

/-- R40, R527, R533, R538, R540, R545, R562, R563, R627, R643: what the accepted session, object and event requests answer
and change; the writes of one named object; the second's suppressed counts. -/
def Obligations.ManagementRequests : Prop :=
  (∀ (s : State) (q : Conas), Accepts s q.h 0x01 q.body →
    let u := heard s q.h 0x01 q.body
    let token := BitVec.ofNat 64 (ofLe (q.body.take 8))
    let mine (k : Nat) : Prop := ∃ x, sessionAt u k = some x ∧ x.token = token ∧ x.transport = q.h.transport
      ∧ x.address = q.h.address
    (∀ k x, k < 8 → sessionAt u k = some x → mine k → (∀ j, j < k → ¬ mine j) → Completes (.sessionOpen q) s (fun t =>
      Replied u t q.h 0x01 0 (leBytes (x.lastSeq.toNat + k * 2 ^ 16 + 2 ^ 20) 8)))
    ∧ (∀ k, k < 8 → (∀ j, j < 8 → ¬ mine j) → sessionAt u k = none → (∀ j, j < k → sessionAt u j ≠ none) →
      Completes (.sessionOpen q) s (fun t =>
        let x : Session := { token := token, transport := q.h.transport, address := q.h.address, lastSeq := 0xFFFF,
                             privileged := bit (ofLe ((q.body.drop 8).take 8)) 0 }
        Replied (setSession u k (some x)) t q.h 0x01 0 (leBytes (0xFFFF + k * 2 ^ 16) 8)))
    ∧ ((∀ j, j < 8 → ¬ mine j ∧ sessionAt u j ≠ none) → Completes (.sessionOpen q) s (fun t => Replied u t q.h 0x01 4 [])))
  ∧ (∀ (s : State) (q : Conas), Accepts s q.h 0x02 q.body →
    Completes (.sessionClose q) s (fun t =>
      Replied (setSession (heard s q.h 0x02 q.body) q.h.session.toNat none) t q.h 0x02 0 []))
  ∧ (∀ (s : State) (q : OdReq),
    let body := odBody q.index.toNat q.sub.toNat q.zero.toNat q.offset.toNat q.data
    Accepts s q.h 0x10 body →
    let u := heard s q.h 0x10 body
    let room := if q.h.transport = .i3c then 1008 else 240
    Completes (.odRead q) s (fun t => ∀ o, objOf u q.index.toNat q.sub.toNat = some o →
      Replied u t q.h 0x10 0 (leBytes (o.ty + o.acc * 2 ^ 8 + o.val.length * 2 ^ 32) 8
        ++ (o.val.drop q.offset.toNat).take (min (if ofLe q.data = 0 then room else ofLe q.data) room))))
  ∧ (∀ (s : State) (c : Instr) (h : ConasHdr) (ix sub off : Nat) (data : List Byte),
    ((∃ q : OdReq, c = .odWrite q ∧ h = q.h ∧ ix = q.index.toNat ∧ sub = q.sub.toNat ∧ off = q.offset.toNat ∧ data = q.data
        ∧ q.zero = 0)
      ∨ ∃ q : CmdReq, h = q.h ∧ off = q.offset.toNat ∧ data = q.data ∧
        (c, ix, sub) ∈ [(.groveId q, 0x5100, 0x01), (.alertAckSeq q, 0x1300, 0x07), (.govPowerBudget q, 0x2100, 0x03),
          (.govStepsPermitted q, 0x2100, 0x02)]) →
    let body := odBody ix sub 0 off data
    let key := ix * 256 + sub
    Accepts s h 0x11 body → ix ≠ 0xF000 →
    let u := heard s h 0x11 body
    let old := odBytes u key
    let new := old.take off ++ data ++ old.drop (off + data.length)
    let w : State := { u with mgmt := { u.mgmt with rt := mset [] u.mgmt.rt key new } }
    (key = 0x800006 → Completes c s (fun t => ∃ v, Replied v t h 0x11 0 []
      ∧ v = { u with mgmt := { u.mgmt with fwStage := v.mgmt.fwStage } }
      ∧ ∀ a, mget 0 v.mgmt.fwStage a
          = if off ≤ a ∧ a < off + data.length then data.getD (a - off) 0 else mget 0 u.mgmt.fwStage a))
    ∧ (key ≠ 0x800006 → Completes c s (fun t => ∃ v, Replied v t h 0x11 0 []
      ∧ odBytes v key = new ∧ (∀ k, k ≠ key → odBytes v k = odBytes u k)
      ∧ (key ∉ [0x130006, 0x130007, 0x210002, 0x210003] → v = w)
      ∧ (key ∈ [0x130006, 0x130007] → v = { w with pins := { w.pins with
          alert := !(s.log.entries.any (fun e => odNat v 0x130006 ≤ e.sev && odNat v 0x130007 ≤ e.seq)) } })
      ∧ (key ∈ [0x210002, 0x210003] → u.gov.decided = none → v = w)
      ∧ v.leaves = s.leaves ∧ v.mem = s.mem ∧ v.boot = s.boot ∧ v.links = s.links)))
  ∧ (∀ (s : State) (q : Conas), Accepts s q.h 0x20 q.body →
    let u := heard s q.h 0x20 q.body
    let since := ofLe (q.body.take 4)
    let n := min (ofLe ((q.body.drop 4).take 1)) (if q.h.transport = .i3c then 31 else 7)
    let live := (s.log.entries.filter (fun e => since ≤ e.seq)).take n
    let kept := (s.mram.persisted.drop since).take n
    let head (first head missed count : Nat) : List Byte :=
      leBytes (first % 2 ^ 32 + head % 2 ^ 32 * 2 ^ 32 + missed * 2 ^ 64 + count * 2 ^ 96) 16
    Completes (.eventRead q) s (fun t => Replied u t q.h 0x20 0 (
      if bit (ofLe ((q.body.drop 5).take 1)) 0 then
        head since s.mram.persisted.length 0 kept.length ++ kept.flatMap entryBytes
      else
        head ((live.head?.map Event.seq).getD since) s.log.head (s.log.oldest - since) live.length
          ++ live.flatMap entryBytes)))
  ∧ (∀ (s : State) (c d n : Nat), s.pins.porst = true → s.clk.us / 1000000 ≠ s.log.second → d < 256 →
    s.log.due = [] → s.log.now = [(c * 256 + d, n)] →
    let e : Event := { seq := s.log.head, code := 0x07, sev := 0, unit := c, detail := d, payload := BitVec.ofNat 128 n
                       timeUs := s.clk.us, prior := false }
    Completes .eventsSuppressed s (fun t => t.log.entries.getLast? = some e
      ∧ t.log.second = s.clk.us / 1000000 ∧ t.log.now = [] ∧ t.log.due = [] ∧ t.log.counts = []
      ∧ EventFrame s t))

/-- R632, R637, R638, R644, R645, R648, R649, R651, R653, R654: the identity document and quotes by piece; owner provisioning;
the two steps of a lifecycle request. A rejected manifest answers FAILED with the REASON and raises SIGNATURE_REJECTED. The
challenge is a free value (log 9). -/
def Obligations.TrustRequests : Prop :=
  (∀ (s : State) (q : Conas), Accepts s q.h 0x30 q.body →
    let u := heard s q.h 0x30 q.body
    let room := if q.h.transport = .i3c then 1008 else 240
    Completes (.trustGetIdentity q) s (fun t => ∃ doc : List Byte, doc.length = 8816
      ∧ doc.take 16 = leBytes 0x49424D59 4 ++ leBytes 1 4 ++ leBytes s.part.serial.toNat 8
      ∧ Replied u t q.h 0x30 0 (leBytes 8816 8 ++ (doc.drop (ofLe (q.body.take 4))).take room)))
  ∧ (∀ (s : State) (q : Conas), Accepts s q.h 0x31 q.body → ofLe (q.body.take 4) = 0 →
    let u := heard s q.h 0x31 q.body
    let room := if q.h.transport = .i3c then 1008 else 240
    let nonce := q.body.drop 8
    ((s.fuse.wrapDisabled = true ∨ s.mram.keys = false) →
      Completes (.quoteBuild q) s (fun t => Replied u t q.h 0x31 5 (leBytes 0x13 4)))
    ∧ (s.fuse.wrapDisabled = false → s.mram.keys = true → Completes (.quoteBuild q) s (fun t => ∃ doc : List Byte,
        doc.take 48 = leBytes 0x51424D59 4 ++ leBytes 1 2 ++ [s.fuse.lifecycle] ++ leBytes s.fuse.secVer 1
          ++ leBytes s.part.serial.toNat 8 ++ nonce
        ∧ ∃ v, quoteOf v q.h = some { nonce := nonce, bytes := doc }
          ∧ v = { u with mgmt := { u.mgmt with quote0 := v.mgmt.quote0, sessions := v.mgmt.sessions } }
          ∧ Replied v t q.h 0x31 0 (leBytes doc.length 8 ++ doc.take room))))
  ∧ (∀ (s : State) (q : Conas), Accepts s q.h 0x31 q.body → ofLe (q.body.take 4) ≠ 0 →
    let u := heard s q.h 0x31 q.body
    let room := if q.h.transport = .i3c then 1008 else 240
    let reply (reason : Nat) : Prop := Completes (.quoteRead q) s (fun t => Replied u t q.h 0x31 5 (leBytes reason 4))
    ((s.fuse.wrapDisabled = true ∨ s.mram.keys = false) → reply 0x13)
    ∧ (s.fuse.wrapDisabled = false → s.mram.keys = true →
      (quoteOf u q.h = none → reply 0x11)
      ∧ (∀ k, quoteOf u q.h = some k → k.nonce ≠ q.body.drop 8 → reply 0x12)
      ∧ (∀ k, quoteOf u q.h = some k → k.nonce = q.body.drop 8 → Completes (.quoteRead q) s (fun t =>
          Replied u t q.h 0x31 0 (leBytes k.bytes.length 8 ++ (k.bytes.drop (ofLe (q.body.take 4))).take room)))))
  ∧ (∀ (s : State) (q : Conas), Accepts s q.h 0x32 q.body →
    let u := heard s q.h 0x32 q.body
    let m := staged s 0 0x2230
    let r := manifestReason s 3 m
    let provisionable : Prop := s.part.ownerKeyable = true ∧ s.fuse.lifecycle = 2 ∧ s.fuse.ownerKeyState = 0
    (¬ provisionable → Completes (.trustOwnerProvision q) s (fun t => Replied u t q.h 0x32 5 (leBytes 0x10 4)))
    ∧ (provisionable → ofLe (q.body.take 8) ≠ s.part.serial.toNat →
        Completes (.trustOwnerProvision q) s (fun t => Replied u t q.h 0x32 5 (leBytes 3 4)))
    ∧ (provisionable → ofLe (q.body.take 8) = s.part.serial.toNat → Completes (.trustOwnerProvision q) s (fun t =>
        (r ≠ 0 → ∃ v, Raised u v 0x101 3 r (manifestPayload m) ∧ Replied v t q.h 0x32 5 (leBytes r 4))
        ∧ (r = 0 → ∃ v, Raised { u with
              fuse := { u.fuse with ownerRsaHash := sha384 (mModulus m), ownerSlhHash := sha384 (mPk m)
                                    ownerKeyState := 1, lifecycle := 3 }
              boot := { u.boot with debugLocked := true } } v 0x100 3 2 0
            ∧ Replied v t q.h 0x32 0 []))))
  ∧ (∀ (s : State) (q : Conas), Accepts s q.h 0x33 q.body → ofLe (q.body.take 1) = 0 →
    let u := heard s q.h 0x33 q.body
    Completes (.debugUnlockChallenge q) s (fun t => ∃ c : List Byte, c.length = 32
      ∧ Replied { u with free := u.free + 1, mgmt := { u.mgmt with challenge := some c } } t q.h 0x33 0 c))
  ∧ (∀ (s : State) (q : Conas), Accepts s q.h 0x33 q.body → ofLe (q.body.take 1) ≠ 0 →
    let u := heard s q.h 0x33 q.body
    let m := staged s 0 0x2230
    let goal := ofLe ((q.body.drop 1).take 1)
    (s.mgmt.challenge = none →
      Completes (.debugUnlockTransition q) s (fun t => Replied u t q.h 0x33 5 (leBytes 0x11 4)))
    ∧ (∀ c, s.mgmt.challenge = some c → Completes (.debugUnlockTransition q) s (fun t =>
        let r0 := manifestReason s 4 m
        let r := if r0 ≠ 0 then r0 else if mDigest m = c ++ leBytes goal 1 ++ List.replicate 15 0 then 0 else 8
        (r ≠ 0 → ∃ v, Raised u v 0x101 4 r (manifestPayload m) ∧ Replied v t q.h 0x33 5 (leBytes r 4))
        ∧ (r = 0 → listedMove s goal = false → Replied u t q.h 0x33 5 (leBytes 0x10 4))
        ∧ (r = 0 → listedMove s goal = true → ∃ v, Raised { u with
              fuse := { u.fuse with lifecycle := BitVec.ofNat 8 goal
                                    wrapDisabled := u.fuse.wrapDisabled || goal = 4 || goal = 5 }
              boot := { u.boot with debugLocked := true }
              mgmt := { u.mgmt with challenge := none } } v 0x100 goal s.fuse.lifecycle.toNat 0
            ∧ Replied v t q.h 0x33 0 []))))

/-- The command objects with the command that writes each, by subindex (R557). -/
def CommandRows (e : (CmdReq → Instr) × Nat) : Prop :=
  e ∈ [(.nvCommit, 0x01), (.factoryRestore, 0x02), (.profileSelect, 0x03), (.profileStore, 0x04), (.profileClear, 0x05),
    (.crownReset, 0x06), (.portReset, 0x07), (.portsOpen, 0x08), (.runBegin, 0x09), (.groupInstall, 0x0A), (.groupRemove, 0x0B),
    (.graftLoad, 0x0C), (.defectClear, 0x0D), (.fwInstall, 0x0E)]

/-- R372, R467, R469, R481, R551, R555 to R558, R581, R586, R589: an accepted command answers BUSY while one is PENDING,
PRECONDITION where its precondition is false, PENDING where it runs on, and OK with its effect where it completes at once. -/
def Obligations.ManagementCommands : Prop :=
  ∀ (s : State) (q : CmdReq) (e : (CmdReq → Instr) × Nat), CommandRows e →
    let k := e.2
    let body := odBody 0xF000 k 0 q.offset.toNat q.data
    let u := heard s q.h 0x11 body
    let arg := ofLe q.data
    let seq := q.h.seq.toNat
    let p : PendCmd := { sub := k, session := q.h.session, seq := q.h.seq, arg := q.data }
    let w : State := setCmdStatus { u with mgmt := { u.mgmt with pend := some p } } k 1 1 seq
    let z : State := setCmdStatus u k 2 0 seq
    let ok (P : State → Prop) : Prop := Completes (e.1 q) s (fun t => ∃ v, Replied v t q.h 0x11 0 [] ∧ P v)
    Accepts s q.h 0x11 body →
    (∀ o, s.mgmt.pend = some o → Completes (e.1 q) s (fun t =>
      Replied (if o.sub = k then u else setCmdStatus u k 2 2 seq) t q.h 0x11 2 []))
    ∧ (s.mgmt.pend = none → precondition u k arg = false → Completes (e.1 q) s (fun t =>
      Replied (setCmdStatus u k 2 3 seq) t q.h 0x11 3 []))
    ∧ (s.mgmt.pend = none → precondition u k arg = true →
      (k ∈ [0x01, 0x02, 0x04, 0x0A, 0x0E] → Completes (e.1 q) s (fun t => Replied w t q.h 0x11 1 []))
      ∧ (k = 0x06 → Completes (e.1 q) s (fun t => ∃ v, Replied v t q.h 0x11 1 [] ∧ v.boot.phase = .crownReset
          ∧ v.boot.crownSeq = true ∧ v.boot.waitCrownRst = false ∧ v.boot.cause = 1
          ∧ v.boot.crownResets = s.boot.crownResets + 1 ∧ v.pins.ready = false ∧ v.mgmt.pend = some p
          ∧ v.leaves = s.leaves ∧ v.mem = s.mem))
      ∧ (k = 0x0C → Completes (e.1 q) s (fun t => ∃ v g, Replied v t q.h 0x11 1 [] ∧ v.graft.load = some g
          ∧ v.mgmt.pend = some p ∧ v.graft.grafts = s.graft.grafts + 1
          ∧ (let ps := readImage s (fld arg 32 47) (fld arg 96 16 + 1)
            let bad : Bool := 32768 < fld arg 96 16 + 1 || !imageReadable s (fld arg 32 47) (imageLen ps)
              || ps.zipIdx.any (fun x => pktRefused s (BitVec.ofNat 16 arg) x.1 x.2) || targetBusy s (imageTargets s ps)
              || imageInCache s ps
            g.off = fld arg 32 47 ∧ g.packets = fld arg 96 16 + 1 ∧ g.image = BitVec.ofNat 16 arg ∧ g.doneGc = fld arg 16 12
            ∧ g.targets = imageTargets s ps ∧ g.startValue = (gcGet s (fld arg 16 12)).toNat + (imageTargets s ps).length
            ∧ g.round = 0 ∧ g.endAt = s.clk.us
            ∧ (bad = true → g.failed = true) ∧ (bad = false → odNat s 0x800004 = 0 → g.failed = false)
            ∧ v.graft.bus.map (fun b => (b.leaf, b.kind, b.p)) = (if g.failed then [] else
                ps.map (fun x => (none, x.1, x.2)) ++ [(none, 5, endPacket g 0)])
            ∧ (∀ b, v.graft.bus.head? = some b → b.at_ = s.clk.cclk)
            ∧ ∀ i b c, v.graft.bus[i]? = some b → v.graft.bus[i + 1]? = some c → c.at_ = b.at_ + b.p.payload.length + 1)
          ∧ v.leaves = s.leaves ∧ v.mem = s.mem ∧ v.hub = s.hub))
      ∧ (k = 0x03 → ok (fun v => v = { z with mgmt := { z.mgmt with profilePending := arg } }))
      ∧ (k = 0x05 → ok (fun v => v = { z with mram := { z.mram with profiles := mset none z.mram.profiles arg none } }))
      ∧ (k = 0x07 → ok (fun v =>
          portOf v arg = { armed := (portOf s arg).armed, absentRaised := (portOf s arg).absentRaised, since := s.clk.us }
          ∧ (∀ j, j ≠ arg → portOf v j = portOf s j) ∧ v.links.router = s.links.router.filter (fun x => x.1 ≠ arg)
          ∧ v.mgmt = z.mgmt ∧ v.leaves = s.leaves ∧ v.mem = s.mem ∧ v.coll = s.coll))
      ∧ (k = 0x08 → ok (fun v => v.mgmt.pend = none ∧ v.leaves = s.leaves ∧ v.mem = s.mem
          ∧ ∀ j, j < 4 → (portOf v j).armed = true
            ∧ ((portOf s j).state ≠ 3 → portOf v j = { portOf s j with armed := true })
            ∧ ((portOf s j).state = 3 → (portOf v j).lpSent = true)))
      ∧ (k = 0x09 → ok (fun v => v = { z with hub := { z.hub with gcs := [] }, leaves := v.leaves
                                              coll := { z.coll with posts := 0 } }
          ∧ ∀ l, leafOf v l = { leafOf s l with lcs := [], lcOld := [] }))
      ∧ (k = 0x0B → ok (fun v => v = { z with coll := { z.coll with groups := v.coll.groups } }
          ∧ ∀ g, cgroup v g = if g = arg then {} else cgroup s g))
      ∧ (k = 0x0D → ok (fun v => v = { z with boot := { z.boot with clears := s.boot.clears
          ++ (if arg = 0xFFFF then s.mram.defects else (s.mram.defects.drop arg).take 1) } })))

/-- R480, R548 to R550, R555, R557, R586, R587, R589, R597, R643, R651: CMD_DONE gives a PENDING command its effect and its
final status, once it can complete. -/
def Obligations.CommandsComplete : Prop :=
  ∀ (s : State) (p : PendCmd), s.mgmt.pend = some p →
    let arg := ofLe p.arg
    let done (P : State → Prop) : Prop := Completes .cmdDone s P
    let stored (keep : ObjDef → Bool) (m : SMap (List Byte)) : Prop :=
      ∀ o, o ∈ rwObjects → mget [] m o.key = if keep o then odValue s o else []
    (p.sub = 0x01 → done (fun t =>
      let n := (s.mram.commitCount + 1) % 2 ^ 32
      ∃ m used v, stored (fun o => o.nv) m
        ∧ Raised { s with mram := { s.mram with nvImage := m, nvUsed := used, commitCount := n } } v 0x08 0 0 n
        ∧ Finished v t p 0))
    ∧ (p.sub = 0x02 → done (fun t => Finished { s with mram := { s.mram with
        nvImage := [], nvUsed := 0, profiles := if arg = 2 then [] else s.mram.profiles } } t p 0))
    ∧ (p.sub = 0x04 → done (fun t => ∃ m, stored (fun o => o.prof) m
        ∧ Finished { s with
            mram := { s.mram with profiles := mset none s.mram.profiles arg (some m) }
            mgmt := { s.mgmt with overlay := if s.mgmt.profileActive = arg then m else s.mgmt.overlay } } t p 0))
    ∧ (p.sub = 0x06 → done (fun t =>
        if s.boot.crownSeq = false ∧ s.boot.phase = .compute then Finished s t p 0
        else if s.boot.crownSeq = false ∧ s.boot.phase = .crownDown then Finished s t p 5
        else t = s))
    ∧ (p.sub = 0x0A → done (fun t =>
        (∀ ws, groupList s arg = some ws →
          let x : CGroup := { members := ws.map (fun w => BitVec.ofNat 17 w), rank := ws.idxOf (chipId s), nextSeq := 0
                              crc := crc32c (ws.flatMap (fun w => leBytes w 4)) }
          let u := (groupRead s arg).1
          u.coll.groups = s.coll.groups ∧ u.mgmt.pend = some p
            ∧ Finished { u with coll := { u.coll with groups := mset {} s.coll.groups (fld arg 0 8) x } } t p 0)
        ∧ (groupList s arg = none → Finished (groupRead s arg).1 t p 5)))
    ∧ (p.sub = 0x0C → done (fun t =>
        (s.graft.load = none → Finished s t p 6)
        ∧ ∀ g, s.graft.load = some g →
          (g.failed = true → Finished { s with graft := { s.graft with load := none, bus := [] } } t p 5)
          ∧ (g.failed = false → g.startValue ≤ (gcGet s g.doneGc).toNat → Finished { s with graft := { s.graft with
              load := none, imageId := g.image, chain := sha384 (s.graft.chain ++ g.digest)
              log := s.graft.log ++ [(g.image, g.digest)] } } t p 0)
          ∧ (g.failed = false → (gcGet s g.doneGc).toNat < g.startValue → t = s)))
    ∧ (p.sub = 0x0E → done (fun t =>
        let m := staged s 0 0x2230
        let image := staged s 0x2230 (min (mImageLen m) 1039824)
        let r := checkManifest s 1 m image
        (r = 0 → Finished { s with mram := { s.mram with
          fwSlots := mset [] s.mram.fwSlots arg (m ++ image), preferred := arg } } t p 0)
        ∧ (r ≠ 0 → ∃ v, Raised s v 0x101 1 r (manifestPayload m) ∧ Finished v t p 5)))

/-! ## The machine as a whole -/

/-- Command `i` is the instruction word `w` with guard `g` at leaf `l` (R68, R77). -/
def LeafWord (i : Instr) (l w : Nat) (g : BitVec 4) : Prop :=
  (∃ (f : RR) (e : (Nat → RR → Instr) × Nat × Nat), i = e.1 l f ∧ g = f.g ∧ w = wRR e.2.1 e.2.2 f ∧ e ∈
    [(.nop, 0x00, 0), (.halt, 0x00, 1), (.stepBegin, 0x00, 2), (.stepEnd, 0x00, 3), (.tsw, 0x00, 4), (.mfsr, 0x00, 5),
     (.mtsr, 0x00, 6), (.add, 0x01, 0), (.sub, 0x01, 1), (.andR, 0x01, 2), (.orR, 0x01, 3), (.xorR, 0x01, 4),
     (.sll, 0x01, 5), (.srl, 0x01, 6), (.sra, 0x01, 7), (.mul, 0x01, 8), (.mulh, 0x01, 9), (.mulhu, 0x01, 10),
     (.minR, 0x01, 11), (.maxR, 0x01, 12), (.minu, 0x01, 13), (.maxu, 0x01, 14), (.clz, 0x01, 15), (.popc, 0x01, 16),
     (.movp, 0x01, 17), (.movtp, 0x01, 18), (.eq, 0x08, 0), (.ne, 0x08, 1), (.lt, 0x08, 2), (.ltu, 0x08, 3),
     (.ge, 0x08, 4), (.geu, 0x08, 5), (.pand, 0x0A, 0), (.por, 0x0A, 1), (.pxor, 0x0A, 2), (.pandn, 0x0A, 3),
     (.pnot, 0x0A, 4), (.pset, 0x0A, 5), (.pclr, 0x0A, 6)]
    ∨ i = e.1 l f ∧ g = f.g ∧ w = wRR e.2.1 e.2.2 f ∧ e ∈
    [(.sqpop, 0x21, 0), (.sqtag, 0x21, 1), (.sqpush, 0x21, 2), (.qtestv, 0x21, 3), (.qtests, 0x21, 4), (.qspacev, 0x21, 5),
     (.qspaces, 0x21, 6), (.lcinc, 0x22, 0), (.lcrd, 0x22, 1), (.ginc, 0x22, 2), (.gfinc, 0x22, 3), (.grd, 0x22, 4),
     (.bara, 0x22, 5), (.rldw, 0x25, 0), (.rstw, 0x25, 1), (.rstv, 0x25, 2), (.rfence, 0x25, 3), (.epost, 0x26, 0),
     (.dpost, 0x26, 1), (.dposth, 0x26, 2)])
  ∨ (∃ (f : RR) (e : (Nat → RR → Instr) × Nat × Nat), i = e.1 l f ∧ g = f.g ∧ w = wVV e.2.1 e.2.2 f ∧ (e ∈
    [(.vldx, 0x15, 0), (.vstx, 0x15, 1), (.vadd, 0x18, 0), (.vsub, 0x18, 1), (.vmul, 0x18, 2), (.vmulh, 0x18, 3),
     (.vand, 0x18, 4), (.vor, 0x18, 5), (.vxor, 0x18, 6), (.vsll, 0x18, 7), (.vsrl, 0x18, 8), (.vsra, 0x18, 9),
     (.vmin, 0x18, 10), (.vmax, 0x18, 11), (.vminu, 0x18, 12), (.vmaxu, 0x18, 13), (.vabs, 0x18, 14), (.vneg, 0x18, 15),
     (.vfadd, 0x19, 0), (.vfsub, 0x19, 1), (.vfmul, 0x19, 2), (.vfma, 0x19, 3), (.vfms, 0x19, 4), (.vfnma, 0x19, 5),
     (.vfmin, 0x19, 6), (.vfmax, 0x19, 7), (.vfabs, 0x19, 8), (.vfneg, 0x19, 9), (.vfdiv, 0x19, 10), (.vfsqrt, 0x19, 11)]
    ∨ e ∈
    [(.veq, 0x1A, 0), (.vne, 0x1A, 1), (.vlt, 0x1A, 2), (.vltu, 0x1A, 3), (.vge, 0x1A, 4), (.vgeu, 0x1A, 5),
     (.vfeq, 0x1A, 8), (.vfne, 0x1A, 9), (.vflt, 0x1A, 10), (.vfle, 0x1A, 11), (.vfun, 0x1A, 12), (.vsel, 0x1B, 0),
     (.vbcast, 0x1B, 1), (.vext, 0x1B, 2), (.vins, 0x1B, 3), (.vperm, 0x1B, 4), (.vrsum, 0x1B, 5), (.vfrsum, 0x1B, 6),
     (.vrmax, 0x1B, 7), (.vfrmax, 0x1B, 8), (.vfrmin, 0x1B, 9), (.mtm, 0x1B, 10), (.mfm, 0x1B, 11), (.mpopc, 0x1B, 12)]
    ∨ e ∈
    [(.vf2i, 0x1C, 0), (.vi2f, 0x1C, 1), (.vf2u, 0x1C, 2), (.vu2f, 0x1C, 3), (.vf2h, 0x1C, 4), (.vh2f, 0x1C, 5),
     (.vf2bf, 0x1C, 6), (.vbf2f, 0x1C, 7), (.vf2e4, 0x1C, 8), (.ve42f, 0x1C, 9), (.vf2e5, 0x1C, 10), (.ve52f, 0x1C, 11),
     (.vrcp, 0x1D, 0), (.vrsq, 0x1D, 1), (.vexp2, 0x1D, 2), (.vlog2, 0x1D, 3), (.vtanh, 0x1D, 4), (.vsigm, 0x1D, 5)]))
  ∨ (∃ (f : RI) (e : (Nat → RI → Instr) × Nat), i = e.1 l f ∧ g = f.g ∧ w = wRI e.2 f ∧ e ∈
    [(.addi, 0x02), (.andi, 0x03), (.ori, 0x04), (.xori, 0x05), (.ldw, 0x10), (.stw, 0x11), (.vld, 0x13), (.vst, 0x14)])
  ∨ (∃ (f : SHf) (e : (Nat → SHf → Instr) × Nat), i = e.1 l f ∧ g = f.g ∧ w = wSH e.2 f ∧ e ∈
    [(.slli, 0), (.srli, 1), (.srai, 2)])
  ∨ (∃ (f : LIf) (e : (Nat → LIf → Instr) × Nat), i = e.1 l f ∧ g = f.g ∧ w = wLI e.2 f ∧ e ∈ [(.li, 0), (.lih, 1)])
  ∨ (∃ (f : CMPf) (e : (Nat → CMPf → Instr) × Nat), i = e.1 l f ∧ g = f.g ∧ w = wCMP e.2 f ∧ e ∈
    [(.cmpiEq, 0), (.cmpiNe, 1), (.cmpiLt, 2), (.cmpiGe, 3)])
  ∨ (∃ f : BRf, i = .br l f ∧ g = f.g ∧ w = wBR f) ∨ (∃ f : LPf, i = .loopR l f ∧ g = f.g ∧ w = wLP f)
  ∨ (∃ f : LPIf, i = .loopi l f ∧ g = f.g ∧ w = wLPI f) ∨ (∃ f : AGSf, i = .agset l f ∧ g = f.g ∧ w = wAGS f)
  ∨ (∃ (f : AGf) (e : (Nat → AGf → Instr) × Nat × Nat), i = e.1 l f ∧ g = f.g ∧ w = wAG e.2.1 e.2.2 f ∧ e ∈
    [(.lda, 0, 0), (.sta, 0, 1), (.vlda, 1, 0), (.vsta, 1, 1)])
  ∨ (∃ (f : Sf) (e : (Nat → Sf → Instr) × Nat), i = e.1 l f ∧ g = f.g ∧ w = wS e.2 f ∧ e ∈
    [(.steer, 0), (.merge, 1), (.filter, 2), (.ssteer, 4), (.smerge, 5), (.sfilter, 6)])
  ∨ (∃ (f : Wf) (e : (Nat → Wf → Instr) × Nat), i = e.1 l f ∧ g = f.g ∧ w = wW e.2 f ∧ e ∈ [(.lcwait, 0x23), (.gwait, 0x24)])

/-- R63, R69, R75: an instruction stands at tcode.BASE + index; before the cycle after the last one, or before its member's group cycle
(R300), it stalls; outside SIZE it faults CODE_BOUND and as an undefined word ILLEGAL_INSTR, before its guard is looked at; with its
guard off it takes its issue cycle, and nothing else happens. -/
def Obligations.GuardsAndFetch : Prop :=
  ∀ (i : Instr) (l w : Nat) (g : BitVec 4), LeafWord i l w g → ∀ s : State, canIssue s l = true →
    let x := leafOf s l
    let base := (mget 0 x.tcode x.task).toNat % 2 ^ 12
    let size := (mget 0 x.tcode x.task).toNat / 2 ^ 16 % 2 ^ 13
    let faulted (code : Nat) : Prop := Completes i s (fun t =>
      (leafOf t l).run = .faulted ∧ (leafOf t l).faultCode = BitVec.ofNat 8 code ∧ SameRegs x (leafOf t l)
        ∧ (leafOf t l).pc = x.pc ∧ SameMem s t ∧ ∀ k, k ≠ l → leafOf t k = leafOf s k)
    fetchWord x = (mget 0 x.istore (base + x.pc)).toNat
    ∧ (guardOn x 0 = true
      ∧ ∀ n : Nat, n < 8 → guardOn x (BitVec.ofNat 4 (8 + n)) = x.preds.getLsbD n
        ∧ (n ≠ 0 → guardOn x (BitVec.ofNat 4 n) = !x.preds.getLsbD n))
    ∧ (leafNow s x < x.nextIssue ∨ memberWaits s x = true → Completes i s (fun t => t = { s with leaves := t.leaves }
        ∧ (leafOf t l = { x with stall := some .operand }) ∧ ∀ k, k ≠ l → leafOf t k = leafOf s k))
    ∧ (x.nextIssue ≤ leafNow s x → memberWaits s x = false →
      (size ≤ x.pc → faulted 0x02)
      ∧ (x.pc < size → legalWord (fetchWord x) = false → faulted 0x01)
      ∧ (x.pc < size → legalWord w = true → fetchWord x = w → guardOn x g = false →
        x.errs.any (fun e => e.at_ ≤ s.clk.cclk) = false → rejoinDue x = false →
        Completes i s (fun t => Issued s t l (leafNow s x) [] [] none 0)))

/-- The command in front of the queue is executed on the rest of the queue. What an empty queue does is the model's choice (log 1): a
clock cycle, and nothing while PORST_N is low; and so is it that a command naming another word than the leaf's next one does nothing
(log 11). -/
def Obligations.StepRunsFrontCommand : Prop :=
  (∀ (s : State) (c : Instr) (rest : List Instr), s.pending = c :: rest → step s = exec c { s with pending := rest })
  ∧ (∀ s : State, s.pending = [] → ∃ t, step s = .next t ∧ t.pending = [] ∧ (s.pins.porst = false → t = s))
  ∧ (∀ (i : Instr) (l w : Nat) (g : BitVec 4) (s : State), LeafWord i l w g →
      (canIssue s l = false ∨ ((leafOf s l).nextIssue ≤ leafNow s (leafOf s l) ∧ memberWaits s (leafOf s l) = false
        ∧ (leafOf s l).pc < fld (mget 0 (leafOf s l).tcode (leafOf s l).task).toNat 16 13
        ∧ legalWord (fetchWord (leafOf s l)) = true ∧ fetchWord (leafOf s l) ≠ w)) → exec i s = .next s)

/-- R546, R559, R570, R585, R671: the chiplet as PORST_N holds it: nothing waits, READY is low, no leaf has started, every
counter is zero, the log is empty, no session is open and every writable object reads its default; the invariants hold. -/
def Obligations.ResetState : Prop :=
  let s := State.reset
  s.pending = [] ∧ s.pins.porst = false ∧ s.pins.ready = false ∧ s.boot.phase = .romBoot ∧ s.boot.debugLocked = true
  ∧ (∀ l, leafOf s l = {} ∧ (leafOf s l).run = .notStarted ∧ ∀ k, lcGet s l k = 0) ∧ (∀ n, gcGet s n = 0)
  ∧ (∀ b, engOf s b = {}) ∧ (∀ c, colOf s c = {}) ∧ (∀ p, portOf s p = {}) ∧ (∀ k, cslot s k = none)
  ∧ (∀ k, sessionAt s k = none ∧ sessionState s k = 0xFFFF000000000000)
  ∧ s.log.entries = [] ∧ s.log.head = 0 ∧ s.mgmt.pend = none
  ∧ (∀ o, o ∈ rwObjects → odValue s o = o.dflt) ∧ groveId s = 0xFFFF ∧ s.graft.imageId = 0xFFFF
  ∧ s.graft.chain = List.replicate 48 0
  ∧ MemCanonical s ∧ LogInOrder s.log ∧ ReadyInCompute s ∧ DebugWrapped s.fuse

/-- Every step keeps the memory's canonical form and the order of the event log's ring (R559, R560), and a command leaves the
queue as it is. -/
def Obligations.MachineInvariantKept : Prop :=
  (∀ s t : State, step s = .next t → MemCanonical s → LogInOrder s.log → MemCanonical t ∧ LogInOrder t.log)
  ∧ (∀ (i : Instr) (s t : State), exec i s = .next t → t.pending = s.pending)

/-- R571: READY is low from the assertion of PORST_N until ready_phase becomes COMPUTE, high in COMPUTE, and low again when
ready_phase leaves it: an invariant of every step. -/
def Obligations.ReadyFollowsCompute : Prop :=
  ReadyInCompute State.reset
  ∧ (∀ s t : State, step s = .next t → ReadyInCompute s → ReadyInCompute t)
  ∧ (∀ s : State, Completes .porstNAssert s (fun t => t.pins.ready = false ∧ t.boot.phase = .romBoot))

/-- R632: in DEBUG and RETIRED the wrap-disable fuse is blown, it stays blown, and a blown fuse fails every quote request
with NO_DEVICE_KEYS. -/
def Obligations.WrapFuseIsFinal : Prop :=
  DebugWrapped State.reset.fuse
  ∧ (∀ s t : State, step s = .next t → DebugWrapped s.fuse → DebugWrapped t.fuse)
  ∧ (∀ s t : State, step s = .next t → s.fuse.wrapDisabled = true → t.fuse.wrapDisabled = true)
  ∧ (∀ (s : State) (q : Conas), s.fuse.wrapDisabled = true → Accepts s q.h 0x31 q.body →
      Completes (if bodyNat q.body 0 4 = 0 then .quoteBuild q else .quoteRead q) s (fun t =>
        Replied (heard s q.h 0x31 q.body) t q.h 0x31 5 (leBytes 0x13 4)))

/-- R200, R438: store_round_default, hw_scrub_period and hw_retire_threshold take the values of their ranges; a write of any
other value answers ACCESS_RIGHT and leaves the object unchanged. -/
def Obligations.WriteRangesEnforced : Prop :=
  ∀ (s : State) (q : OdReq) (lo hi : Nat) (x : Session),
    let key := q.index.toNat * 256 + q.sub.toNat
    (key, lo, hi) ∈ [(0x310002, 1, 3), (0x400101, 60, 86400), (0x400102, 1, 255)] →
    s.pins.porst = true → 2 ≤ phaseCode s.boot.phase → s.boot.recovery = false → s.fuse.lifecycle ≠ 5 →
    q.h.version = 1 → q.h.resp = false → q.h.rsv = false → q.h.length = 8 + q.data.length → q.h.session.toNat < 8 →
    boundSession s q.h = some x → 1 ≤ (q.h.seq - x.lastSeq).toNat → (q.h.seq - x.lastSeq).toNat ≤ 256 →
    q.zero = 0 → q.offset = 0 → q.data.length = (odBytes s key).length →
    atHead s q.h 0x11 (odBody q.index.toNat q.sub.toNat 0 0 q.data) = true →
    ((lo ≤ ofLe q.data ∧ ofLe q.data ≤ hi) → Completes (.odWrite q) s (fun t =>
      odBytes t key = q.data ∧ ∃ v, Replied v t q.h 0x11 0 []))
    ∧ (¬ (lo ≤ ofLe q.data ∧ ofLe q.data ≤ hi) → Completes (.odWrite q) s (fun t =>
      odBytes t key = odBytes s key ∧ ∃ v, Sent v t q.h (response q.h 0x11 0x24 [])))
end

