-- ==== Sys2Proof/Laws/Maps.lean ====
section
/-! SUPPORT. Sparse maps: a read after a write, and the canonical form that every write keeps. -/
namespace Sys2Proof.Machine

variable {α : Type}

theorem mget_minsert_self (d v : α) (k : Nat) (m : SMap α) (h : ∀ p ∈ m, p.1 ≠ k) : mget d (minsert k v m) k = v := by
  induction m with
  | nil => simp [minsert, mget]
  | cons p r ih =>
    obtain ⟨j, w⟩ := p
    have hj : j ≠ k := h (j, w) (by simp)
    simp only [minsert]
    split
    · simp [mget]
    · simp only [mget, hj, if_false]
      exact ih (fun q hq => h q (by simp [hq]))

theorem mget_minsert_other (d v : α) (k n : Nat) (m : SMap α) (h : n ≠ k) : mget d (minsert k v m) n = mget d m n := by
  induction m with
  | nil => simp [minsert, mget, h.symm]
  | cons p r ih =>
    obtain ⟨j, w⟩ := p
    simp only [minsert]
    split
    · simp [mget, h.symm]
    · simp only [mget, ih]

theorem mget_filter_self (d : α) (k : Nat) (m : SMap α) : mget d (m.filter (fun p => decide (p.1 ≠ k))) k = d := by
  induction m with
  | nil => rfl
  | cons p r ih =>
    by_cases h : p.1 = k
    · simpa [List.filter, h] using ih
    · simp only [List.filter, h, ne_eq, not_false_eq_true, decide_true, mget, if_false]
      exact ih

theorem mget_filter_other (d : α) (k n : Nat) (m : SMap α) (h : n ≠ k) :
    mget d (m.filter (fun p => decide (p.1 ≠ k))) n = mget d m n := by
  induction m with
  | nil => rfl
  | cons p r ih =>
    by_cases hp : p.1 = k
    · have : p.1 ≠ n := fun e => h (e ▸ hp)
      simp only [List.filter, hp, ne_eq, not_true_eq_false, decide_false, mget, ih]
      simp [hp ▸ this]
    · simp only [List.filter, hp, ne_eq, not_false_eq_true, decide_true, mget, ih]

@[simp] theorem mget_mset_self [DecidableEq α] (d v : α) (m : SMap α) (k : Nat) : mget d (mset d m k v) k = v := by
  unfold mset
  split
  · rename_i h; rw [mget_filter_self, h]
  · exact mget_minsert_self d v k _ (fun p hp => by simpa using (List.mem_filter.mp hp).2)

theorem mget_mset_other [DecidableEq α] (d v : α) (m : SMap α) (k n : Nat) (h : n ≠ k) :
    mget d (mset d m k v) n = mget d m n := by
  unfold mset
  split
  · exact mget_filter_other d k n m h
  · rw [mget_minsert_other _ _ _ _ _ h, mget_filter_other d k n m h]

theorem mget_mset [DecidableEq α] (d v : α) (m : SMap α) (k n : Nat) :
    mget d (mset d m k v) n = if n = k then v else mget d m n := by
  split
  · rename_i h; rw [h, mget_mset_self]
  · rename_i h; exact mget_mset_other d v m k n h

/-! ## Canonical form -/

theorem mwf_cons [DecidableEq α] (d v : α) (k : Nat) (r : SMap α) :
    mwf d ((k, v) :: r) = true ↔ v ≠ d ∧ (∀ p ∈ r, k < p.1) ∧ mwf d r = true := by
  simp [mwf, and_assoc]

theorem mwf_filter [DecidableEq α] (d : α) (f : Nat × α → Bool) (m : SMap α) (h : mwf d m = true) :
    mwf d (m.filter f) = true := by
  induction m with
  | nil => rfl
  | cons p r ih =>
    obtain ⟨k, v⟩ := p
    obtain ⟨hv, hk, hr⟩ := (mwf_cons d v k r).mp h
    by_cases hf : f (k, v) = true
    · rw [List.filter_cons_of_pos hf, mwf_cons]
      exact ⟨hv, fun p hp => hk p (List.mem_filter.mp hp).1, ih hr⟩
    · rw [List.filter_cons_of_neg hf]; exact ih hr

theorem mem_minsert (k : Nat) (v : α) (m : SMap α) (p : Nat × α) (h : p ∈ minsert k v m) : p = (k, v) ∨ p ∈ m := by
  induction m with
  | nil => exact .inl (by simpa [minsert] using h)
  | cons q r ih =>
    obtain ⟨j, w⟩ := q
    simp only [minsert] at h
    split at h
    · rcases List.mem_cons.mp h with h | h
      · exact .inl h
      · exact .inr h
    · rcases List.mem_cons.mp h with h | h
      · exact .inr (by simp [h])
      · rcases ih h with h | h
        · exact .inl h
        · exact .inr (by simp [h])

theorem mwf_minsert [DecidableEq α] (d v : α) (k : Nat) (m : SMap α) (hv : v ≠ d) (hm : mwf d m = true)
    (hk : ∀ p ∈ m, p.1 ≠ k) : mwf d (minsert k v m) = true := by
  induction m with
  | nil => simp [minsert, mwf, hv]
  | cons q r ih =>
    obtain ⟨j, w⟩ := q
    obtain ⟨hw, hj, hr⟩ := (mwf_cons d w j r).mp hm
    have hne : j ≠ k := hk (j, w) (by simp)
    simp only [minsert]
    split
    · rename_i hlt
      rw [mwf_cons]
      refine ⟨hv, fun p hp => ?_, hm⟩
      rcases List.mem_cons.mp hp with hp | hp
      · rw [hp]; exact hlt
      · exact Nat.lt_trans hlt (hj p hp)
    · rename_i hlt
      rw [mwf_cons]
      refine ⟨hw, fun p hp => ?_, ih hr (fun p hp => hk p (by simp [hp]))⟩
      rcases mem_minsert k v r p hp with hp | hp
      · rw [hp]; show j < k; omega
      · exact hj p hp

theorem mwf_mset [DecidableEq α] (d v : α) (m : SMap α) (k : Nat) (h : mwf d m = true) : mwf d (mset d m k v) = true := by
  unfold mset
  split
  · exact mwf_filter d _ m h
  · rename_i hv
    exact mwf_minsert d v k _ hv (mwf_filter d _ m h) (fun p hp => by simpa using (List.mem_filter.mp hp).2)

/-- A changed map reads the changed value, whatever the list. -/
theorem mget_mmap [DecidableEq α] (d : α) (m : SMap α) (f : Nat → α → α) (k : Nat) (hd : f k d = d) :
    mget d (mmap d m f) k = f k (mget d m k) := by
  induction m with
  | nil => exact hd.symm
  | cons q r ih =>
    obtain ⟨j, w⟩ := q
    have e : mmap d ((j, w) :: r) f = mset d (mmap d r f) j (f j w) := rfl
    rw [e, mget_mset]
    by_cases h : k = j
    · subst h; simp [mget]
    · have : j ≠ k := fun c => h c.symm
      simp [mget, h, this, ih]

theorem mwf_mmap [DecidableEq α] (d : α) (m : SMap α) (f : Nat → α → α) : mwf d (mmap d m f) = true := by
  induction m with
  | nil => rfl
  | cons q r ih => exact mwf_mset d _ _ _ ih

end Sys2Proof.Machine
end

