-- ==== Sys2Proof/Laws/Memory.lean ====
section
/-! SUPPORT. Memory (R45, R50): reads after writes, and the canonical form, which every memory operation keeps. -/
namespace Sys2Proof.Machine

@[simp] theorem readByte_writeByte_self (m : List Host.Cell) (a : Nat) (b : Byte) : readByte (writeByte m a b) a = b := by
  simp [readByte, writeByte]

theorem readByte_writeByte_other (m : List Host.Cell) (a c : Nat) (b : Byte) (h : c ≠ a) :
    readByte (writeByte m a b) c = readByte m c := mget_mset_other 0 b m a c h

theorem readByte_writeBytes_outside (m : List Host.Cell) (a c : Nat) (bs : List Byte) (h : c < a ∨ a + bs.length ≤ c) :
    readByte (writeBytes m a bs) c = readByte m c := by
  induction bs generalizing m a with
  | nil => rfl
  | cons b r ih =>
    simp only [List.length_cons] at h
    rw [writeBytes, ih _ _ (by omega)]
    exact readByte_writeByte_other m a c b (by omega)

theorem readByte_writeBytes_inside (m : List Host.Cell) (a i : Nat) (bs : List Byte) (h : i < bs.length) :
    readByte (writeBytes m a bs) (a + i) = bs.getD i 0 := by
  induction bs generalizing m a i with
  | nil => simp at h
  | cons b r ih =>
    cases i with
    | zero =>
      rw [writeBytes, Nat.add_zero, readByte_writeBytes_outside _ _ _ _ (by omega)]
      simp
    | succ i =>
      simp only [List.length_cons] at h
      have e : a + (i + 1) = a + 1 + i := by omega
      rw [writeBytes, e, ih _ _ _ (by omega)]
      simp

theorem readByte_zeroRange (m : List Host.Cell) (lo hi a : Nat) :
    readByte (zeroRange m lo hi) a = if lo ≤ a ∧ a < hi then 0 else readByte m a := by
  unfold readByte zeroRange
  induction m with
  | nil => simp [mget]
  | cons p r ih =>
    obtain ⟨k, v⟩ := p
    by_cases hk : k < lo ∨ hi ≤ k
    · simp only [hk, decide_true, List.filter_cons_of_pos, mget, ih]
      by_cases hka : k = a
      · subst hka
        rw [if_pos rfl, if_pos rfl, if_neg (by omega)]
      · simp [hka]
    · simp only [hk, decide_false, Bool.false_eq_true, not_false_eq_true, List.filter_cons_of_neg, mget, ih]
      by_cases hka : k = a
      · subst hka
        rw [if_pos (by omega), if_pos (by omega)]
      · simp [hka]

theorem memWf_writeByte (m : List Host.Cell) (a : Nat) (b : Byte) (h : memWf m = true) : memWf (writeByte m a b) = true :=
  mwf_mset 0 b m a h

theorem memWf_writeBytes (m : List Host.Cell) (a : Nat) (bs : List Byte) (h : memWf m = true) :
    memWf (writeBytes m a bs) = true := by
  induction bs generalizing m a with
  | nil => exact h
  | cons b r ih => exact ih _ _ (memWf_writeByte m a b h)

theorem memWf_zeroRange (m : List Host.Cell) (lo hi : Nat) (h : memWf m = true) : memWf (zeroRange m lo hi) = true :=
  mwf_filter 0 _ m h

end Sys2Proof.Machine
end

