-- ==== Sys2Proof/Laws/State.lean ====
section
/-! SUPPORT. What the named updates of the state leave as it was, one lemma per field and update; and a unit read after a
unit written. -/
namespace Sys2Proof.Machine

variable (s : State)

@[simp] theorem setLeaf_pending (l : Nat) (x : Leaf) : (setLeaf s l x).pending = s.pending := rfl
@[simp] theorem setLeaf_pins (l : Nat) (x : Leaf) : (setLeaf s l x).pins = s.pins := rfl
@[simp] theorem setLeaf_clk (l : Nat) (x : Leaf) : (setLeaf s l x).clk = s.clk := rfl
@[simp] theorem setLeaf_tap (l : Nat) (x : Leaf) : (setLeaf s l x).tap = s.tap := rfl
@[simp] theorem setLeaf_part (l : Nat) (x : Leaf) : (setLeaf s l x).part = s.part := rfl
@[simp] theorem setLeaf_fuse (l : Nat) (x : Leaf) : (setLeaf s l x).fuse = s.fuse := rfl
@[simp] theorem setLeaf_mram (l : Nat) (x : Leaf) : (setLeaf s l x).mram = s.mram := rfl
@[simp] theorem setLeaf_boot (l : Nat) (x : Leaf) : (setLeaf s l x).boot = s.boot := rfl
@[simp] theorem setLeaf_gov (l : Nat) (x : Leaf) : (setLeaf s l x).gov = s.gov := rfl
@[simp] theorem setLeaf_mgmt (l : Nat) (x : Leaf) : (setLeaf s l x).mgmt = s.mgmt := rfl
@[simp] theorem setLeaf_log (l : Nat) (x : Leaf) : (setLeaf s l x).log = s.log := rfl
@[simp] theorem setLeaf_graft (l : Nat) (x : Leaf) : (setLeaf s l x).graft = s.graft := rfl
@[simp] theorem setLeaf_mem (l : Nat) (x : Leaf) : (setLeaf s l x).mem = s.mem := rfl
@[simp] theorem setLeaf_hwPoison (l : Nat) (x : Leaf) : (setLeaf s l x).hwPoison = s.hwPoison := rfl
@[simp] theorem setLeaf_engines (l : Nat) (x : Leaf) : (setLeaf s l x).engines = s.engines := rfl
@[simp] theorem setLeaf_columns (l : Nat) (x : Leaf) : (setLeaf s l x).columns = s.columns := rfl
@[simp] theorem setLeaf_hub (l : Nat) (x : Leaf) : (setLeaf s l x).hub = s.hub := rfl
@[simp] theorem setLeaf_net (l : Nat) (x : Leaf) : (setLeaf s l x).net = s.net := rfl
@[simp] theorem setLeaf_links (l : Nat) (x : Leaf) : (setLeaf s l x).links = s.links := rfl
@[simp] theorem setLeaf_coll (l : Nat) (x : Leaf) : (setLeaf s l x).coll = s.coll := rfl
@[simp] theorem setLeaf_free (l : Nat) (x : Leaf) : (setLeaf s l x).free = s.free := rfl

@[simp] theorem modLeaf_pending (l : Nat) (f : Leaf → Leaf) : (modLeaf s l f).pending = s.pending := rfl
@[simp] theorem modLeaf_pins (l : Nat) (f : Leaf → Leaf) : (modLeaf s l f).pins = s.pins := rfl
@[simp] theorem modLeaf_clk (l : Nat) (f : Leaf → Leaf) : (modLeaf s l f).clk = s.clk := rfl
@[simp] theorem modLeaf_tap (l : Nat) (f : Leaf → Leaf) : (modLeaf s l f).tap = s.tap := rfl
@[simp] theorem modLeaf_part (l : Nat) (f : Leaf → Leaf) : (modLeaf s l f).part = s.part := rfl
@[simp] theorem modLeaf_fuse (l : Nat) (f : Leaf → Leaf) : (modLeaf s l f).fuse = s.fuse := rfl
@[simp] theorem modLeaf_mram (l : Nat) (f : Leaf → Leaf) : (modLeaf s l f).mram = s.mram := rfl
@[simp] theorem modLeaf_boot (l : Nat) (f : Leaf → Leaf) : (modLeaf s l f).boot = s.boot := rfl
@[simp] theorem modLeaf_gov (l : Nat) (f : Leaf → Leaf) : (modLeaf s l f).gov = s.gov := rfl
@[simp] theorem modLeaf_mgmt (l : Nat) (f : Leaf → Leaf) : (modLeaf s l f).mgmt = s.mgmt := rfl
@[simp] theorem modLeaf_log (l : Nat) (f : Leaf → Leaf) : (modLeaf s l f).log = s.log := rfl
@[simp] theorem modLeaf_graft (l : Nat) (f : Leaf → Leaf) : (modLeaf s l f).graft = s.graft := rfl
@[simp] theorem modLeaf_mem (l : Nat) (f : Leaf → Leaf) : (modLeaf s l f).mem = s.mem := rfl
@[simp] theorem modLeaf_hwPoison (l : Nat) (f : Leaf → Leaf) : (modLeaf s l f).hwPoison = s.hwPoison := rfl
@[simp] theorem modLeaf_engines (l : Nat) (f : Leaf → Leaf) : (modLeaf s l f).engines = s.engines := rfl
@[simp] theorem modLeaf_columns (l : Nat) (f : Leaf → Leaf) : (modLeaf s l f).columns = s.columns := rfl
@[simp] theorem modLeaf_hub (l : Nat) (f : Leaf → Leaf) : (modLeaf s l f).hub = s.hub := rfl
@[simp] theorem modLeaf_net (l : Nat) (f : Leaf → Leaf) : (modLeaf s l f).net = s.net := rfl
@[simp] theorem modLeaf_links (l : Nat) (f : Leaf → Leaf) : (modLeaf s l f).links = s.links := rfl
@[simp] theorem modLeaf_coll (l : Nat) (f : Leaf → Leaf) : (modLeaf s l f).coll = s.coll := rfl
@[simp] theorem modLeaf_free (l : Nat) (f : Leaf → Leaf) : (modLeaf s l f).free = s.free := rfl

@[simp] theorem setEng_pending (b : Nat) (x : Engine) : (setEng s b x).pending = s.pending := rfl
@[simp] theorem setEng_pins (b : Nat) (x : Engine) : (setEng s b x).pins = s.pins := rfl
@[simp] theorem setEng_clk (b : Nat) (x : Engine) : (setEng s b x).clk = s.clk := rfl
@[simp] theorem setEng_tap (b : Nat) (x : Engine) : (setEng s b x).tap = s.tap := rfl
@[simp] theorem setEng_part (b : Nat) (x : Engine) : (setEng s b x).part = s.part := rfl
@[simp] theorem setEng_fuse (b : Nat) (x : Engine) : (setEng s b x).fuse = s.fuse := rfl
@[simp] theorem setEng_mram (b : Nat) (x : Engine) : (setEng s b x).mram = s.mram := rfl
@[simp] theorem setEng_boot (b : Nat) (x : Engine) : (setEng s b x).boot = s.boot := rfl
@[simp] theorem setEng_gov (b : Nat) (x : Engine) : (setEng s b x).gov = s.gov := rfl
@[simp] theorem setEng_mgmt (b : Nat) (x : Engine) : (setEng s b x).mgmt = s.mgmt := rfl
@[simp] theorem setEng_log (b : Nat) (x : Engine) : (setEng s b x).log = s.log := rfl
@[simp] theorem setEng_graft (b : Nat) (x : Engine) : (setEng s b x).graft = s.graft := rfl
@[simp] theorem setEng_mem (b : Nat) (x : Engine) : (setEng s b x).mem = s.mem := rfl
@[simp] theorem setEng_hwPoison (b : Nat) (x : Engine) : (setEng s b x).hwPoison = s.hwPoison := rfl
@[simp] theorem setEng_leaves (b : Nat) (x : Engine) : (setEng s b x).leaves = s.leaves := rfl
@[simp] theorem setEng_columns (b : Nat) (x : Engine) : (setEng s b x).columns = s.columns := rfl
@[simp] theorem setEng_hub (b : Nat) (x : Engine) : (setEng s b x).hub = s.hub := rfl
@[simp] theorem setEng_net (b : Nat) (x : Engine) : (setEng s b x).net = s.net := rfl
@[simp] theorem setEng_links (b : Nat) (x : Engine) : (setEng s b x).links = s.links := rfl
@[simp] theorem setEng_coll (b : Nat) (x : Engine) : (setEng s b x).coll = s.coll := rfl
@[simp] theorem setEng_free (b : Nat) (x : Engine) : (setEng s b x).free = s.free := rfl

@[simp] theorem modEng_pending (b : Nat) (f : Engine → Engine) : (modEng s b f).pending = s.pending := rfl
@[simp] theorem modEng_pins (b : Nat) (f : Engine → Engine) : (modEng s b f).pins = s.pins := rfl
@[simp] theorem modEng_clk (b : Nat) (f : Engine → Engine) : (modEng s b f).clk = s.clk := rfl
@[simp] theorem modEng_tap (b : Nat) (f : Engine → Engine) : (modEng s b f).tap = s.tap := rfl
@[simp] theorem modEng_part (b : Nat) (f : Engine → Engine) : (modEng s b f).part = s.part := rfl
@[simp] theorem modEng_fuse (b : Nat) (f : Engine → Engine) : (modEng s b f).fuse = s.fuse := rfl
@[simp] theorem modEng_mram (b : Nat) (f : Engine → Engine) : (modEng s b f).mram = s.mram := rfl
@[simp] theorem modEng_boot (b : Nat) (f : Engine → Engine) : (modEng s b f).boot = s.boot := rfl
@[simp] theorem modEng_gov (b : Nat) (f : Engine → Engine) : (modEng s b f).gov = s.gov := rfl
@[simp] theorem modEng_mgmt (b : Nat) (f : Engine → Engine) : (modEng s b f).mgmt = s.mgmt := rfl
@[simp] theorem modEng_log (b : Nat) (f : Engine → Engine) : (modEng s b f).log = s.log := rfl
@[simp] theorem modEng_graft (b : Nat) (f : Engine → Engine) : (modEng s b f).graft = s.graft := rfl
@[simp] theorem modEng_mem (b : Nat) (f : Engine → Engine) : (modEng s b f).mem = s.mem := rfl
@[simp] theorem modEng_hwPoison (b : Nat) (f : Engine → Engine) : (modEng s b f).hwPoison = s.hwPoison := rfl
@[simp] theorem modEng_leaves (b : Nat) (f : Engine → Engine) : (modEng s b f).leaves = s.leaves := rfl
@[simp] theorem modEng_columns (b : Nat) (f : Engine → Engine) : (modEng s b f).columns = s.columns := rfl
@[simp] theorem modEng_hub (b : Nat) (f : Engine → Engine) : (modEng s b f).hub = s.hub := rfl
@[simp] theorem modEng_net (b : Nat) (f : Engine → Engine) : (modEng s b f).net = s.net := rfl
@[simp] theorem modEng_links (b : Nat) (f : Engine → Engine) : (modEng s b f).links = s.links := rfl
@[simp] theorem modEng_coll (b : Nat) (f : Engine → Engine) : (modEng s b f).coll = s.coll := rfl
@[simp] theorem modEng_free (b : Nat) (f : Engine → Engine) : (modEng s b f).free = s.free := rfl

@[simp] theorem setCol_pending (c : Nat) (x : Column) : (setCol s c x).pending = s.pending := rfl
@[simp] theorem setCol_pins (c : Nat) (x : Column) : (setCol s c x).pins = s.pins := rfl
@[simp] theorem setCol_clk (c : Nat) (x : Column) : (setCol s c x).clk = s.clk := rfl
@[simp] theorem setCol_tap (c : Nat) (x : Column) : (setCol s c x).tap = s.tap := rfl
@[simp] theorem setCol_part (c : Nat) (x : Column) : (setCol s c x).part = s.part := rfl
@[simp] theorem setCol_fuse (c : Nat) (x : Column) : (setCol s c x).fuse = s.fuse := rfl
@[simp] theorem setCol_mram (c : Nat) (x : Column) : (setCol s c x).mram = s.mram := rfl
@[simp] theorem setCol_boot (c : Nat) (x : Column) : (setCol s c x).boot = s.boot := rfl
@[simp] theorem setCol_gov (c : Nat) (x : Column) : (setCol s c x).gov = s.gov := rfl
@[simp] theorem setCol_mgmt (c : Nat) (x : Column) : (setCol s c x).mgmt = s.mgmt := rfl
@[simp] theorem setCol_log (c : Nat) (x : Column) : (setCol s c x).log = s.log := rfl
@[simp] theorem setCol_graft (c : Nat) (x : Column) : (setCol s c x).graft = s.graft := rfl
@[simp] theorem setCol_mem (c : Nat) (x : Column) : (setCol s c x).mem = s.mem := rfl
@[simp] theorem setCol_hwPoison (c : Nat) (x : Column) : (setCol s c x).hwPoison = s.hwPoison := rfl
@[simp] theorem setCol_leaves (c : Nat) (x : Column) : (setCol s c x).leaves = s.leaves := rfl
@[simp] theorem setCol_engines (c : Nat) (x : Column) : (setCol s c x).engines = s.engines := rfl
@[simp] theorem setCol_hub (c : Nat) (x : Column) : (setCol s c x).hub = s.hub := rfl
@[simp] theorem setCol_net (c : Nat) (x : Column) : (setCol s c x).net = s.net := rfl
@[simp] theorem setCol_links (c : Nat) (x : Column) : (setCol s c x).links = s.links := rfl
@[simp] theorem setCol_coll (c : Nat) (x : Column) : (setCol s c x).coll = s.coll := rfl
@[simp] theorem setCol_free (c : Nat) (x : Column) : (setCol s c x).free = s.free := rfl

@[simp] theorem modCol_pending (c : Nat) (f : Column → Column) : (modCol s c f).pending = s.pending := rfl
@[simp] theorem modCol_pins (c : Nat) (f : Column → Column) : (modCol s c f).pins = s.pins := rfl
@[simp] theorem modCol_clk (c : Nat) (f : Column → Column) : (modCol s c f).clk = s.clk := rfl
@[simp] theorem modCol_tap (c : Nat) (f : Column → Column) : (modCol s c f).tap = s.tap := rfl
@[simp] theorem modCol_part (c : Nat) (f : Column → Column) : (modCol s c f).part = s.part := rfl
@[simp] theorem modCol_fuse (c : Nat) (f : Column → Column) : (modCol s c f).fuse = s.fuse := rfl
@[simp] theorem modCol_mram (c : Nat) (f : Column → Column) : (modCol s c f).mram = s.mram := rfl
@[simp] theorem modCol_boot (c : Nat) (f : Column → Column) : (modCol s c f).boot = s.boot := rfl
@[simp] theorem modCol_gov (c : Nat) (f : Column → Column) : (modCol s c f).gov = s.gov := rfl
@[simp] theorem modCol_mgmt (c : Nat) (f : Column → Column) : (modCol s c f).mgmt = s.mgmt := rfl
@[simp] theorem modCol_log (c : Nat) (f : Column → Column) : (modCol s c f).log = s.log := rfl
@[simp] theorem modCol_graft (c : Nat) (f : Column → Column) : (modCol s c f).graft = s.graft := rfl
@[simp] theorem modCol_mem (c : Nat) (f : Column → Column) : (modCol s c f).mem = s.mem := rfl
@[simp] theorem modCol_hwPoison (c : Nat) (f : Column → Column) : (modCol s c f).hwPoison = s.hwPoison := rfl
@[simp] theorem modCol_leaves (c : Nat) (f : Column → Column) : (modCol s c f).leaves = s.leaves := rfl
@[simp] theorem modCol_engines (c : Nat) (f : Column → Column) : (modCol s c f).engines = s.engines := rfl
@[simp] theorem modCol_hub (c : Nat) (f : Column → Column) : (modCol s c f).hub = s.hub := rfl
@[simp] theorem modCol_net (c : Nat) (f : Column → Column) : (modCol s c f).net = s.net := rfl
@[simp] theorem modCol_links (c : Nat) (f : Column → Column) : (modCol s c f).links = s.links := rfl
@[simp] theorem modCol_coll (c : Nat) (f : Column → Column) : (modCol s c f).coll = s.coll := rfl
@[simp] theorem modCol_free (c : Nat) (f : Column → Column) : (modCol s c f).free = s.free := rfl

@[simp] theorem setPort_pending (p : Nat) (x : Port) : (setPort s p x).pending = s.pending := rfl
@[simp] theorem setPort_pins (p : Nat) (x : Port) : (setPort s p x).pins = s.pins := rfl
@[simp] theorem setPort_clk (p : Nat) (x : Port) : (setPort s p x).clk = s.clk := rfl
@[simp] theorem setPort_tap (p : Nat) (x : Port) : (setPort s p x).tap = s.tap := rfl
@[simp] theorem setPort_part (p : Nat) (x : Port) : (setPort s p x).part = s.part := rfl
@[simp] theorem setPort_fuse (p : Nat) (x : Port) : (setPort s p x).fuse = s.fuse := rfl
@[simp] theorem setPort_mram (p : Nat) (x : Port) : (setPort s p x).mram = s.mram := rfl
@[simp] theorem setPort_boot (p : Nat) (x : Port) : (setPort s p x).boot = s.boot := rfl
@[simp] theorem setPort_gov (p : Nat) (x : Port) : (setPort s p x).gov = s.gov := rfl
@[simp] theorem setPort_mgmt (p : Nat) (x : Port) : (setPort s p x).mgmt = s.mgmt := rfl
@[simp] theorem setPort_log (p : Nat) (x : Port) : (setPort s p x).log = s.log := rfl
@[simp] theorem setPort_graft (p : Nat) (x : Port) : (setPort s p x).graft = s.graft := rfl
@[simp] theorem setPort_mem (p : Nat) (x : Port) : (setPort s p x).mem = s.mem := rfl
@[simp] theorem setPort_hwPoison (p : Nat) (x : Port) : (setPort s p x).hwPoison = s.hwPoison := rfl
@[simp] theorem setPort_leaves (p : Nat) (x : Port) : (setPort s p x).leaves = s.leaves := rfl
@[simp] theorem setPort_engines (p : Nat) (x : Port) : (setPort s p x).engines = s.engines := rfl
@[simp] theorem setPort_columns (p : Nat) (x : Port) : (setPort s p x).columns = s.columns := rfl
@[simp] theorem setPort_hub (p : Nat) (x : Port) : (setPort s p x).hub = s.hub := rfl
@[simp] theorem setPort_net (p : Nat) (x : Port) : (setPort s p x).net = s.net := rfl
@[simp] theorem setPort_coll (p : Nat) (x : Port) : (setPort s p x).coll = s.coll := rfl
@[simp] theorem setPort_free (p : Nat) (x : Port) : (setPort s p x).free = s.free := rfl

@[simp] theorem modPort_pending (p : Nat) (f : Port → Port) : (modPort s p f).pending = s.pending := rfl
@[simp] theorem modPort_pins (p : Nat) (f : Port → Port) : (modPort s p f).pins = s.pins := rfl
@[simp] theorem modPort_clk (p : Nat) (f : Port → Port) : (modPort s p f).clk = s.clk := rfl
@[simp] theorem modPort_tap (p : Nat) (f : Port → Port) : (modPort s p f).tap = s.tap := rfl
@[simp] theorem modPort_part (p : Nat) (f : Port → Port) : (modPort s p f).part = s.part := rfl
@[simp] theorem modPort_fuse (p : Nat) (f : Port → Port) : (modPort s p f).fuse = s.fuse := rfl
@[simp] theorem modPort_mram (p : Nat) (f : Port → Port) : (modPort s p f).mram = s.mram := rfl
@[simp] theorem modPort_boot (p : Nat) (f : Port → Port) : (modPort s p f).boot = s.boot := rfl
@[simp] theorem modPort_gov (p : Nat) (f : Port → Port) : (modPort s p f).gov = s.gov := rfl
@[simp] theorem modPort_mgmt (p : Nat) (f : Port → Port) : (modPort s p f).mgmt = s.mgmt := rfl
@[simp] theorem modPort_log (p : Nat) (f : Port → Port) : (modPort s p f).log = s.log := rfl
@[simp] theorem modPort_graft (p : Nat) (f : Port → Port) : (modPort s p f).graft = s.graft := rfl
@[simp] theorem modPort_mem (p : Nat) (f : Port → Port) : (modPort s p f).mem = s.mem := rfl
@[simp] theorem modPort_hwPoison (p : Nat) (f : Port → Port) : (modPort s p f).hwPoison = s.hwPoison := rfl
@[simp] theorem modPort_leaves (p : Nat) (f : Port → Port) : (modPort s p f).leaves = s.leaves := rfl
@[simp] theorem modPort_engines (p : Nat) (f : Port → Port) : (modPort s p f).engines = s.engines := rfl
@[simp] theorem modPort_columns (p : Nat) (f : Port → Port) : (modPort s p f).columns = s.columns := rfl
@[simp] theorem modPort_hub (p : Nat) (f : Port → Port) : (modPort s p f).hub = s.hub := rfl
@[simp] theorem modPort_net (p : Nat) (f : Port → Port) : (modPort s p f).net = s.net := rfl
@[simp] theorem modPort_coll (p : Nat) (f : Port → Port) : (modPort s p f).coll = s.coll := rfl
@[simp] theorem modPort_free (p : Nat) (f : Port → Port) : (modPort s p f).free = s.free := rfl

@[simp] theorem setGroup_pending (g : Nat) (x : GroupE) : (setGroup s g x).pending = s.pending := rfl
@[simp] theorem setGroup_pins (g : Nat) (x : GroupE) : (setGroup s g x).pins = s.pins := rfl
@[simp] theorem setGroup_clk (g : Nat) (x : GroupE) : (setGroup s g x).clk = s.clk := rfl
@[simp] theorem setGroup_tap (g : Nat) (x : GroupE) : (setGroup s g x).tap = s.tap := rfl
@[simp] theorem setGroup_part (g : Nat) (x : GroupE) : (setGroup s g x).part = s.part := rfl
@[simp] theorem setGroup_fuse (g : Nat) (x : GroupE) : (setGroup s g x).fuse = s.fuse := rfl
@[simp] theorem setGroup_mram (g : Nat) (x : GroupE) : (setGroup s g x).mram = s.mram := rfl
@[simp] theorem setGroup_boot (g : Nat) (x : GroupE) : (setGroup s g x).boot = s.boot := rfl
@[simp] theorem setGroup_gov (g : Nat) (x : GroupE) : (setGroup s g x).gov = s.gov := rfl
@[simp] theorem setGroup_mgmt (g : Nat) (x : GroupE) : (setGroup s g x).mgmt = s.mgmt := rfl
@[simp] theorem setGroup_log (g : Nat) (x : GroupE) : (setGroup s g x).log = s.log := rfl
@[simp] theorem setGroup_graft (g : Nat) (x : GroupE) : (setGroup s g x).graft = s.graft := rfl
@[simp] theorem setGroup_mem (g : Nat) (x : GroupE) : (setGroup s g x).mem = s.mem := rfl
@[simp] theorem setGroup_hwPoison (g : Nat) (x : GroupE) : (setGroup s g x).hwPoison = s.hwPoison := rfl
@[simp] theorem setGroup_leaves (g : Nat) (x : GroupE) : (setGroup s g x).leaves = s.leaves := rfl
@[simp] theorem setGroup_engines (g : Nat) (x : GroupE) : (setGroup s g x).engines = s.engines := rfl
@[simp] theorem setGroup_columns (g : Nat) (x : GroupE) : (setGroup s g x).columns = s.columns := rfl
@[simp] theorem setGroup_net (g : Nat) (x : GroupE) : (setGroup s g x).net = s.net := rfl
@[simp] theorem setGroup_links (g : Nat) (x : GroupE) : (setGroup s g x).links = s.links := rfl
@[simp] theorem setGroup_coll (g : Nat) (x : GroupE) : (setGroup s g x).coll = s.coll := rfl
@[simp] theorem setGroup_free (g : Nat) (x : GroupE) : (setGroup s g x).free = s.free := rfl

@[simp] theorem setRegion_pending (g : Nat) (x : Region) : (setRegion s g x).pending = s.pending := rfl
@[simp] theorem setRegion_pins (g : Nat) (x : Region) : (setRegion s g x).pins = s.pins := rfl
@[simp] theorem setRegion_clk (g : Nat) (x : Region) : (setRegion s g x).clk = s.clk := rfl
@[simp] theorem setRegion_tap (g : Nat) (x : Region) : (setRegion s g x).tap = s.tap := rfl
@[simp] theorem setRegion_part (g : Nat) (x : Region) : (setRegion s g x).part = s.part := rfl
@[simp] theorem setRegion_fuse (g : Nat) (x : Region) : (setRegion s g x).fuse = s.fuse := rfl
@[simp] theorem setRegion_mram (g : Nat) (x : Region) : (setRegion s g x).mram = s.mram := rfl
@[simp] theorem setRegion_boot (g : Nat) (x : Region) : (setRegion s g x).boot = s.boot := rfl
@[simp] theorem setRegion_gov (g : Nat) (x : Region) : (setRegion s g x).gov = s.gov := rfl
@[simp] theorem setRegion_mgmt (g : Nat) (x : Region) : (setRegion s g x).mgmt = s.mgmt := rfl
@[simp] theorem setRegion_log (g : Nat) (x : Region) : (setRegion s g x).log = s.log := rfl
@[simp] theorem setRegion_graft (g : Nat) (x : Region) : (setRegion s g x).graft = s.graft := rfl
@[simp] theorem setRegion_mem (g : Nat) (x : Region) : (setRegion s g x).mem = s.mem := rfl
@[simp] theorem setRegion_hwPoison (g : Nat) (x : Region) : (setRegion s g x).hwPoison = s.hwPoison := rfl
@[simp] theorem setRegion_leaves (g : Nat) (x : Region) : (setRegion s g x).leaves = s.leaves := rfl
@[simp] theorem setRegion_engines (g : Nat) (x : Region) : (setRegion s g x).engines = s.engines := rfl
@[simp] theorem setRegion_columns (g : Nat) (x : Region) : (setRegion s g x).columns = s.columns := rfl
@[simp] theorem setRegion_net (g : Nat) (x : Region) : (setRegion s g x).net = s.net := rfl
@[simp] theorem setRegion_links (g : Nat) (x : Region) : (setRegion s g x).links = s.links := rfl
@[simp] theorem setRegion_coll (g : Nat) (x : Region) : (setRegion s g x).coll = s.coll := rfl
@[simp] theorem setRegion_free (g : Nat) (x : Region) : (setRegion s g x).free = s.free := rfl

@[simp] theorem mwrite_pending (a : Nat) (bs : List Byte) : (mwrite s a bs).pending = s.pending := rfl
@[simp] theorem mwrite_pins (a : Nat) (bs : List Byte) : (mwrite s a bs).pins = s.pins := rfl
@[simp] theorem mwrite_clk (a : Nat) (bs : List Byte) : (mwrite s a bs).clk = s.clk := rfl
@[simp] theorem mwrite_tap (a : Nat) (bs : List Byte) : (mwrite s a bs).tap = s.tap := rfl
@[simp] theorem mwrite_part (a : Nat) (bs : List Byte) : (mwrite s a bs).part = s.part := rfl
@[simp] theorem mwrite_fuse (a : Nat) (bs : List Byte) : (mwrite s a bs).fuse = s.fuse := rfl
@[simp] theorem mwrite_mram (a : Nat) (bs : List Byte) : (mwrite s a bs).mram = s.mram := rfl
@[simp] theorem mwrite_boot (a : Nat) (bs : List Byte) : (mwrite s a bs).boot = s.boot := rfl
@[simp] theorem mwrite_gov (a : Nat) (bs : List Byte) : (mwrite s a bs).gov = s.gov := rfl
@[simp] theorem mwrite_mgmt (a : Nat) (bs : List Byte) : (mwrite s a bs).mgmt = s.mgmt := rfl
@[simp] theorem mwrite_log (a : Nat) (bs : List Byte) : (mwrite s a bs).log = s.log := rfl
@[simp] theorem mwrite_graft (a : Nat) (bs : List Byte) : (mwrite s a bs).graft = s.graft := rfl
@[simp] theorem mwrite_hwPoison (a : Nat) (bs : List Byte) : (mwrite s a bs).hwPoison = s.hwPoison := rfl
@[simp] theorem mwrite_leaves (a : Nat) (bs : List Byte) : (mwrite s a bs).leaves = s.leaves := rfl
@[simp] theorem mwrite_engines (a : Nat) (bs : List Byte) : (mwrite s a bs).engines = s.engines := rfl
@[simp] theorem mwrite_columns (a : Nat) (bs : List Byte) : (mwrite s a bs).columns = s.columns := rfl
@[simp] theorem mwrite_hub (a : Nat) (bs : List Byte) : (mwrite s a bs).hub = s.hub := rfl
@[simp] theorem mwrite_net (a : Nat) (bs : List Byte) : (mwrite s a bs).net = s.net := rfl
@[simp] theorem mwrite_links (a : Nat) (bs : List Byte) : (mwrite s a bs).links = s.links := rfl
@[simp] theorem mwrite_coll (a : Nat) (bs : List Byte) : (mwrite s a bs).coll = s.coll := rfl
@[simp] theorem mwrite_free (a : Nat) (bs : List Byte) : (mwrite s a bs).free = s.free := rfl

/-! ## Units -/

@[simp] theorem leafOf_setLeaf (l : Nat) (x : Leaf) : leafOf (setLeaf s l x) l = x := by simp [leafOf, setLeaf]

theorem leafOf_setLeaf_other (l k : Nat) (x : Leaf) (h : k ≠ l) : leafOf (setLeaf s l x) k = leafOf s k :=
  mget_mset_other _ x s.leaves l k h

@[simp] theorem leafOf_modLeaf (l : Nat) (f : Leaf → Leaf) : leafOf (modLeaf s l f) l = f (leafOf s l) := by simp [modLeaf]

theorem leafOf_modLeaf_other (l k : Nat) (f : Leaf → Leaf) (h : k ≠ l) : leafOf (modLeaf s l f) k = leafOf s k :=
  leafOf_setLeaf_other s l k _ h

@[simp] theorem engOf_setEng (b : Nat) (x : Engine) : engOf (setEng s b x) b = x := by simp [engOf, setEng]

theorem engOf_setEng_other (b k : Nat) (x : Engine) (h : k ≠ b) : engOf (setEng s b x) k = engOf s k :=
  mget_mset_other _ x s.engines b k h

@[simp] theorem engOf_modEng (b : Nat) (f : Engine → Engine) : engOf (modEng s b f) b = f (engOf s b) := by simp [modEng]

@[simp] theorem colOf_setCol (c : Nat) (x : Column) : colOf (setCol s c x) c = x := by simp [colOf, setCol]

theorem colOf_setCol_other (c k : Nat) (x : Column) (h : k ≠ c) : colOf (setCol s c x) k = colOf s k :=
  mget_mset_other _ x s.columns c k h

@[simp] theorem colOf_modCol (c : Nat) (f : Column → Column) : colOf (modCol s c f) c = f (colOf s c) := by simp [modCol]

@[simp] theorem portOf_setPort (p : Nat) (x : Port) : portOf (setPort s p x) p = x := by simp [portOf, setPort]

theorem portOf_setPort_other (p k : Nat) (x : Port) (h : k ≠ p) : portOf (setPort s p x) k = portOf s k :=
  mget_mset_other _ x s.links.ports p k h

@[simp] theorem groupOf_setGroup (g : Nat) (x : GroupE) : groupOf (setGroup s g x) g = x := by simp [groupOf, setGroup]

theorem groupOf_setGroup_other (g k : Nat) (x : GroupE) (h : k ≠ g) : groupOf (setGroup s g x) k = groupOf s k :=
  mget_mset_other _ x s.hub.groups g k h

@[simp] theorem regionOf_setRegion (g : Nat) (x : Region) : regionOf (setRegion s g x) g = x := by simp [regionOf, setRegion]

theorem regionOf_setRegion_other (g k : Nat) (x : Region) (h : k ≠ g) : regionOf (setRegion s g x) k = regionOf s k :=
  mget_mset_other _ x s.hub.regions g k h

end Sys2Proof.Machine
end

