-- ==== Sys2Proof/Laws/Events.lean ====
section
/-! SUPPORT. What raising an event can change: the log, the persisted store, what the management port sends, and ALERT_N
(R527, R559 to R562). -/
namespace Sys2Proof.Machine

theorem eventFrame_refl (s : State) : EventFrame s s := ⟨s.log, s.mram.persisted, s.mgmt.out, s.pins.alert, rfl⟩

theorem eventFrame_trans (s t u : State) (h : EventFrame s t) (k : EventFrame t u) : EventFrame s u := by
  obtain ⟨g, ps, o, a, rfl⟩ := h
  obtain ⟨g', ps', o', a', rfl⟩ := k
  exact ⟨g', ps', o', a', rfl⟩

/-- The log after an entry (R559, R560). -/
def logAfter (s : State) (code sev unit detail : Nat) (payload : BitVec 128) : EvLog :=
  { s.log with
    entries := s.log.entries.drop (b2n (decide (s.log.entries.length ≥ 4096)))
      ++ [{ seq := s.log.head, code := code, sev := sev, unit := unit, detail := detail, payload := payload,
            timeUs := s.clk.us, prior := false }]
    head := s.log.head + 1
    oldest := s.log.oldest + b2n (decide (s.log.entries.length ≥ 4096))
    lost := sat32 (s.log.lost + b2n (decide (s.log.entries.length ≥ 4096))) }

/-- An entry enters the log, and nothing outside the frame of an event changes. -/
theorem pushEvent_frame (s : State) (code sev unit detail : Nat) (payload : BitVec 128) :
    ∃ (ps : List Event) (o : List MgmtOut) (a : Bool), pushEvent s code sev unit detail payload =
      { s with log := logAfter s code sev unit detail payload, mram := { s.mram with persisted := ps }
               mgmt := { s.mgmt with out := o }, pins := { s.pins with alert := a } } := by
  unfold pushEvent refreshAlert logAfter
  simp only
  by_cases h : sev = 3
  · simp only [h, if_true]
    split
    · exact ⟨_, _, _, rfl⟩
    · exact ⟨_, s.mgmt.out, _, rfl⟩
  · simp only [h, if_false]
    split
    · exact ⟨s.mram.persisted, _, _, rfl⟩
    · exact ⟨s.mram.persisted, s.mgmt.out, _, rfl⟩

theorem eventFrame_push (s : State) (code sev unit detail : Nat) (payload : BitVec 128) :
    EventFrame s (pushEvent s code sev unit detail payload) := by
  obtain ⟨ps, o, a, h⟩ := pushEvent_frame s code sev unit detail payload
  exact ⟨_, ps, o, a, h⟩

theorem eventFrame_foldl {α : Type} (f : State → α → State) (l : List α) (hf : ∀ u x, EventFrame u (f u x)) (s : State) :
    EventFrame s (l.foldl f s) := by
  induction l generalizing s with
  | nil => exact eventFrame_refl s
  | cons a r ih => exact eventFrame_trans _ _ _ (hf s a) (ih _)

theorem eventFrame_flush (s : State) : EventFrame s (flushSuppressed (rollSecond s)) := by
  have h1 : EventFrame s (rollSecond s) := by
    unfold rollSecond
    split
    · exact eventFrame_refl s
    · exact ⟨_, s.mram.persisted, s.mgmt.out, s.pins.alert, rfl⟩
  refine eventFrame_trans _ _ _ h1 ?_
  unfold flushSuppressed
  refine eventFrame_trans _ _ _ ?_ (eventFrame_foldl _ _ (fun u p => eventFrame_push _ _ _ _ _ _) _)
  exact ⟨_, (rollSecond s).mram.persisted, (rollSecond s).mgmt.out, (rollSecond s).pins.alert, rfl⟩

/-- Everything that raising an event can change. -/
theorem raise_frame (s : State) (code unit detail payload : Nat) : EventFrame s (raise s code unit detail payload) := by
  refine eventFrame_trans _ _ _ (eventFrame_flush s) ?_
  unfold raise
  generalize flushSuppressed (rollSecond s) = u
  simp only
  generalize code * 256 + (if (decide (code = 0x05) || decide (code = 0xA1)) = true then detail else 0) = key
  split
  · refine eventFrame_trans _ _ _ ?_ (eventFrame_push _ _ _ _ _ _)
    exact ⟨_, u.mram.persisted, u.mgmt.out, u.pins.alert, rfl⟩
  · exact ⟨_, u.mram.persisted, u.mgmt.out, u.pins.alert, rfl⟩

theorem counts_flush (s : State) : (flushSuppressed s).log.counts = s.log.counts := by
  unfold flushSuppressed
  generalize s.log.due = ds
  have (t : State) : (ds.foldl (fun t p => pushEvent t 0x07 0 (p.1 / 256) (p.1 % 256) (BitVec.ofNat 128 p.2)) t).log.counts
      = t.log.counts := by
    induction ds generalizing t with
    | nil => rfl
    | cons d r ih =>
      obtain ⟨ps, o, a, h⟩ := pushEvent_frame t 0x07 0 (d.1 / 256) (d.1 % 256) (BitVec.ofNat 128 d.2)
      rw [List.foldl_cons, ih, h]
      rfl
  rw [this]

/-- Raising an event enters it in the log. -/
theorem entered_raise (s : State) (code unit detail payload : Nat) :
    Entered s (raise s code unit detail payload) code unit detail payload := by
  intro hr
  obtain ⟨g, ps, o, a, hf⟩ := eventFrame_flush s
  have hc := counts_flush (rollSecond s)
  unfold eventRoom at hr
  unfold raise
  simp only
  have hu : (flushSuppressed (rollSecond s)).clk.us = s.clk.us := by rw [hf]
  generalize flushSuppressed (rollSecond s) = v at hc hu ⊢
  rw [← hc] at hr
  simp only [decide_eq_true_eq] at hr
  generalize code * 256 + (if (decide (code = 0x05) || decide (code = 0xA1)) = true then detail else 0) = key at hr ⊢
  rw [if_pos hr]
  obtain ⟨ps', o', a', hp⟩ := pushEvent_frame { v with log := { v.log with counts := mset 0 v.log.counts key (mget 0 v.log.counts key + 1) } }
    code (sevOf code) unit detail (BitVec.ofNat 128 payload)
  rw [hp]
  simp [logAfter, hu]

theorem raised_raise (s : State) (code unit detail payload : Nat) :
    Raised s (raise s code unit detail payload) code unit detail payload :=
  ⟨raise_frame _ _ _ _ _, entered_raise _ _ _ _ _⟩

theorem phaseMoved_setPhase (s : State) (p : Phase) : PhaseMoved s (setPhase s p) p := raised_raise _ _ _ _ _

variable (s : State) (c u d p : Nat)

@[simp] theorem raise_pending : (raise s c u d p).pending = s.pending := by
  obtain ⟨_, _, _, _, h⟩ := raise_frame s c u d p; rw [h]

@[simp] theorem raise_clk : (raise s c u d p).clk = s.clk := by
  obtain ⟨_, _, _, _, h⟩ := raise_frame s c u d p; rw [h]

@[simp] theorem raise_tap : (raise s c u d p).tap = s.tap := by
  obtain ⟨_, _, _, _, h⟩ := raise_frame s c u d p; rw [h]

@[simp] theorem raise_part : (raise s c u d p).part = s.part := by
  obtain ⟨_, _, _, _, h⟩ := raise_frame s c u d p; rw [h]

@[simp] theorem raise_fuse : (raise s c u d p).fuse = s.fuse := by
  obtain ⟨_, _, _, _, h⟩ := raise_frame s c u d p; rw [h]

@[simp] theorem raise_boot : (raise s c u d p).boot = s.boot := by
  obtain ⟨_, _, _, _, h⟩ := raise_frame s c u d p; rw [h]

@[simp] theorem raise_gov : (raise s c u d p).gov = s.gov := by
  obtain ⟨_, _, _, _, h⟩ := raise_frame s c u d p; rw [h]

@[simp] theorem raise_graft : (raise s c u d p).graft = s.graft := by
  obtain ⟨_, _, _, _, h⟩ := raise_frame s c u d p; rw [h]

@[simp] theorem raise_mem : (raise s c u d p).mem = s.mem := by
  obtain ⟨_, _, _, _, h⟩ := raise_frame s c u d p; rw [h]

@[simp] theorem raise_hwPoison : (raise s c u d p).hwPoison = s.hwPoison := by
  obtain ⟨_, _, _, _, h⟩ := raise_frame s c u d p; rw [h]

@[simp] theorem raise_leaves : (raise s c u d p).leaves = s.leaves := by
  obtain ⟨_, _, _, _, h⟩ := raise_frame s c u d p; rw [h]

@[simp] theorem raise_engines : (raise s c u d p).engines = s.engines := by
  obtain ⟨_, _, _, _, h⟩ := raise_frame s c u d p; rw [h]

@[simp] theorem raise_columns : (raise s c u d p).columns = s.columns := by
  obtain ⟨_, _, _, _, h⟩ := raise_frame s c u d p; rw [h]

@[simp] theorem raise_hub : (raise s c u d p).hub = s.hub := by
  obtain ⟨_, _, _, _, h⟩ := raise_frame s c u d p; rw [h]

@[simp] theorem raise_net : (raise s c u d p).net = s.net := by
  obtain ⟨_, _, _, _, h⟩ := raise_frame s c u d p; rw [h]

@[simp] theorem raise_links : (raise s c u d p).links = s.links := by
  obtain ⟨_, _, _, _, h⟩ := raise_frame s c u d p; rw [h]

@[simp] theorem raise_coll : (raise s c u d p).coll = s.coll := by
  obtain ⟨_, _, _, _, h⟩ := raise_frame s c u d p; rw [h]

@[simp] theorem raise_free : (raise s c u d p).free = s.free := by
  obtain ⟨_, _, _, _, h⟩ := raise_frame s c u d p; rw [h]

@[simp] theorem raise_pins_porst : (raise s c u d p).pins.porst = s.pins.porst := by
  obtain ⟨_, _, _, _, h⟩ := raise_frame s c u d p; rw [h]

@[simp] theorem raise_pins_porstPin : (raise s c u d p).pins.porstPin = s.pins.porstPin := by
  obtain ⟨_, _, _, _, h⟩ := raise_frame s c u d p; rw [h]

@[simp] theorem raise_pins_crownRst : (raise s c u d p).pins.crownRst = s.pins.crownRst := by
  obtain ⟨_, _, _, _, h⟩ := raise_frame s c u d p; rw [h]

@[simp] theorem raise_pins_ready : (raise s c u d p).pins.ready = s.pins.ready := by
  obtain ⟨_, _, _, _, h⟩ := raise_frame s c u d p; rw [h]

@[simp] theorem raise_pins_therm : (raise s c u d p).pins.therm = s.pins.therm := by
  obtain ⟨_, _, _, _, h⟩ := raise_frame s c u d p; rw [h]

@[simp] theorem raise_pins_railsOk : (raise s c u d p).pins.railsOk = s.pins.railsOk := by
  obtain ⟨_, _, _, _, h⟩ := raise_frame s c u d p; rw [h]

@[simp] theorem raise_pins_refOk : (raise s c u d p).pins.refOk = s.pins.refOk := by
  obtain ⟨_, _, _, _, h⟩ := raise_frame s c u d p; rw [h]

@[simp] theorem raise_mram_bootCount : (raise s c u d p).mram.bootCount = s.mram.bootCount := by
  obtain ⟨_, _, _, _, h⟩ := raise_frame s c u d p; rw [h]

@[simp] theorem raise_mram_fwSlots : (raise s c u d p).mram.fwSlots = s.mram.fwSlots := by
  obtain ⟨_, _, _, _, h⟩ := raise_frame s c u d p; rw [h]

@[simp] theorem raise_mram_preferred : (raise s c u d p).mram.preferred = s.mram.preferred := by
  obtain ⟨_, _, _, _, h⟩ := raise_frame s c u d p; rw [h]

@[simp] theorem raise_mram_nvImage : (raise s c u d p).mram.nvImage = s.mram.nvImage := by
  obtain ⟨_, _, _, _, h⟩ := raise_frame s c u d p; rw [h]

@[simp] theorem raise_mram_nvUsed : (raise s c u d p).mram.nvUsed = s.mram.nvUsed := by
  obtain ⟨_, _, _, _, h⟩ := raise_frame s c u d p; rw [h]

@[simp] theorem raise_mram_profiles : (raise s c u d p).mram.profiles = s.mram.profiles := by
  obtain ⟨_, _, _, _, h⟩ := raise_frame s c u d p; rw [h]

@[simp] theorem raise_mram_defects : (raise s c u d p).mram.defects = s.mram.defects := by
  obtain ⟨_, _, _, _, h⟩ := raise_frame s c u d p; rw [h]

@[simp] theorem raise_mram_commitCount : (raise s c u d p).mram.commitCount = s.mram.commitCount := by
  obtain ⟨_, _, _, _, h⟩ := raise_frame s c u d p; rw [h]

@[simp] theorem raise_mram_keys : (raise s c u d p).mram.keys = s.mram.keys := by
  obtain ⟨_, _, _, _, h⟩ := raise_frame s c u d p; rw [h]

@[simp] theorem raise_mgmt_rt : (raise s c u d p).mgmt.rt = s.mgmt.rt := by
  obtain ⟨_, _, _, _, h⟩ := raise_frame s c u d p; rw [h]

@[simp] theorem raise_mgmt_nv : (raise s c u d p).mgmt.nv = s.mgmt.nv := by
  obtain ⟨_, _, _, _, h⟩ := raise_frame s c u d p; rw [h]

@[simp] theorem raise_mgmt_overlay : (raise s c u d p).mgmt.overlay = s.mgmt.overlay := by
  obtain ⟨_, _, _, _, h⟩ := raise_frame s c u d p; rw [h]

@[simp] theorem raise_mgmt_profileActive : (raise s c u d p).mgmt.profileActive = s.mgmt.profileActive := by
  obtain ⟨_, _, _, _, h⟩ := raise_frame s c u d p; rw [h]

@[simp] theorem raise_mgmt_profilePending : (raise s c u d p).mgmt.profilePending = s.mgmt.profilePending := by
  obtain ⟨_, _, _, _, h⟩ := raise_frame s c u d p; rw [h]

@[simp] theorem raise_mgmt_sessions : (raise s c u d p).mgmt.sessions = s.mgmt.sessions := by
  obtain ⟨_, _, _, _, h⟩ := raise_frame s c u d p; rw [h]

@[simp] theorem raise_mgmt_quote0 : (raise s c u d p).mgmt.quote0 = s.mgmt.quote0 := by
  obtain ⟨_, _, _, _, h⟩ := raise_frame s c u d p; rw [h]

@[simp] theorem raise_mgmt_violations : (raise s c u d p).mgmt.violations = s.mgmt.violations := by
  obtain ⟨_, _, _, _, h⟩ := raise_frame s c u d p; rw [h]

@[simp] theorem raise_mgmt_discards : (raise s c u d p).mgmt.discards = s.mgmt.discards := by
  obtain ⟨_, _, _, _, h⟩ := raise_frame s c u d p; rw [h]

@[simp] theorem raise_mgmt_dynAddr : (raise s c u d p).mgmt.dynAddr = s.mgmt.dynAddr := by
  obtain ⟨_, _, _, _, h⟩ := raise_frame s c u d p; rw [h]

@[simp] theorem raise_mgmt_eid : (raise s c u d p).mgmt.eid = s.mgmt.eid := by
  obtain ⟨_, _, _, _, h⟩ := raise_frame s c u d p; rw [h]

@[simp] theorem raise_mgmt_assembling : (raise s c u d p).mgmt.assembling = s.mgmt.assembling := by
  obtain ⟨_, _, _, _, h⟩ := raise_frame s c u d p; rw [h]

@[simp] theorem raise_mgmt_inbox : (raise s c u d p).mgmt.inbox = s.mgmt.inbox := by
  obtain ⟨_, _, _, _, h⟩ := raise_frame s c u d p; rw [h]

@[simp] theorem raise_mgmt_cmdStatus : (raise s c u d p).mgmt.cmdStatus = s.mgmt.cmdStatus := by
  obtain ⟨_, _, _, _, h⟩ := raise_frame s c u d p; rw [h]

@[simp] theorem raise_mgmt_pend : (raise s c u d p).mgmt.pend = s.mgmt.pend := by
  obtain ⟨_, _, _, _, h⟩ := raise_frame s c u d p; rw [h]

@[simp] theorem raise_mgmt_fwStage : (raise s c u d p).mgmt.fwStage = s.mgmt.fwStage := by
  obtain ⟨_, _, _, _, h⟩ := raise_frame s c u d p; rw [h]

@[simp] theorem raise_mgmt_challenge : (raise s c u d p).mgmt.challenge = s.mgmt.challenge := by
  obtain ⟨_, _, _, _, h⟩ := raise_frame s c u d p; rw [h]

end Sys2Proof.Machine
end

