-- ==== Sys2Proof/Laws/Keeps.lean ====
section
/-! SUPPORT. What every operation of the machine keeps: the queue of commands as it is, memory in canonical form, the event
log a ring of at most 4,096 entries in order. One lemma for each shared operation, cited instead of unfolding it. -/
namespace Sys2Proof.Machine

/-- From `s` to `t` the queue has not changed; memory, event log, READY and the wrap-disable fuse have kept their form. -/
structure Keeps (s t : State) : Prop where
  pending : t.pending = s.pending
  mem : memWf s.mem = true → memWf t.mem = true
  log : LogInOrder s.log → LogInOrder t.log
  ready : ReadyInCompute s → ReadyInCompute t
  blown : s.fuse.wrapDisabled = true → t.fuse.wrapDisabled = true
  wrap : DebugWrapped s.fuse → DebugWrapped t.fuse

theorem keeps_refl (s : State) : Keeps s s := ⟨rfl, id, id, id, id, id⟩

theorem keeps_trans (s t u : State) (h : Keeps s t) (k : Keeps t u) : Keeps s u :=
  ⟨k.pending.trans h.pending, fun m => k.mem (h.mem m), fun m => k.log (h.log m), fun m => k.ready (h.ready m),
    fun m => k.blown (h.blown m), fun m => k.wrap (h.wrap m)⟩

theorem keeps_ite (s a b : State) (c : Prop) [Decidable c] (ha : Keeps s a) (hb : Keeps s b) : Keeps s (if c then a else b) := by
  split <;> assumption

/-- A change to anything but the queue, memory, the log, and what READY and the wrap-disable fuse depend on. -/
theorem keeps_mk (s t : State) (h : Keeps s t) (pins : Pins) (clk : Clock) (tap : Tap) (part : Part) (fuse : Fuse)
    (mram : Mram) (boot : Boot) (gov : Gov) (mgmt : Mgmt) (graft : Graft) (hwPoison : SMap Bool) (leaves : SMap Leaf)
    (engines : SMap Engine) (columns : SMap Column) (hub : Hub) (net : Net) (links : Links) (coll : Coll) (free : Nat)
    (hr : pins.ready = t.pins.ready) (hp : boot.phase = t.boot.phase) (hw : fuse.wrapDisabled = t.fuse.wrapDisabled)
    (hl : fuse.lifecycle = t.fuse.lifecycle) :
    Keeps s { pending := t.pending, pins, clk, tap, part, fuse, mram, boot, gov, mgmt, log := t.log, graft, mem := t.mem,
              hwPoison, leaves, engines, columns, hub, net, links, coll, free } :=
  ⟨h.pending, h.mem, h.log, fun r => (hr.trans (h.ready r)).trans (by rw [hp]), fun b => hw.trans (h.blown b), fun w => by
    have := h.wrap w
    simpa only [DebugWrapped, hw, hl] using this⟩

/-- A change to memory that keeps its form. -/
theorem keeps_mem (s t : State) (h : Keeps s t) (m : List Host.Cell) (hm : memWf t.mem = true → memWf m = true) :
    Keeps s { t with mem := m } := ⟨h.pending, fun k => hm (h.mem k), h.log, h.ready, h.blown, h.wrap⟩

/-- A change to the log that keeps its order. -/
theorem keeps_log (s t : State) (h : Keeps s t) (g : EvLog) (hg : LogInOrder t.log → LogInOrder g) :
    Keeps s { t with log := g } := ⟨h.pending, h.mem, fun k => hg (h.log k), h.ready, h.blown, h.wrap⟩

theorem keeps_foldlOf {α β : Type} (g : β → State) (s : State) (f : β → α → β) (r : β) (l : List α)
    (hf : ∀ r x, Keeps (g r) (g (f r x))) (h : Keeps s (g r)) : Keeps s (g (l.foldl f r)) := by
  induction l generalizing r with
  | nil => exact h
  | cons x k ih => exact ih _ (keeps_trans _ _ _ h (hf _ _))

theorem keeps_foldl {α : Type} (s t : State) (f : State → α → State) (l : List α) (hf : ∀ u x, Keeps u (f u x))
    (h : Keeps s t) : Keeps s (l.foldl f t) := by
  induction l generalizing t with
  | nil => exact h
  | cons a r ih => exact ih _ (keeps_trans _ _ _ h (hf t a))

/-- The states that an instruction's result holds. -/
def ResKeeps (s : State) : Res → Prop
  | .done t => Keeps s t
  | .hold t _ => Keeps s t
  | .jump t _ _ => Keeps s t
  | .faultIn t _ => Keeps s t
  | .block _ => True
  | .fault _ _ => True

theorem logInOrder_after (s : State) (code sev unit detail : Nat) (payload : BitVec 128) (h : LogInOrder s.log) :
    LogInOrder (logAfter s code sev unit detail payload) := by
  obtain ⟨h1, h2, h3⟩ := h
  by_cases hc : s.log.entries.length ≥ 4096
  · have hc' : s.log.entries.length = 4096 := by omega
    refine ⟨?_, ?_, ?_⟩
    · simp [logAfter, b2n, hc']
    · have e : (s.log.entries.map Event.seq).drop 1 ++ [s.log.head]
          = (List.range 4096).map (fun i => s.log.oldest + 1 + i) := by
        rw [h2, hc']
        apply List.ext_getElem
        · simp
        · intro i a b
          by_cases hi : i < 4095
          · rw [List.getElem_append_left (by simp; omega)]
            simp only [List.getElem_drop, List.getElem_map, List.getElem_range]; omega
          · have : i = 4095 := by simp at b; omega
            subst this
            rw [List.getElem_append_right (by simp)]
            simp only [List.getElem_singleton, List.getElem_map, List.getElem_range]; omega
      have hl : (logAfter s code sev unit detail payload).entries.length = 4096 := by
        simp only [logAfter, List.length_append, List.length_drop, hc', b2n]; rfl
      rw [hl]
      simp only [logAfter, List.map_append, List.map_drop, List.map_cons, List.map_nil, hc', b2n]
      exact e
    · simp [logAfter, b2n, hc']; omega
  · have hc' : decide (s.log.entries.length ≥ 4096) = false := by simpa using hc
    refine ⟨?_, ?_, ?_⟩
    · simp [logAfter, b2n, hc']; omega
    · simp only [logAfter, hc', b2n, Bool.false_eq_true, if_false, List.drop_zero, List.map_append, h2, List.length_append,
        List.length_cons, List.length_nil, Nat.zero_add, Nat.add_zero, List.range_succ, List.map_cons, List.map_nil]
      rw [h3]
    · simp [logAfter, b2n, hc']; omega

theorem keeps_push (s : State) (code sev unit detail : Nat) (payload : BitVec 128) :
    Keeps s (pushEvent s code sev unit detail payload) := by
  obtain ⟨ps, o, a, h⟩ := pushEvent_frame s code sev unit detail payload
  rw [h]
  exact ⟨rfl, id, fun k => logInOrder_after s code sev unit detail payload k, id, id, id⟩

theorem resKeeps_ite (s : State) (a b : Res) (c : Prop) [Decidable c] (ha : ResKeeps s a) (hb : ResKeeps s b) :
    ResKeeps s (if c then a else b) := by
  split <;> assumption

theorem resKeeps_done (s t : State) (h : Keeps s t) : ResKeeps s (.done t) := h

theorem resKeeps_hold (s t : State) (w : Stall) (h : Keeps s t) : ResKeeps s (.hold t w) := h

theorem resKeeps_jump (s t : State) (pc d : Nat) (h : Keeps s t) : ResKeeps s (.jump t pc d) := h

theorem resKeeps_faultIn (s t : State) (c : Nat) (h : Keeps s t) : ResKeeps s (.faultIn t c) := h

theorem resKeeps_block (s : State) (b : Block) : ResKeeps s (.block b) := trivial

theorem resKeeps_fault (s : State) (c a : Nat) : ResKeeps s (.fault c a) := trivial


theorem keeps_mwrite (s0 : State) (s : State) (a : Nat) (bs : List Byte) (h : Keeps s0 s) : Keeps s0 (mwrite s a bs) :=
  keeps_mem _ _ h _ (memWf_writeBytes s.mem a bs)

theorem keeps_setLeaf (r0 : State) (s : State) (l : Nat) (x : Leaf) (hk : Keeps r0 s) : Keeps r0 (setLeaf s l x) := by
  unfold setLeaf
  simp (maxDischargeDepth := 40) only [keeps_mk, hk]

theorem keeps_modLeaf (r0 : State) (s : State) (l : Nat) (f : Leaf → Leaf) (hk : Keeps r0 s) : Keeps r0 (modLeaf s l f) := by
  unfold modLeaf
  simp (maxDischargeDepth := 40) only [keeps_setLeaf, hk]

theorem keeps_setEng (r0 : State) (s : State) (b : Nat) (x : Engine) (hk : Keeps r0 s) : Keeps r0 (setEng s b x) := by
  unfold setEng
  simp (maxDischargeDepth := 40) only [keeps_mk, hk]

theorem keeps_modEng (r0 : State) (s : State) (b : Nat) (f : Engine → Engine) (hk : Keeps r0 s) : Keeps r0 (modEng s b f) := by
  unfold modEng
  simp (maxDischargeDepth := 40) only [keeps_setEng, hk]

theorem keeps_setCol (r0 : State) (s : State) (c : Nat) (x : Column) (hk : Keeps r0 s) : Keeps r0 (setCol s c x) := by
  unfold setCol
  simp (maxDischargeDepth := 40) only [keeps_mk, hk]

theorem keeps_modCol (r0 : State) (s : State) (c : Nat) (f : Column → Column) (hk : Keeps r0 s) : Keeps r0 (modCol s c f) := by
  unfold modCol
  simp (maxDischargeDepth := 40) only [keeps_setCol, hk]

theorem keeps_setPort (r0 : State) (s : State) (p : Nat) (x : Port) (hk : Keeps r0 s) : Keeps r0 (setPort s p x) := by
  unfold setPort
  simp (maxDischargeDepth := 40) only [keeps_mk, hk]

theorem keeps_modPort (r0 : State) (s : State) (p : Nat) (f : Port → Port) (hk : Keeps r0 s) : Keeps r0 (modPort s p f) := by
  unfold modPort
  simp (maxDischargeDepth := 40) only [keeps_setPort, hk]

theorem keeps_setGroup (r0 : State) (s : State) (g : Nat) (x : GroupE) (hk : Keeps r0 s) : Keeps r0 (setGroup s g x) := by
  unfold setGroup
  simp (maxDischargeDepth := 40) only [keeps_mk, hk]

theorem keeps_setRegion (r0 : State) (s : State) (g : Nat) (x : Region) (hk : Keeps r0 s) : Keeps r0 (setRegion s g x) := by
  unfold setRegion
  simp (maxDischargeDepth := 40) only [keeps_mk, hk]

theorem keeps_refreshAlert (r0 : State) (s : State) (hk : Keeps r0 s) : Keeps r0 (refreshAlert s) := by
  unfold refreshAlert
  simp (maxDischargeDepth := 40) only [keeps_mk, hk]

theorem keeps_pushEvent (s0 : State) (s : State) (code sev unit detail : Nat) (payload : BitVec 128) (h : Keeps s0 s) :
    Keeps s0 (pushEvent s code sev unit detail payload) := by
  have := keeps_push s code sev unit detail payload
  exact keeps_trans _ _ _ h this

theorem keeps_rollSecond (s0 : State) (s : State) (h : Keeps s0 s) : Keeps s0 (rollSecond s) := by
  unfold rollSecond
  split
  · exact h
  · exact keeps_trans _ _ _ h ⟨rfl, id, id, id, id, id⟩

theorem keeps_flushSuppressed (s0 : State) (s : State) (h : Keeps s0 s) : Keeps s0 (flushSuppressed s) := by
  unfold flushSuppressed
  exact keeps_foldl _ _ _ _ (fun u p => keeps_push _ _ _ _ _ _) (keeps_trans _ _ _ h ⟨rfl, id, id, id, id, id⟩)

theorem keeps_raise (s0 : State) (s : State) (code unit detail payload : Nat) (h : Keeps s0 s) :
    Keeps s0 (raise s code unit detail payload) := by
  have hr : Keeps s0 (flushSuppressed (rollSecond s)) := keeps_flushSuppressed _ _ (keeps_rollSecond _ _ h)
  unfold raise
  generalize flushSuppressed (rollSecond s) = u at hr
  simp only
  generalize code * 256 + (if (decide (code = 0x05) || decide (code = 0xA1)) = true then detail else 0) = key
  split
  · exact keeps_pushEvent _ _ _ _ _ _ _ (keeps_trans _ _ _ hr ⟨rfl, id, id, id, id, id⟩)
  · exact keeps_trans _ _ _ hr ⟨rfl, id, id, id, id, id⟩

theorem keeps_bumpLeaf (r0 : State) (s : State) (l k n : Nat) (hk : Keeps r0 s) : Keeps r0 (bumpLeaf s l k n) := by
  unfold bumpLeaf
  simp (maxDischargeDepth := 40) only [keeps_modLeaf, hk]

theorem keeps_bumpNet (r0 : State) (s : State) (l k n : Nat) (hk : Keeps r0 s) : Keeps r0 (bumpNet s l k n) := by
  unfold bumpNet
  simp (maxDischargeDepth := 40) only [keeps_modLeaf, hk]

theorem keeps_lcInc (r0 : State) (s : State) (l k n : Nat) (hk : Keeps r0 s) : Keeps r0 (lcInc s l k n) := by
  unfold lcInc
  simp (maxDischargeDepth := 40) only [keeps_modLeaf, keeps_raise, keeps_ite, hk]

theorem keeps_gcInc (r0 : State) (s : State) (g n : Nat) (hk : Keeps r0 s) : Keeps r0 (gcInc s g n) := by
  unfold gcInc
  simp (maxDischargeDepth := 40) only [keeps_raise, keeps_ite, keeps_mk, hk]

theorem keeps_draw (r0 : State) (s : State) (hk : Keeps r0 s) : Keeps r0 (draw s).2 := by
  unfold draw
  simp (maxDischargeDepth := 40) only [keeps_mk, hk]

theorem keeps_addDefect (r0 : State) (s : State) (x : Site) (hk : Keeps r0 s) : Keeps r0 (addDefect s x) := by
  unfold addDefect
  simp (maxDischargeDepth := 40) only [keeps_raise, keeps_ite, keeps_mk, hk]

theorem keeps_stopGroup (r0 : State) (s : State) (g detail l : Nat) (hk : Keeps r0 s) : Keeps r0 (stopGroup s g detail l) := by
  unfold stopGroup
  simp (maxDischargeDepth := 40) only [keeps_setGroup, keeps_raise, hk]

theorem keeps_faultCore (r0 : State) (s : State) (l code fpc addr : Nat) (hk : Keeps r0 s) : Keeps r0 (faultCore s l code fpc addr) := by
  unfold faultCore
  simp (maxDischargeDepth := 40) only [keeps_setLeaf, keeps_raise, keeps_stopGroup, keeps_ite, hk]

theorem keeps_fenceLeaf (r0 : State) (s : State) (l : Nat) (hk : Keeps r0 s) : Keeps r0 (fenceLeaf s l) := by
  unfold fenceLeaf
  repeat' (first | with_reducible exact hk | with_reducible exact keeps_refl _ | exact trivial | exact (fun u => keeps_refl u) | with_reducible apply keeps_stopGroup | with_reducible apply keeps_faultCore | with_reducible apply keeps_ite | with_reducible apply keeps_foldl | intro _ | dsimp only | split | (simp (maxDischargeDepth := 40) only [keeps_mk, hk]; done))

theorem keeps_haltMembers (r0 : State) (s : State) (fenced : List Nat) (hk : Keeps r0 s) : Keeps r0 (haltMembers s fenced) := by
  unfold haltMembers
  repeat' (first | with_reducible exact hk | with_reducible exact keeps_refl _ | exact trivial | exact (fun u => keeps_refl u) | with_reducible apply keeps_modLeaf | with_reducible apply keeps_ite | with_reducible apply keeps_foldl | intro _ | dsimp only | split | (simp (maxDischargeDepth := 40) only [keeps_modLeaf, keeps_ite, keeps_mk, keeps_foldl, keeps_refl, hk]; done))

theorem keeps_fenceLeaves (r0 : State) (s : State) (ls : List Nat) (hk : Keeps r0 s) : Keeps r0 (fenceLeaves s ls) := by
  unfold fenceLeaves
  repeat' (first | with_reducible exact hk | with_reducible exact keeps_refl _ | exact trivial | exact (fun u => keeps_refl u) | with_reducible apply keeps_fenceLeaf | with_reducible apply keeps_haltMembers | with_reducible apply keeps_ite | with_reducible apply keeps_foldl | intro _ | dsimp only | split | (simp (maxDischargeDepth := 40) only [keeps_fenceLeaf, keeps_haltMembers, keeps_ite, keeps_mk, keeps_foldl, keeps_refl, hk]; done))

theorem keeps_failUnit (r0 : State) (s : State) (x : Site) (hk : Keeps r0 s) : Keeps r0 (failUnit s x) := by
  unfold failUnit
  (repeat' split) <;> simp (maxDischargeDepth := 40) only [keeps_raise, keeps_addDefect, keeps_fenceLeaves, keeps_mk, hk]

theorem keeps_leafFault (r0 : State) (s : State) (l code fpc addr : Nat) (hk : Keeps r0 s) : Keeps r0 (leafFault s l code fpc addr) := by
  unfold leafFault
  simp (maxDischargeDepth := 40) only [keeps_faultCore, keeps_failUnit, keeps_ite, hk]

theorem keeps_retire (r0 : State) (s : State) (l t pc : Nat) (loops : List LoopRec) (delay : Nat) (inStep : Bool) (hk : Keeps r0 s) : Keeps r0 (retire s l t pc loops delay inStep) := by
  unfold retire
  simp (maxDischargeDepth := 40) only [keeps_modLeaf, hk]

theorem keeps_advance (r0 : State) (s : State) (l t pc : Nat) (inStep : Bool) (hk : Keeps r0 s) : Keeps r0 (advance s l t pc inStep) := by
  unfold advance
  simp (maxDischargeDepth := 40) only [keeps_retire, hk]

theorem keeps_stallLeaf (r0 : State) (s : State) (l : Nat) (w : Stall) (hk : Keeps r0 s) : Keeps r0 (stallLeaf s l w) := by
  unfold stallLeaf
  simp (maxDischargeDepth := 40) only [keeps_modLeaf, hk]

theorem keeps_issue (s0 : State) (s : State) (l word : Nat) (g : BitVec 4) (srcs : List Nat) (fp : Bool)
    (body : State → Nat → Res) (h : Keeps s0 s) (hbody : ∀ u t, ResKeeps u (body u t)) :
    Keeps s0 (issue s l word g srcs fp body) := by
  have hb (t : Nat) := hbody s t
  unfold issue
  simp only
  generalize issueCycle s (leafOf s l) (if guardOn (leafOf s l) g = true then srcs else []) (guardOn (leafOf s l) g && fp) = t
  have hb := hb t
  have lf (u : State) (c pc a : Nat) (k : Keeps s u) : Keeps s0 (leafFault u l c pc a) :=
    keeps_leafFault _ _ _ _ _ _ (keeps_trans _ _ _ h k)
  repeat' with_reducible apply keeps_ite
  all_goals first
    | exact h
    | exact lf s _ _ _ (keeps_refl _)
    | exact keeps_stallLeaf _ _ _ _ h
    | exact keeps_advance _ _ _ _ _ _ h
    | skip
  generalize body s t = r at hb
  match r, hb with
  | .done u, k => exact keeps_advance _ _ _ _ _ _ (keeps_trans _ _ _ h k)
  | .hold u w, k => exact keeps_stallLeaf _ _ _ _ (keeps_trans _ _ _ h k)
  | .jump u pc d, k => exact keeps_retire _ _ _ _ _ _ _ _ (keeps_trans _ _ _ h k)
  | .block (.stall w), _ => exact keeps_stallLeaf _ _ _ _ h
  | .block (.fault c), _ =>
    refine keeps_leafFault _ _ _ _ _ _ ?_
    split
    · exact keeps_bumpNet _ _ _ _ _ h
    · exact h
  | .fault c a, _ => exact lf s c _ a (keeps_refl _)
  | .faultIn u c, k => exact lf u c _ 0 k

theorem keeps_regBody (r0 : State) (l : Nat) (f : Leaf → Nat → Leaf) (s : State) (t : Nat) (hk : Keeps r0 s) : ResKeeps r0 (regBody l f s t) := by
  unfold regBody
  simp (maxDischargeDepth := 40) only [keeps_modLeaf, hk, resKeeps_done]

theorem keeps_vecBody (r0 : State) (l : Nat) (srcs : List Nat) (d : Nat) (f : Leaf → Nat → Leaf × BitVec 16 × Lanes × Nat) (s : State) (t : Nat) (hk : Keeps r0 s) : ResKeeps r0 (vecBody l srcs d f s t) := by
  unfold vecBody
  repeat' (first | with_reducible exact hk | with_reducible exact keeps_refl _ | exact trivial | exact (fun u => keeps_refl u) | with_reducible apply keeps_setLeaf | with_reducible apply resKeeps_ite | with_reducible apply resKeeps_done | with_reducible apply resKeeps_hold | with_reducible apply resKeeps_jump | with_reducible apply resKeeps_faultIn | with_reducible apply keeps_ite | with_reducible apply keeps_foldl | intro _ | dsimp only | split | (simp (maxDischargeDepth := 40) only [keeps_setLeaf, keeps_ite, keeps_mk, keeps_foldl, keeps_refl, hk, resKeeps_ite, resKeeps_done, resKeeps_hold, resKeeps_jump, resKeeps_faultIn, resKeeps_block, resKeeps_fault]; done))

theorem keeps_putRow (r0 : State) (s : State) (l row : Nat) (mask pm : BitVec 16) (v : Lanes) (hk : Keeps r0 s) : Keeps r0 (putRow s l row mask pm v) := by
  unfold putRow
  repeat' (first | with_reducible exact hk | with_reducible exact keeps_refl _ | exact trivial | exact (fun u => keeps_refl u) | with_reducible apply keeps_mwrite | with_reducible apply keeps_setLeaf | with_reducible apply keeps_ite | with_reducible apply keeps_foldl | intro _ | dsimp only | split | (simp (maxDischargeDepth := 40) only [keeps_mwrite, keeps_setLeaf, keeps_ite, keeps_mk, keeps_foldl, keeps_refl, hk]; done))

theorem keeps_putBytes (r0 : State) (s : State) (l b : Nat) (bs : List Byte) (poison : Bool) (hk : Keeps r0 s) : Keeps r0 (putBytes s l b bs poison) := by
  unfold putBytes
  simp (maxDischargeDepth := 40) only [keeps_mwrite, keeps_setLeaf, hk]

theorem keeps_slotB (r0 : State) (s : State) (l word : Nat) (vals : List Word) (hk : Keeps r0 s) : Keeps r0 (slotB s l word vals) := by
  unfold slotB
  simp (maxDischargeDepth := 40) only [keeps_modLeaf, keeps_putRow, hk]

theorem keeps_settle (r0 : State) (s : State) (l : Nat) (rows : List Nat) (hk : Keeps r0 s) : Keeps r0 (settle s l rows) := by
  unfold settle
  repeat' (first | with_reducible exact hk | with_reducible exact keeps_refl _ | exact trivial | exact (fun u => keeps_refl u) | with_reducible apply keeps_modLeaf | with_reducible apply keeps_slotB | with_reducible apply keeps_ite | with_reducible apply keeps_foldl | intro _ | dsimp only | split | (simp (maxDischargeDepth := 40) only [keeps_modLeaf, keeps_slotB, keeps_ite, keeps_mk, keeps_foldl, keeps_refl, hk]; done))

theorem keeps_keepWindows (r0 : State) (s : State) (l : Nat) (rows : List Nat) (hk : Keeps r0 s) : Keeps r0 (keepWindows s l rows) := by
  unfold keepWindows
  simp (maxDischargeDepth := 40) only [keeps_modLeaf, keeps_ite, hk]

theorem keeps_slotAWrite (r0 : State) (s : State) (l b : Nat) (bs : List Byte) (poison : Bool) (hk : Keeps r0 s) : Keeps r0 (slotAWrite s l b bs poison) := by
  unfold slotAWrite
  simp (maxDischargeDepth := 40) only [keeps_putBytes, keeps_settle, keeps_keepWindows, hk]

theorem keeps_drainRow (r0 : State) (s : State) (l row : Nat) (hk : Keeps r0 s) : Keeps r0 (drainRow s l row) := by
  unfold drainRow
  repeat' (first | with_reducible exact hk | with_reducible exact keeps_refl _ | exact trivial | exact (fun u => keeps_refl u) | with_reducible apply keeps_modLeaf | with_reducible apply keeps_putRow | with_reducible apply keeps_settle | with_reducible apply keeps_keepWindows | with_reducible apply keeps_ite | with_reducible apply keeps_foldl | intro _ | dsimp only | split | (simp (maxDischargeDepth := 40) only [keeps_modLeaf, keeps_putRow, keeps_settle, keeps_keepWindows, keeps_ite, keeps_mk, keeps_foldl, keeps_refl, hk]; done))

theorem keeps_drainAsk (r0 : State) (s : State) (l row : Nat) (hk : Keeps r0 s) : Keeps r0 (drainAsk s l row) := by
  unfold drainAsk
  repeat' (first | with_reducible exact hk | with_reducible exact keeps_refl _ | exact trivial | exact (fun u => keeps_refl u) | with_reducible apply keeps_setLeaf | with_reducible apply keeps_drainRow | with_reducible apply keeps_ite | with_reducible apply keeps_foldl | intro _ | dsimp only | split | (simp (maxDischargeDepth := 40) only [keeps_setLeaf, keeps_drainRow, keeps_ite, keeps_mk, keeps_foldl, keeps_refl, hk]; done))

theorem keeps_slotAGrant (r0 : State) (s : State) (l q : Nat) (rows : List Nat) (hk : Keeps r0 s) : Keeps r0 (slotAGrant s l q rows) := by
  unfold slotAGrant
  simp (maxDischargeDepth := 40) only [keeps_setLeaf, hk]

theorem keeps_slotALose (r0 : State) (s : State) (l q : Nat) (rows : List Nat) (write : Bool) (hk : Keeps r0 s) : Keeps r0 (slotALose s l q rows write) := by
  unfold slotALose
  simp (maxDischargeDepth := 40) only [keeps_setLeaf, hk]

theorem keeps_slotAAsk (r0 : State) (s : State) (l q : Nat) (rows : List Nat) (write : Bool) (hk : Keeps r0 s) : Keeps r0 (slotAAsk s l q rows write).2 := by
  unfold slotAAsk
  (repeat' split) <;> simp (maxDischargeDepth := 40) only [keeps_slotAGrant, keeps_slotALose, hk]

theorem keeps_loadWords (r0 : State) (s : State) (l : Nat) (ws : List Nat) (hk : Keeps r0 s) : Keeps r0 (loadWords s l ws).1 := by
  refine keeps_foldlOf Prod.fst _ _ _ _ (fun r w => ?_) hk
  dsimp only
  split
  · exact keeps_refl _
  · exact keeps_draw _ _ (keeps_refl _)

theorem keeps_rowErrors (r0 : State) (s : State) (l fpc : Nat) (live : Bool) (ws : List Nat) (hk : Keeps r0 s) : Keeps r0 (rowErrors s l fpc live ws) := by
  unfold rowErrors
  simp (maxDischargeDepth := 40) only [keeps_modLeaf, keeps_bumpLeaf, keeps_ite, hk]

theorem keeps_windowRefuse (r0 : State) (s : State) (l b n : Nat) (write : Bool) (origin : BitVec 17) (hk : Keeps r0 s) : Keeps r0 (windowRefuse s l b n write origin) := by
  unfold windowRefuse
  (repeat' split) <;> simp (maxDischargeDepth := 40) only [keeps_raise, keeps_bumpLeaf, keeps_ite, hk]

theorem keeps_slotARead (r0 : State) (s : State) (l b n : Nat) (hk : Keeps r0 s) : Keeps r0 (slotARead s l b n).1 := by
  unfold slotARead
  simp (maxDischargeDepth := 40) only [keeps_bumpLeaf, keeps_settle, keeps_ite, hk]

theorem keeps_bumpCol (r0 : State) (s : State) (c k n : Nat) (hk : Keeps r0 s) : Keeps r0 (bumpCol s c k n) := by
  unfold bumpCol
  simp (maxDischargeDepth := 40) only [keeps_modCol, hk]

theorem keeps_bumpTier (r0 : State) (s : State) (c k : Nat) (hk : Keeps r0 s) : Keeps r0 (bumpTier s c k) := by
  unfold bumpTier
  simp (maxDischargeDepth := 40) only [keeps_modCol, hk]

theorem keeps_drawCheck (r0 : State) (s : State) (hk : Keeps r0 s) : Keeps r0 (drawCheck s).2 := by
  unfold drawCheck
  exact keeps_foldlOf Prod.snd _ _ _ _ (fun r _ => keeps_draw _ _ (keeps_refl _)) (keeps_draw _ _ hk)

theorem keeps_correctedError (r0 : State) (s : State) (c line : Nat) (data : List Byte) (hk : Keeps r0 s) : Keeps r0 (correctedError s c line data) := by
  unfold correctedError
  simp (maxDischargeDepth := 40) only [keeps_modCol, keeps_raise, keeps_bumpTier, keeps_ite, hk]

theorem keeps_noteRead (r0 : State) (s : State) (c line : Nat) (check : LineCheck) (hk : Keeps r0 s) : Keeps r0 (noteRead s c line check) := by
  unfold noteRead
  (repeat' split) <;> simp (maxDischargeDepth := 40) only [keeps_raise, keeps_bumpTier, keeps_correctedError, hk]

theorem keeps_setPoison (r0 : State) (s : State) (c line : Nat) (p : Bool) (hk : Keeps r0 s) : Keeps r0 (setPoison s c line p) := by
  unfold setPoison
  simp (maxDischargeDepth := 40) only [keeps_mk, hk]

theorem keeps_dropWriteBack (r0 : State) (s : State) (c line : Nat) (hk : Keeps r0 s) : Keeps r0 (dropWriteBack s c line) := by
  unfold dropWriteBack
  simp (maxDischargeDepth := 40) only [keeps_modCol, keeps_bumpCol, keeps_ite, hk]

theorem keeps_repeatCopy (r0 : State) (s : State) (c line : Nat) (hk : Keeps r0 s) : Keeps r0 (repeatCopy s c line) := by
  unfold repeatCopy
  simp (maxDischargeDepth := 40) only [keeps_modCol, hk]

theorem keeps_lineWrite (r0 : State) (s : State) (c line o : Nat) (bs : List Byte) (poison : Bool) (check : LineCheck) (hk : Keeps r0 s) : Keeps r0 (lineWrite s c line o bs poison check).1 := by
  unfold lineWrite
  (repeat' split) <;> simp (maxDischargeDepth := 40) only [keeps_mwrite, keeps_bumpCol, keeps_noteRead, keeps_setPoison, keeps_dropWriteBack, keeps_repeatCopy, keeps_ite, hk]

theorem keeps_lineFetch (r0 : State) (s : State) (c line : Nat) (check : LineCheck) (hk : Keeps r0 s) : Keeps r0 (lineFetch s c line check).1 := by
  unfold lineFetch
  simp (maxDischargeDepth := 40) only [keeps_bumpCol, keeps_noteRead, hk]

theorem keeps_emptySlot (r0 : State) (s : State) (c : Nat) (hk : Keeps r0 s) : Keeps r0 (emptySlot s c) := by
  unfold emptySlot
  simp (maxDischargeDepth := 40) only [keeps_modCol, keeps_bumpCol, hk]

theorem keeps_loseAt (r0 : State) (s : State) (lost : Nat → Nat → Bool) (hk : Keeps r0 s) : Keeps r0 (loseAt s lost) := by
  unfold loseAt
  repeat' (first | with_reducible exact hk | with_reducible exact keeps_refl _ | exact trivial | exact (fun u => keeps_refl u) | with_reducible apply keeps_draw | with_reducible apply keeps_ite | with_reducible apply keeps_foldl | intro _ | dsimp only | split | (simp (maxDischargeDepth := 40) only [keeps_draw, keeps_mk, keeps_refl]; done))

theorem keeps_failRouter (r0 : State) (s : State) (l : Nat) (hk : Keeps r0 s) : Keeps r0 (failRouter s l) := by
  unfold failRouter
  simp (maxDischargeDepth := 40) only [keeps_loseAt, keeps_mk, hk]

theorem keeps_failTrunk (r0 : State) (s : State) (t : Nat) (hk : Keeps r0 s) : Keeps r0 (failTrunk s t) := by
  unfold failTrunk
  simp (maxDischargeDepth := 40) only [keeps_mk, hk]

theorem keeps_setPhase (r0 : State) (s : State) (p : Phase) (hk : Keeps r0 s) : Keeps r0 (setPhase s p) :=
  keeps_raise _ _ _ _ _ _ ⟨hk.pending, hk.mem, hk.log, fun _ => rfl, hk.blown, hk.wrap⟩

theorem keeps_addSb (r0 : State) (s : State) (l : Nat) (es : List SbEntry) (hk : Keeps r0 s) : Keeps r0 (addSb s l es) := by
  unfold addSb
  simp (maxDischargeDepth := 40) only [keeps_modLeaf, keeps_ite, hk]

theorem keeps_bumpOpseq (r0 : State) (s : State) (q : EDesc) (hk : Keeps r0 s) : Keeps r0 (bumpOpseq s q) := by
  unfold bumpOpseq
  simp (maxDischargeDepth := 40) only [keeps_modLeaf, keeps_ite, hk]

theorem keeps_epostBody (r0 : State) (l : Nat) (d : BitVec 512) (s : State) (fin : Leaf → Leaf) (hk : Keeps r0 s) : ResKeeps r0 (epostBody l d s fin) := by
  unfold epostBody
  repeat' (first | with_reducible exact hk | with_reducible exact keeps_refl _ | exact trivial | exact (fun u => keeps_refl u) | with_reducible apply keeps_modLeaf | with_reducible apply keeps_modEng | with_reducible apply keeps_addSb | with_reducible apply keeps_bumpOpseq | with_reducible apply resKeeps_ite | with_reducible apply resKeeps_done | with_reducible apply resKeeps_hold | with_reducible apply resKeeps_jump | with_reducible apply resKeeps_faultIn | with_reducible apply keeps_ite | with_reducible apply keeps_foldl | intro _ | dsimp only | split | (simp (maxDischargeDepth := 40) only [keeps_modLeaf, keeps_modEng, keeps_addSb, keeps_bumpOpseq, keeps_ite, keeps_mk, keeps_foldl, keeps_refl, hk, resKeeps_ite, resKeeps_done, resKeeps_hold, resKeeps_jump, resKeeps_faultIn, resKeeps_block, resKeeps_fault]; done))

theorem keeps_dpostBody (r0 : State) (l : Nat) (d : BitVec 256) (s : State) (fin : Leaf → Leaf) (hk : Keeps r0 s) : ResKeeps r0 (dpostBody l d s fin) := by
  unfold dpostBody
  simp (maxDischargeDepth := 40) only [keeps_modLeaf, keeps_modCol, keeps_addSb, hk, resKeeps_ite, resKeeps_done, resKeeps_block]

theorem keeps_toRouter (r0 : State) (s : State) (p : SPkt) (hk : Keeps r0 s) : Keeps r0 (toRouter s p) := by
  unfold toRouter
  simp (maxDischargeDepth := 40) only [keeps_mk, hk]

theorem keeps_noteRefusal (r0 : State) (s : State) (src code : Nat) (addr : BitVec 64) (origin : BitVec 17) (hk : Keeps r0 s) : Keeps r0 (noteRefusal s src code addr origin) := by
  unfold noteRefusal
  simp (maxDischargeDepth := 40) only [keeps_raise, keeps_mk, hk]

theorem keeps_sendResp (r0 : State) (s : State) (op : Nat) (r : Resp) (hk : Keeps r0 s) : Keeps r0 (sendResp s op r) := by
  unfold sendResp
  simp (maxDischargeDepth := 40) only [keeps_mk, hk]

theorem keeps_launch (r0 : State) (s : State) (m : NetMsg) (hk : Keeps r0 s) : Keeps r0 (launch s m) := by
  unfold launch
  (repeat' split) <;> simp (maxDischargeDepth := 40) only [keeps_toRouter, keeps_noteRefusal, keeps_sendResp, keeps_mk, hk]

theorem keeps_sendRemote (r0 : State) (s : State) (l : Nat) (addr : BitVec 64) (chip : BitVec 17) (write fence : Bool) (msg : BitVec 15 → NetMsg) (hk : Keeps r0 s) : Keeps r0 (sendRemote s l addr chip write fence msg) := by
  unfold sendRemote
  simp (maxDischargeDepth := 40) only [keeps_setLeaf, keeps_launch, keeps_ite, hk]

theorem keeps_remoteBody (r0 : State) (s : State) (l : Nat) (addr : BitVec 64) (write fence : Bool) (fin : Leaf → Leaf) (msg : BitVec 15 → NetMsg) (hk : Keeps r0 s) : ResKeeps r0 (remoteBody s l addr write fence fin msg) := by
  unfold remoteBody
  repeat' (first | with_reducible exact hk | with_reducible exact keeps_refl _ | exact trivial | exact (fun u => keeps_refl u) | with_reducible apply keeps_setLeaf | with_reducible apply keeps_sendRemote | with_reducible apply resKeeps_ite | with_reducible apply resKeeps_done | with_reducible apply resKeeps_hold | with_reducible apply resKeeps_jump | with_reducible apply resKeeps_faultIn | with_reducible apply keeps_ite | with_reducible apply keeps_foldl | intro _ | dsimp only | split | (simp (maxDischargeDepth := 40) only [keeps_setLeaf, keeps_sendRemote, keeps_ite, keeps_mk, keeps_foldl, keeps_refl, hk, resKeeps_ite, resKeeps_done, resKeeps_hold, resKeeps_jump, resKeeps_faultIn, resKeeps_block, resKeeps_fault]; done))

theorem keeps_readBody (r0 : State) (s : State) (l : Nat) (addr : BitVec 64) (op : BitVec 5) (pair : Bool) (d : Nat) (hk : Keeps r0 s) : ResKeeps r0 (readBody s l addr op pair d) := by
  unfold readBody
  simp (maxDischargeDepth := 40) only [keeps_setLeaf, keeps_launch, hk, resKeeps_ite, resKeeps_done, resKeeps_fault]

theorem keeps_cacheWriteBack (r0 : State) (s : State) (l : Nat) (c : CLine) (event : Bool) (hk : Keeps r0 s) : Keeps r0 (cacheWriteBack s l c event) := by
  unfold cacheWriteBack
  simp (maxDischargeDepth := 40) only [keeps_setLeaf, keeps_raise, keeps_launch, keeps_ite, hk]

theorem keeps_writeBackAll (r0 : State) (s : State) (l : Nat) (hk : Keeps r0 s) : Keeps r0 (writeBackAll s l) := by
  unfold writeBackAll
  repeat' (first | with_reducible exact hk | with_reducible exact keeps_refl _ | exact trivial | exact (fun u => keeps_refl u) | with_reducible apply keeps_modLeaf | with_reducible apply keeps_cacheWriteBack | with_reducible apply keeps_ite | with_reducible apply keeps_foldl | intro _ | dsimp only | split | (simp (maxDischargeDepth := 40) only [keeps_modLeaf, keeps_cacheWriteBack, keeps_ite, keeps_mk, keeps_foldl, keeps_refl, hk]; done))

theorem keeps_evictFor (r0 : State) (s : State) (l line : Nat) (hk : Keeps r0 s) : Keeps r0 (evictFor s l line) := by
  unfold evictFor
  repeat' (first | with_reducible exact hk | with_reducible exact keeps_refl _ | exact trivial | exact (fun u => keeps_refl u) | with_reducible apply keeps_modLeaf | with_reducible apply keeps_cacheWriteBack | with_reducible apply keeps_ite | with_reducible apply keeps_foldl | intro _ | dsimp only | split | (simp (maxDischargeDepth := 40) only [keeps_modLeaf, keeps_cacheWriteBack, keeps_ite, keeps_mk, keeps_foldl, keeps_refl, hk]; done))

theorem keeps_loadHit (r0 : State) (s : State) (l t d w : Nat) (c : CLine) (hk : Keeps r0 s) : ResKeeps r0 (loadHit s l t d w c) := by
  unfold loadHit
  simp (maxDischargeDepth := 40) only [keeps_modLeaf, keeps_draw, keeps_cacheWriteBack, hk, resKeeps_ite, resKeeps_done, resKeeps_faultIn]

theorem keeps_cachedLoad (r0 : State) (s : State) (l t d off : Nat) (hk : Keeps r0 s) : ResKeeps r0 (cachedLoad s l t d off) := by
  unfold cachedLoad
  repeat' (first | with_reducible exact hk | with_reducible exact keeps_refl _ | exact trivial | exact (fun u => keeps_refl u) | with_reducible apply keeps_setLeaf | with_reducible apply keeps_loadHit | with_reducible apply resKeeps_ite | with_reducible apply resKeeps_done | with_reducible apply resKeeps_hold | with_reducible apply resKeeps_jump | with_reducible apply resKeeps_faultIn | with_reducible apply keeps_ite | with_reducible apply keeps_foldl | intro _ | dsimp only | split | (simp (maxDischargeDepth := 40) only [keeps_setLeaf, keeps_loadHit, keeps_ite, keeps_mk, keeps_foldl, keeps_refl, hk, resKeeps_ite, resKeeps_done, resKeeps_hold, resKeeps_jump, resKeeps_faultIn, resKeeps_block, resKeeps_fault]; done))

theorem keeps_cachedStore (r0 : State) (s : State) (l off : Nat) (v : Word) (hk : Keeps r0 s) : Keeps r0 (cachedStore s l off v) := by
  unfold cachedStore
  repeat' (first | with_reducible exact hk | with_reducible exact keeps_refl _ | exact trivial | exact (fun u => keeps_refl u) | with_reducible apply keeps_setLeaf | with_reducible apply keeps_ite | with_reducible apply keeps_foldl | intro _ | dsimp only | split | (simp (maxDischargeDepth := 40) only [keeps_setLeaf, keeps_ite, keeps_mk, keeps_foldl, keeps_refl, hk]; done))

theorem keeps_cachedLine (r0 : State) (s : State) (l off : Nat) (v : Lanes) (hk : Keeps r0 s) : Keeps r0 (cachedLine s l off v) := by
  unfold cachedLine
  simp (maxDischargeDepth := 40) only [keeps_modLeaf, keeps_evictFor, keeps_ite, hk]

theorem keeps_cachedWrite (r0 : State) (s : State) (l : Nat) (fin : Leaf → Leaf) (put : State → State) (hk : Keeps r0 s) (hput : ∀ u, Keeps u (put u)) : ResKeeps r0 (cachedWrite s l fin put) := by
  unfold cachedWrite
  repeat' (first | with_reducible exact hk | with_reducible exact keeps_refl _ | exact trivial | exact (fun u => keeps_refl u) | exact keeps_trans _ _ _ (by simp (maxDischargeDepth := 40) only [keeps_setLeaf, keeps_ite, keeps_mk, keeps_foldl, keeps_refl, hk, resKeeps_ite, resKeeps_done, resKeeps_hold, resKeeps_jump, resKeeps_faultIn, resKeeps_block, resKeeps_fault]) (hput _) | with_reducible apply keeps_setLeaf | with_reducible apply resKeeps_ite | with_reducible apply resKeeps_done | with_reducible apply resKeeps_hold | with_reducible apply resKeeps_jump | with_reducible apply resKeeps_faultIn | with_reducible apply keeps_ite | with_reducible apply keeps_foldl | intro _ | dsimp only | split | (simp (maxDischargeDepth := 40) only [keeps_setLeaf, hk]; done))

theorem keeps_satisfyWatches (r0 : State) (s : State) (g : Nat) (hk : Keeps r0 s) : Keeps r0 (satisfyWatches s g) := by
  unfold satisfyWatches
  simp (maxDischargeDepth := 40) only [keeps_mk, hk]

theorem keeps_gcAdd (r0 : State) (s : State) (g n : Nat) (hk : Keeps r0 s) : Keeps r0 (gcAdd s g n) := by
  unfold gcAdd
  simp (maxDischargeDepth := 40) only [keeps_gcInc, keeps_satisfyWatches, hk]

theorem keeps_takeMsg (r0 : State) (s : State) (op : Nat) (r : Req) (hk : Keeps r0 s) : Keeps r0 (takeMsg s op r) := by
  unfold takeMsg
  simp (maxDischargeDepth := 40) only [keeps_mk, hk]

theorem keeps_keepMsg (r0 : State) (s : State) (op : Nat) (r : Req) (hk : Keeps r0 s) : Keeps r0 (keepMsg s op r) := by
  unfold keepMsg
  simp (maxDischargeDepth := 40) only [keeps_ite, keeps_mk, hk]

theorem keeps_respond (r0 : State) (s : State) (r : Req) (op code : Nat) (data : List Word) (hk : Keeps r0 s) : Keeps r0 (respond s r op code data) := by
  unfold respond
  (repeat' split) <;> simp (maxDischargeDepth := 40) only [keeps_toRouter, keeps_sendResp, hk]

theorem keeps_countViolation (r0 : State) (s : State) (p code : Nat) (hdr : BitVec 128) (hk : Keeps r0 s) : Keeps r0 (countViolation s p code hdr) := by
  unfold countViolation
  simp (maxDischargeDepth := 40) only [keeps_modPort, keeps_raise, keeps_mk, hk]

theorem keeps_refuse (r0 : State) (s : State) (r : Req) (code : Nat) (hk : Keeps r0 s) : Keeps r0 (refuse s r code) := by
  unfold refuse
  (repeat' split) <;> simp (maxDischargeDepth := 40) only [keeps_noteRefusal, keeps_respond, keeps_countViolation, hk]

theorem keeps_readPlace (r0 : State) (s : State) (off n : Nat) (check : LineCheck) (hk : Keeps r0 s) : Keeps r0 (readPlace s off n check).1 := by
  unfold readPlace
  (repeat' split) <;> simp (maxDischargeDepth := 40) only [keeps_slotARead, keeps_bumpCol, keeps_lineFetch, hk]

theorem keeps_askSlot (r0 : State) (s : State) (c src : Nat) (tag : BitVec 15) (lines : List Nat) (rmw : Bool) (hk : Keeps r0 s) : Keeps r0 (askSlot s c src tag lines rmw).2 := by
  unfold askSlot
  repeat' (first | with_reducible exact hk | with_reducible exact keeps_refl _ | exact trivial | exact (fun u => keeps_refl u) | with_reducible apply keeps_setCol | with_reducible apply keeps_emptySlot | with_reducible apply keeps_ite | with_reducible apply keeps_foldl | intro _ | dsimp only | split | (simp (maxDischargeDepth := 40) only [keeps_setCol, keeps_emptySlot, keeps_ite, keeps_mk, keeps_foldl, keeps_refl, hk]; done))

theorem keeps_portAsk (r0 : State) (s : State) (r : Req) (off n : Nat) (write : Bool) (hk : Keeps r0 s) : Keeps r0 (portAsk s r off n write).2 := by
  unfold portAsk
  repeat' (first | with_reducible exact hk | with_reducible exact keeps_refl _ | exact trivial | exact (fun u => keeps_refl u) | with_reducible apply keeps_modLeaf | with_reducible apply keeps_slotAAsk | with_reducible apply keeps_askSlot | with_reducible apply keeps_ite | with_reducible apply keeps_foldl | intro _ | dsimp only | split | (simp (maxDischargeDepth := 40) only [keeps_modLeaf, keeps_slotAAsk, keeps_askSlot, keeps_ite, keeps_mk, keeps_foldl, keeps_refl, hk]; done))

theorem keeps_noteWindow (r0 : State) (s : State) (r : Req) (off n : Nat) (write : Bool) (hk : Keeps r0 s) : Keeps r0 (noteWindow s r off n write) := by
  unfold noteWindow
  (repeat' split) <;> simp (maxDischargeDepth := 40) only [keeps_windowRefuse, hk]

theorem keeps_serveOne (r0 : State) (s : State) (op len n : Nat) (ctr write : Bool) (r : Req) (act : State → State) (hk : Keeps r0 s) (hact : ∀ u, Keeps u (act u)) : Keeps r0 (serveOne s op len n ctr write r act) := by
  unfold serveOne
  repeat' (first | with_reducible exact hk | with_reducible exact keeps_refl _ | exact trivial | exact (fun u => keeps_refl u) | exact keeps_trans _ _ _ (by simp (maxDischargeDepth := 40) only [keeps_takeMsg, keeps_keepMsg, keeps_refuse, keeps_portAsk, keeps_noteWindow, keeps_ite, keeps_mk, keeps_foldl, keeps_refl, hk]) (hact _) | with_reducible apply keeps_takeMsg | with_reducible apply keeps_keepMsg | with_reducible apply keeps_refuse | with_reducible apply keeps_portAsk | with_reducible apply keeps_noteWindow | with_reducible apply keeps_ite | with_reducible apply keeps_foldl | intro _ | dsimp only | split | (simp (maxDischargeDepth := 40) only [keeps_takeMsg, keeps_portAsk, hk]; done))

theorem keeps_answerRead (r0 : State) (s : State) (r : Req) (n : Nat) (hk : Keeps r0 s) : Keeps r0 (answerRead s r n) := by
  unfold answerRead
  repeat' (first | with_reducible exact hk | with_reducible exact keeps_refl _ | exact trivial | exact (fun u => keeps_refl u) | with_reducible apply keeps_respond | with_reducible apply keeps_refuse | with_reducible apply keeps_readPlace | with_reducible apply keeps_ite | with_reducible apply keeps_foldl | intro _ | dsimp only | split | (simp (maxDischargeDepth := 40) only [keeps_respond, keeps_refuse, keeps_readPlace, keeps_ite, keeps_mk, keeps_foldl, keeps_refl, hk]; done))

theorem keeps_execRead4 (r : Req) (s : State) (t : State) (e : execRead4 r s = .next t) : Keeps s t := by
  have hk : Keeps s s := keeps_refl _
  simp only [execRead4, Host.Outcome.next.injEq] at e
  subst e
  repeat' (first | with_reducible exact hk | with_reducible exact keeps_refl _ | exact trivial | exact (fun u => keeps_refl u) | with_reducible apply keeps_serveOne | with_reducible apply keeps_answerRead | with_reducible apply resKeeps_ite | with_reducible apply resKeeps_done | with_reducible apply resKeeps_hold | with_reducible apply resKeeps_jump | with_reducible apply resKeeps_faultIn | with_reducible apply keeps_ite | with_reducible apply keeps_foldl | intro _ | dsimp only | split | (simp (maxDischargeDepth := 40) only [keeps_serveOne, keeps_answerRead, keeps_ite, keeps_mk, keeps_foldl, keeps_refl, hk, resKeeps_ite, resKeeps_done, resKeeps_hold, resKeeps_jump, resKeeps_faultIn, resKeeps_block, resKeeps_fault]; done))

theorem keeps_execRead64 (r : Req) (s : State) (t : State) (e : execRead64 r s = .next t) : Keeps s t := by
  have hk : Keeps s s := keeps_refl _
  simp only [execRead64, Host.Outcome.next.injEq] at e
  subst e
  repeat' (first | with_reducible exact hk | with_reducible exact keeps_refl _ | exact trivial | exact (fun u => keeps_refl u) | with_reducible apply keeps_serveOne | with_reducible apply keeps_answerRead | with_reducible apply resKeeps_ite | with_reducible apply resKeeps_done | with_reducible apply resKeeps_hold | with_reducible apply resKeeps_jump | with_reducible apply resKeeps_faultIn | with_reducible apply keeps_ite | with_reducible apply keeps_foldl | intro _ | dsimp only | split | (simp (maxDischargeDepth := 40) only [keeps_serveOne, keeps_answerRead, keeps_ite, keeps_mk, keeps_foldl, keeps_refl, hk, resKeeps_ite, resKeeps_done, resKeeps_hold, resKeeps_jump, resKeeps_faultIn, resKeeps_block, resKeeps_fault]; done))

theorem keeps_execCread (r : Req) (s : State) (t : State) (e : execCread r s = .next t) : Keeps s t := by
  have hk : Keeps s s := keeps_refl _
  simp only [execCread, Host.Outcome.next.injEq] at e
  subst e
  repeat' (first | with_reducible exact hk | with_reducible exact keeps_refl _ | exact trivial | exact (fun u => keeps_refl u) | with_reducible apply keeps_serveOne | with_reducible apply keeps_answerRead | with_reducible apply resKeeps_ite | with_reducible apply resKeeps_done | with_reducible apply resKeeps_hold | with_reducible apply resKeeps_jump | with_reducible apply resKeeps_faultIn | with_reducible apply keeps_ite | with_reducible apply keeps_foldl | intro _ | dsimp only | split | (simp (maxDischargeDepth := 40) only [keeps_serveOne, keeps_answerRead, keeps_ite, keeps_mk, keeps_foldl, keeps_refl, hk, resKeeps_ite, resKeeps_done, resKeeps_hold, resKeeps_jump, resKeeps_faultIn, resKeeps_block, resKeeps_fault]; done))

theorem keeps_writePlace (r0 : State) (s : State) (off : Nat) (bs : List Byte) (poison : Bool) (check : LineCheck) (hk : Keeps r0 s) : Keeps r0 (writePlace s off bs poison check) := by
  unfold writePlace
  (repeat' split) <;> simp (maxDischargeDepth := 40) only [keeps_slotAWrite, keeps_bumpCol, keeps_lineWrite, hk]

theorem keeps_account (r0 : State) (s : State) (r : Req) (n : Nat) (hk : Keeps r0 s) : Keeps r0 (account s r n) := by
  unfold account
  simp (maxDischargeDepth := 40) only [keeps_gcAdd, keeps_ite, hk]

theorem keeps_execWrite4 (r : Req) (s : State) (t : State) (e : execWrite4 r s = .next t) : Keeps s t := by
  have hk : Keeps s s := keeps_refl _
  simp only [execWrite4, Host.Outcome.next.injEq] at e
  subst e
  repeat' (first | with_reducible exact hk | with_reducible exact keeps_refl _ | exact trivial | exact (fun u => keeps_refl u) | with_reducible apply keeps_respond | with_reducible apply keeps_serveOne | with_reducible apply keeps_writePlace | with_reducible apply keeps_account | with_reducible apply resKeeps_ite | with_reducible apply resKeeps_done | with_reducible apply resKeeps_hold | with_reducible apply resKeeps_jump | with_reducible apply resKeeps_faultIn | with_reducible apply keeps_ite | with_reducible apply keeps_foldl | intro _ | dsimp only | split | (simp (maxDischargeDepth := 40) only [keeps_respond, keeps_serveOne, keeps_writePlace, keeps_account, keeps_ite, keeps_mk, keeps_foldl, keeps_refl, hk, resKeeps_ite, resKeeps_done, resKeeps_hold, resKeeps_jump, resKeeps_faultIn, resKeeps_block, resKeeps_fault]; done))

theorem keeps_execWrite64 (r : Req) (s : State) (t : State) (e : execWrite64 r s = .next t) : Keeps s t := by
  have hk : Keeps s s := keeps_refl _
  simp only [execWrite64, Host.Outcome.next.injEq] at e
  subst e
  repeat' (first | with_reducible exact hk | with_reducible exact keeps_refl _ | exact trivial | exact (fun u => keeps_refl u) | with_reducible apply keeps_respond | with_reducible apply keeps_serveOne | with_reducible apply keeps_writePlace | with_reducible apply keeps_account | with_reducible apply resKeeps_ite | with_reducible apply resKeeps_done | with_reducible apply resKeeps_hold | with_reducible apply resKeeps_jump | with_reducible apply resKeeps_faultIn | with_reducible apply keeps_ite | with_reducible apply keeps_foldl | intro _ | dsimp only | split | (simp (maxDischargeDepth := 40) only [keeps_respond, keeps_serveOne, keeps_writePlace, keeps_account, keeps_ite, keeps_mk, keeps_foldl, keeps_refl, hk, resKeeps_ite, resKeeps_done, resKeeps_hold, resKeeps_jump, resKeeps_faultIn, resKeeps_block, resKeeps_fault]; done))

theorem keeps_execCinc (r : Req) (s : State) (t : State) (e : execCinc r s = .next t) : Keeps s t := by
  have hk : Keeps s s := keeps_refl _
  simp only [execCinc, Host.Outcome.next.injEq] at e
  subst e
  repeat' (first | with_reducible exact hk | with_reducible exact keeps_refl _ | exact trivial | exact (fun u => keeps_refl u) | with_reducible apply keeps_lcInc | with_reducible apply keeps_gcAdd | with_reducible apply keeps_respond | with_reducible apply keeps_serveOne | with_reducible apply resKeeps_ite | with_reducible apply resKeeps_done | with_reducible apply resKeeps_hold | with_reducible apply resKeeps_jump | with_reducible apply resKeeps_faultIn | with_reducible apply keeps_ite | with_reducible apply keeps_foldl | intro _ | dsimp only | split | (simp (maxDischargeDepth := 40) only [keeps_lcInc, keeps_gcAdd, keeps_respond, keeps_serveOne, keeps_ite, keeps_mk, keeps_foldl, keeps_refl, hk, resKeeps_ite, resKeeps_done, resKeeps_hold, resKeeps_jump, resKeeps_faultIn, resKeeps_block, resKeeps_fault]; done))

theorem keeps_serve256 (r0 : State) (s : State) (op len : Nat) (write : Bool) (r : Req) (act : State → State) (hk : Keeps r0 s) (hact : ∀ u, Keeps u (act u)) : Keeps r0 (serve256 s op len write r act) := by
  unfold serve256
  repeat' (first | with_reducible exact hk | with_reducible exact keeps_refl _ | exact trivial | exact (fun u => keeps_refl u) | exact keeps_trans _ _ _ (by simp (maxDischargeDepth := 40) only [keeps_takeMsg, keeps_keepMsg, keeps_refuse, keeps_portAsk, keeps_noteWindow, keeps_ite, keeps_mk, keeps_foldl, keeps_refl, hk]) (hact _) | with_reducible apply keeps_takeMsg | with_reducible apply keeps_keepMsg | with_reducible apply keeps_refuse | with_reducible apply keeps_portAsk | with_reducible apply keeps_noteWindow | with_reducible apply keeps_ite | with_reducible apply keeps_foldl | intro _ | dsimp only | split | (simp (maxDischargeDepth := 40) only [keeps_takeMsg, keeps_portAsk, hk]; done))

theorem keeps_readFour (s0 : State) (s : State) (qs : List Nat) (cs : List LineCheck) (h : Keeps s0 s) :
    Keeps s0 (readFour s qs cs).1 := by
  induction qs generalizing s cs with
  | nil => exact h
  | cons q r ih => exact ih _ _ (keeps_readPlace _ _ _ _ _ h)

theorem keeps_execRead256 (r : Req) (s : State) (t : State) (e : execRead256 r s = .next t) : Keeps s t := by
  have hk : Keeps s s := keeps_refl _
  simp only [execRead256, Host.Outcome.next.injEq] at e
  subst e
  repeat' (first | with_reducible exact hk | with_reducible exact keeps_refl _ | exact trivial | exact (fun u => keeps_refl u) | with_reducible apply keeps_respond | with_reducible apply keeps_refuse | with_reducible apply keeps_serve256 | with_reducible apply keeps_readFour | with_reducible apply resKeeps_ite | with_reducible apply resKeeps_done | with_reducible apply resKeeps_hold | with_reducible apply resKeeps_jump | with_reducible apply resKeeps_faultIn | with_reducible apply keeps_ite | with_reducible apply keeps_foldl | intro _ | dsimp only | split | (simp (maxDischargeDepth := 40) only [keeps_respond, keeps_refuse, keeps_serve256, keeps_readFour, keeps_ite, keeps_mk, keeps_foldl, keeps_refl, hk, resKeeps_ite, resKeeps_done, resKeeps_hold, resKeeps_jump, resKeeps_faultIn, resKeeps_block, resKeeps_fault]; done))

theorem keeps_execWrite256 (r : Req) (s : State) (t : State) (e : execWrite256 r s = .next t) : Keeps s t := by
  have hk : Keeps s s := keeps_refl _
  simp only [execWrite256, Host.Outcome.next.injEq] at e
  subst e
  repeat' (first | with_reducible exact hk | with_reducible exact keeps_refl _ | exact trivial | exact (fun u => keeps_refl u) | with_reducible apply keeps_respond | with_reducible apply keeps_writePlace | with_reducible apply keeps_account | with_reducible apply keeps_serve256 | with_reducible apply resKeeps_ite | with_reducible apply resKeeps_done | with_reducible apply resKeeps_hold | with_reducible apply resKeeps_jump | with_reducible apply resKeeps_faultIn | with_reducible apply keeps_ite | with_reducible apply keeps_foldl | intro _ | dsimp only | split | (simp (maxDischargeDepth := 40) only [keeps_respond, keeps_writePlace, keeps_account, keeps_serve256, keeps_ite, keeps_mk, keeps_foldl, keeps_refl, hk, resKeeps_ite, resKeeps_done, resKeeps_hold, resKeeps_jump, resKeeps_faultIn, resKeeps_block, resKeeps_fault]; done))

theorem keeps_syncAck (r0 : State) (s : State) (a : Nat × BitVec 15) (hk : Keeps r0 s) : Keeps r0 (syncAck s a) := by
  unfold syncAck
  simp (maxDischargeDepth := 40) only [keeps_modLeaf, hk]

theorem keeps_execRemoteIncrement (m : IncMsg) (s : State) (t : State) (e : execRemoteIncrement m s = .next t) : Keeps s t := by
  have hk : Keeps s s := keeps_refl _
  simp only [execRemoteIncrement, Host.Outcome.next.injEq] at e
  subst e
  repeat' (first | with_reducible exact hk | with_reducible exact keeps_refl _ | exact trivial | exact (fun u => keeps_refl u) | with_reducible apply keeps_gcAdd | with_reducible apply keeps_syncAck | with_reducible apply resKeeps_ite | with_reducible apply resKeeps_done | with_reducible apply resKeeps_hold | with_reducible apply resKeeps_jump | with_reducible apply resKeeps_faultIn | with_reducible apply keeps_ite | with_reducible apply keeps_foldl | intro _ | dsimp only | split | (simp (maxDischargeDepth := 40) only [keeps_mk, keeps_refl]; done))

theorem keeps_dropArrivals (r0 : State) (s : State) (node gc : Nat) (hk : Keeps r0 s) : Keeps r0 (dropArrivals s node gc) := by
  unfold dropArrivals
  simp (maxDischargeDepth := 40) only [keeps_mk, hk]

theorem keeps_execBarrierCombine (node gc : Nat) (s : State) (t : State) (e : execBarrierCombine node gc s = .next t) : Keeps s t := by
  have hk : Keeps s s := keeps_refl _
  simp only [execBarrierCombine, Host.Outcome.next.injEq] at e
  subst e
  simp (maxDischargeDepth := 40) only [keeps_dropArrivals, keeps_ite, keeps_mk, keeps_refl]

end Sys2Proof.Machine
end

