-- ==== Sys2Proof/Laws/KeepsLeaf.lean ====
section
/-! SUPPORT. The operations and meanings of this part of the machine keep the queue, the memory and the event log in
order, one lemma each (Laws/Keeps.lean). -/
namespace Sys2Proof.Machine

theorem keeps_stampSend (r0 : State) (s : State) (l : Nat) (tag : BitVec 15) (hk : Keeps r0 s) : Keeps r0 (stampSend s l tag) := by
  unfold stampSend
  simp (maxDischargeDepth := 40) only [keeps_modLeaf, hk]

theorem keeps_releaseSends (s0 : State) (l : Nat) (s : State) (hs : List HeldSend) (h : Keeps s0 s) :
    Keeps s0 (releaseSends l s hs).1 := by
  induction hs generalizing s with
  | nil => exact h
  | cons a r ih =>
    unfold releaseSends
    simp only
    (repeat' split) <;> first | exact h | exact ih _ (keeps_launch _ _ _ (keeps_stampSend _ _ _ _ h))

theorem keeps_sendHeld (r0 : State) (s : State) (l : Nat) (hk : Keeps r0 s) : Keeps r0 (sendHeld s l) := by
  unfold sendHeld
  simp (maxDischargeDepth := 40) only [keeps_modLeaf, keeps_releaseSends, hk]

theorem keeps_execGfincLeaves (l : Nat) (s : State) (t : State) (e : execGfincLeaves l s = .next t) : Keeps s t := by
  have hk : Keeps s s := keeps_refl _
  simp only [execGfincLeaves, Host.Outcome.next.injEq] at e
  subst e
  simp (maxDischargeDepth := 40) only [keeps_sendHeld, keeps_ite, keeps_refl]

theorem keeps_execWatch (l : Nat) (s : State) (t : State) (e : execWatch l s = .next t) : Keeps s t := by
  have hk : Keeps s s := keeps_refl _
  simp only [execWatch, Host.Outcome.next.injEq] at e
  subst e
  (repeat' split) <;> simp (maxDischargeDepth := 40) only [keeps_setLeaf, keeps_satisfyWatches, keeps_refl]

theorem keeps_execCancel (l : Nat) (s : State) (t : State) (e : execCancel l s = .next t) : Keeps s t := by
  have hk : Keeps s s := keeps_refl _
  simp only [execCancel, Host.Outcome.next.injEq] at e
  subst e
  (repeat' split) <;> simp (maxDischargeDepth := 40) only [keeps_setLeaf, keeps_refl]

theorem keeps_execSatisfy (l : Nat) (s : State) (t : State) (e : execSatisfy l s = .next t) : Keeps s t := by
  have hk : Keeps s s := keeps_refl _
  simp only [execSatisfy, Host.Outcome.next.injEq] at e
  subst e
  (repeat' split) <;> simp (maxDischargeDepth := 40) only [keeps_setLeaf, keeps_refl]

theorem keeps_execValue (l : Nat) (s : State) (t : State) (e : execValue l s = .next t) : Keeps s t := by
  have hk : Keeps s s := keeps_refl _
  simp only [execValue, Host.Outcome.next.injEq] at e
  subst e
  (repeat' split) <;> simp (maxDischargeDepth := 40) only [keeps_setLeaf, keeps_refl]

theorem keeps_wakeLocal (r0 : State) (s : State) (l : Nat) (hk : Keeps r0 s) : Keeps r0 (wakeLocal s l) := by
  unfold wakeLocal
  repeat' (first | with_reducible exact hk | with_reducible exact keeps_refl _ | exact trivial | exact (fun u => keeps_refl u) | with_reducible apply keeps_setLeaf | with_reducible apply keeps_ite | with_reducible apply keeps_foldl | intro _ | dsimp only | split | (simp (maxDischargeDepth := 40) only [keeps_setLeaf, keeps_ite, keeps_mk, keeps_foldl, keeps_refl, hk]; done))

theorem keeps_execWaitTimeout (l : Nat) (s : State) (t : State) (e : execWaitTimeout l s = .next t) : Keeps s t := by
  have hk : Keeps s s := keeps_refl _
  simp only [execWaitTimeout, Host.Outcome.next.injEq] at e
  subst e
  (repeat' split) <;> simp (maxDischargeDepth := 40) only [keeps_setLeaf, keeps_refl]

theorem keeps_execGatherDrain (l : Nat) (row : Nat) (s : State) (t : State) (e : execGatherDrain l row s = .next t) : Keeps s t := by
  have hk : Keeps s s := keeps_refl _
  simp only [execGatherDrain, Host.Outcome.next.injEq] at e
  subst e
  simp (maxDischargeDepth := 40) only [keeps_drainAsk, keeps_ite, keeps_refl]

theorem keeps_overlapCheck (r0 : State) (s : State) (l word n : Nat) (hk : Keeps r0 s) : Keeps r0 (overlapCheck s l word n) := by
  unfold overlapCheck
  simp (maxDischargeDepth := 40) only [keeps_raise, keeps_bumpLeaf, keeps_ite, hk]

theorem keeps_writeDeposit (r0 : State) (s : State) (l : Nat) (d : Deposit) (hk : Keeps r0 s) : Keeps r0 (writeDeposit s l d) := by
  unfold writeDeposit
  simp (maxDischargeDepth := 40) only [keeps_modLeaf, keeps_slotB, keeps_overlapCheck, keeps_ite, hk]

theorem keeps_execDepositWrite (l : Nat) (s : State) (t : State) (e : execDepositWrite l s = .next t) : Keeps s t := by
  have hk : Keeps s s := keeps_refl _
  simp only [execDepositWrite, Host.Outcome.next.injEq] at e
  subst e
  (repeat' split) <;> simp (maxDischargeDepth := 40) only [keeps_writeDeposit, keeps_refl]

theorem keeps_execCanopyLandingWrite (l : Nat) (s : State) (t : State) (e : execCanopyLandingWrite l s = .next t) : Keeps s t := by
  have hk : Keeps s s := keeps_refl _
  simp only [execCanopyLandingWrite, Host.Outcome.next.injEq] at e
  subst e
  (repeat' split) <;> simp (maxDischargeDepth := 40) only [keeps_setLeaf, keeps_bumpLeaf, keeps_lcInc, keeps_slotB, keeps_overlapCheck, keeps_refl]

theorem keeps_execScoreboardRelease (l : Nat) (s : State) (t : State) (e : execScoreboardRelease l s = .next t) : Keeps s t := by
  have hk : Keeps s s := keeps_refl _
  simp only [execScoreboardRelease, Host.Outcome.next.injEq] at e
  subst e
  simp (maxDischargeDepth := 40) only [keeps_modLeaf, keeps_refl]

theorem keeps_fillRefused (r0 : State) (s : State) (l : Nat) (code : Nat) (m : CMiss) (hk : Keeps r0 s) : Keeps r0 (fillRefused s l code m) := by
  unfold fillRefused
  (repeat' split) <;> simp (maxDischargeDepth := 40) only [keeps_modLeaf, keeps_leafFault, hk]

theorem keeps_fillLine (r0 : State) (s : State) (l : Nat) (line : Nat) (ms : List CMiss) (data : Lanes) (bad : Bool) (hk : Keeps r0 s) : Keeps r0 (fillLine s l line ms data bad) := by
  unfold fillLine
  simp (maxDischargeDepth := 40) only [keeps_setLeaf, keeps_evictFor, keeps_ite, hk]

theorem keeps_execCacheFill (l : Nat) (check : LineCheck) (s : State) (t : State) (e : execCacheFill l check s = .next t) : Keeps s t := by
  have hk : Keeps s s := keeps_refl _
  simp only [execCacheFill, Host.Outcome.next.injEq] at e
  subst e
  repeat' (first | with_reducible exact hk | with_reducible exact keeps_refl _ | exact trivial | exact (fun u => keeps_refl u) | with_reducible apply keeps_setLeaf | with_reducible apply keeps_modLeaf | with_reducible apply keeps_bumpCol | with_reducible apply keeps_lineFetch | with_reducible apply keeps_askSlot | with_reducible apply keeps_fillRefused | with_reducible apply keeps_fillLine | with_reducible apply resKeeps_ite | with_reducible apply resKeeps_done | with_reducible apply resKeeps_hold | with_reducible apply resKeeps_jump | with_reducible apply resKeeps_faultIn | with_reducible apply keeps_ite | with_reducible apply keeps_foldl | intro _ | dsimp only | split | (simp (maxDischargeDepth := 40) only [keeps_setLeaf, keeps_modLeaf, keeps_bumpCol, keeps_lineFetch, keeps_askSlot, keeps_fillRefused, keeps_fillLine, keeps_ite, keeps_mk, keeps_foldl, keeps_refl, hk, resKeeps_ite, resKeeps_done, resKeeps_hold, resKeeps_jump, resKeeps_faultIn, resKeeps_block, resKeeps_fault]; done))

theorem keeps_execReRun (l : Nat) (s : State) (t : State) (e : execReRun l s = .next t) : Keeps s t := by
  have hk : Keeps s s := keeps_refl _
  simp only [execReRun, Host.Outcome.next.injEq] at e
  subst e
  (repeat' split) <;> simp (maxDischargeDepth := 40) only [keeps_setLeaf, keeps_leafFault, keeps_refl]

theorem keeps_coreAsk (r0 : State) (s : State) (l : Nat) (rows : List Nat) (write : Bool) (fin : State → Res) (hk : Keeps r0 s)
    (hf : ∀ u, Keeps r0 u → ResKeeps r0 (fin u)) : ResKeeps r0 (coreAsk s l rows write fin) := by
  have h (y : Leaf) : Keeps r0 (setLeaf s l y) := keeps_setLeaf _ _ _ _ hk
  unfold coreAsk
  simp only
  split
  · exact hf _ (keeps_settle _ _ _ _ (h _))
  · exact h _

theorem keeps_loadBody (r0 : State) (l o n : Nat) (put : Leaf → Lanes → Nat → Option Leaf) (s : State) (t : Nat) (hk : Keeps r0 s) : ResKeeps r0 (loadBody l o n put s t) := by
  unfold loadBody
  repeat' (first | with_reducible exact hk | with_reducible assumption | with_reducible exact keeps_refl _ | exact trivial | exact (fun u => keeps_refl u) | with_reducible apply keeps_setLeaf | with_reducible apply keeps_loadWords | with_reducible apply keeps_rowErrors | with_reducible apply keeps_coreAsk | with_reducible apply resKeeps_ite | with_reducible apply resKeeps_done | with_reducible apply resKeeps_hold | with_reducible apply resKeeps_jump | with_reducible apply resKeeps_faultIn | with_reducible apply keeps_ite | with_reducible apply keeps_foldl | intro _ | dsimp only | split | (simp (maxDischargeDepth := 40) only [keeps_setLeaf, keeps_loadWords, keeps_rowErrors, keeps_coreAsk, keeps_ite, keeps_mk, keeps_foldl, keeps_refl, hk, resKeeps_ite, resKeeps_done, resKeeps_hold, resKeeps_jump, resKeeps_faultIn, resKeeps_block, resKeeps_fault]; done))

theorem keeps_storeBody (r0 : State) (l o n : Nat) (mask : Nat → BitVec 16) (val : Leaf → Nat → Lanes) (fin : Leaf → Leaf) (s : State) (t : Nat) (hk : Keeps r0 s) : ResKeeps r0 (storeBody l o n mask val fin s t) := by
  unfold storeBody
  repeat' (first | with_reducible exact hk | with_reducible exact keeps_refl _ | exact trivial | exact (fun u => keeps_refl u) | with_reducible apply keeps_setLeaf | with_reducible apply resKeeps_ite | with_reducible apply resKeeps_done | with_reducible apply resKeeps_hold | with_reducible apply resKeeps_jump | with_reducible apply resKeeps_faultIn | with_reducible apply keeps_ite | with_reducible apply keeps_foldl | intro _ | dsimp only | split | (simp (maxDischargeDepth := 40) only [keeps_setLeaf, keeps_ite, keeps_mk, keeps_foldl, keeps_refl, hk, resKeeps_ite, resKeeps_done, resKeeps_hold, resKeeps_jump, resKeeps_faultIn, resKeeps_block, resKeeps_fault]; done))

theorem keeps_withBlock (s0 : State) (b : Option Block) (r : Res) (h : ResKeeps s0 r) : ResKeeps s0 (withBlock b r) := by
  unfold withBlock
  split
  · trivial
  · exact h

theorem keeps_execLdw (l : Nat) (f : RI) (s : State) (t : State) (e : execLdw l f s = .next t) : Keeps s t := by
  have hk : Keeps s s := keeps_refl _
  simp only [execLdw, Host.Outcome.next.injEq] at e
  subst e
  repeat' (first | with_reducible exact hk | with_reducible exact keeps_refl _ | exact trivial | exact (fun u => keeps_refl u) | with_reducible apply keeps_issue | with_reducible apply keeps_loadBody | with_reducible apply resKeeps_ite | with_reducible apply resKeeps_done | with_reducible apply resKeeps_hold | with_reducible apply resKeeps_jump | with_reducible apply resKeeps_faultIn | with_reducible apply keeps_ite | with_reducible apply keeps_foldl | intro _ | dsimp only | split | (simp (maxDischargeDepth := 40) only [keeps_issue, keeps_loadBody, keeps_ite, keeps_mk, keeps_foldl, keeps_refl, hk, resKeeps_ite, resKeeps_done, resKeeps_hold, resKeeps_jump, resKeeps_faultIn, resKeeps_block, resKeeps_fault]; done))

theorem keeps_execStw (l : Nat) (f : RI) (s : State) (t : State) (e : execStw l f s = .next t) : Keeps s t := by
  have hk : Keeps s s := keeps_refl _
  simp only [execStw, Host.Outcome.next.injEq] at e
  subst e
  repeat' (first | with_reducible exact hk | with_reducible exact keeps_refl _ | exact trivial | exact (fun u => keeps_refl u) | with_reducible apply keeps_issue | with_reducible apply keeps_storeBody | with_reducible apply resKeeps_ite | with_reducible apply resKeeps_done | with_reducible apply resKeeps_hold | with_reducible apply resKeeps_jump | with_reducible apply resKeeps_faultIn | with_reducible apply keeps_ite | with_reducible apply keeps_foldl | intro _ | dsimp only | split | (simp (maxDischargeDepth := 40) only [keeps_issue, keeps_storeBody, keeps_ite, keeps_mk, keeps_foldl, keeps_refl, hk, resKeeps_ite, resKeeps_done, resKeeps_hold, resKeeps_jump, resKeeps_faultIn, resKeeps_block, resKeeps_fault]; done))

theorem keeps_execLda (l : Nat) (f : AGf) (s : State) (t : State) (e : execLda l f s = .next t) : Keeps s t := by
  have hk : Keeps s s := keeps_refl _
  simp only [execLda, Host.Outcome.next.injEq] at e
  subst e
  repeat' (first | with_reducible exact hk | with_reducible exact keeps_refl _ | exact trivial | exact (fun u => keeps_refl u) | with_reducible apply keeps_issue | with_reducible apply keeps_loadBody | with_reducible apply resKeeps_ite | with_reducible apply resKeeps_done | with_reducible apply resKeeps_hold | with_reducible apply resKeeps_jump | with_reducible apply resKeeps_faultIn | with_reducible apply keeps_ite | with_reducible apply keeps_foldl | intro _ | dsimp only | split | (simp (maxDischargeDepth := 40) only [keeps_issue, keeps_loadBody, keeps_ite, keeps_mk, keeps_foldl, keeps_refl, hk, resKeeps_ite, resKeeps_done, resKeeps_hold, resKeeps_jump, resKeeps_faultIn, resKeeps_block, resKeeps_fault]; done))

theorem keeps_execSta (l : Nat) (f : AGf) (s : State) (t : State) (e : execSta l f s = .next t) : Keeps s t := by
  have hk : Keeps s s := keeps_refl _
  simp only [execSta, Host.Outcome.next.injEq] at e
  subst e
  repeat' (first | with_reducible exact hk | with_reducible exact keeps_refl _ | exact trivial | exact (fun u => keeps_refl u) | with_reducible apply keeps_issue | with_reducible apply keeps_storeBody | with_reducible apply resKeeps_ite | with_reducible apply resKeeps_done | with_reducible apply resKeeps_hold | with_reducible apply resKeeps_jump | with_reducible apply resKeeps_faultIn | with_reducible apply keeps_ite | with_reducible apply keeps_foldl | intro _ | dsimp only | split | (simp (maxDischargeDepth := 40) only [keeps_issue, keeps_storeBody, keeps_ite, keeps_mk, keeps_foldl, keeps_refl, hk, resKeeps_ite, resKeeps_done, resKeeps_hold, resKeeps_jump, resKeeps_faultIn, resKeeps_block, resKeeps_fault]; done))

theorem keeps_execVlda (l : Nat) (f : AGf) (s : State) (t : State) (e : execVlda l f s = .next t) : Keeps s t := by
  have hk : Keeps s s := keeps_refl _
  simp only [execVlda, Host.Outcome.next.injEq] at e
  subst e
  repeat' (first | with_reducible exact hk | with_reducible exact keeps_refl _ | exact trivial | exact (fun u => keeps_refl u) | with_reducible apply keeps_issue | with_reducible apply keeps_loadBody | with_reducible apply keeps_withBlock | with_reducible apply resKeeps_ite | with_reducible apply resKeeps_done | with_reducible apply resKeeps_hold | with_reducible apply resKeeps_jump | with_reducible apply resKeeps_faultIn | with_reducible apply keeps_ite | with_reducible apply keeps_foldl | intro _ | dsimp only | split | (simp (maxDischargeDepth := 40) only [keeps_issue, keeps_loadBody, keeps_withBlock, keeps_ite, keeps_mk, keeps_foldl, keeps_refl, hk, resKeeps_ite, resKeeps_done, resKeeps_hold, resKeeps_jump, resKeeps_faultIn, resKeeps_block, resKeeps_fault]; done))

theorem keeps_execVsta (l : Nat) (f : AGf) (s : State) (t : State) (e : execVsta l f s = .next t) : Keeps s t := by
  have hk : Keeps s s := keeps_refl _
  simp only [execVsta, Host.Outcome.next.injEq] at e
  subst e
  repeat' (first | with_reducible exact hk | with_reducible exact keeps_refl _ | exact trivial | exact (fun u => keeps_refl u) | with_reducible apply keeps_issue | with_reducible apply keeps_storeBody | with_reducible apply keeps_withBlock | with_reducible apply resKeeps_ite | with_reducible apply resKeeps_done | with_reducible apply resKeeps_hold | with_reducible apply resKeeps_jump | with_reducible apply resKeeps_faultIn | with_reducible apply keeps_ite | with_reducible apply keeps_foldl | intro _ | dsimp only | split | (simp (maxDischargeDepth := 40) only [keeps_issue, keeps_storeBody, keeps_withBlock, keeps_ite, keeps_mk, keeps_foldl, keeps_refl, hk, resKeeps_ite, resKeeps_done, resKeeps_hold, resKeeps_jump, resKeeps_faultIn, resKeeps_block, resKeeps_fault]; done))

theorem keeps_execVld (l : Nat) (f : RI) (s : State) (t : State) (e : execVld l f s = .next t) : Keeps s t := by
  have hk : Keeps s s := keeps_refl _
  simp only [execVld, Host.Outcome.next.injEq] at e
  subst e
  repeat' (first | with_reducible exact hk | with_reducible exact keeps_refl _ | exact trivial | exact (fun u => keeps_refl u) | with_reducible apply keeps_issue | with_reducible apply keeps_loadBody | with_reducible apply keeps_withBlock | with_reducible apply resKeeps_ite | with_reducible apply resKeeps_done | with_reducible apply resKeeps_hold | with_reducible apply resKeeps_jump | with_reducible apply resKeeps_faultIn | with_reducible apply keeps_ite | with_reducible apply keeps_foldl | intro _ | dsimp only | split | (simp (maxDischargeDepth := 40) only [keeps_issue, keeps_loadBody, keeps_withBlock, keeps_ite, keeps_mk, keeps_foldl, keeps_refl, hk, resKeeps_ite, resKeeps_done, resKeeps_hold, resKeeps_jump, resKeeps_faultIn, resKeeps_block, resKeeps_fault]; done))

theorem keeps_execVst (l : Nat) (f : RI) (s : State) (t : State) (e : execVst l f s = .next t) : Keeps s t := by
  have hk : Keeps s s := keeps_refl _
  simp only [execVst, Host.Outcome.next.injEq] at e
  subst e
  repeat' (first | with_reducible exact hk | with_reducible exact keeps_refl _ | exact trivial | exact (fun u => keeps_refl u) | with_reducible apply keeps_issue | with_reducible apply keeps_storeBody | with_reducible apply keeps_withBlock | with_reducible apply resKeeps_ite | with_reducible apply resKeeps_done | with_reducible apply resKeeps_hold | with_reducible apply resKeeps_jump | with_reducible apply resKeeps_faultIn | with_reducible apply keeps_ite | with_reducible apply keeps_foldl | intro _ | dsimp only | split | (simp (maxDischargeDepth := 40) only [keeps_issue, keeps_storeBody, keeps_withBlock, keeps_ite, keeps_mk, keeps_foldl, keeps_refl, hk, resKeeps_ite, resKeeps_done, resKeeps_hold, resKeeps_jump, resKeeps_faultIn, resKeeps_block, resKeeps_fault]; done))

theorem keeps_serveRow (r0 : State) (s : State) (l row : Nat) (hk : Keeps r0 s) : Keeps r0 (serveRow s l row) := by
  unfold serveRow
  (repeat' split) <;> simp (maxDischargeDepth := 40) only [keeps_modLeaf, keeps_putRow, keeps_keepWindows, keeps_loadWords, keeps_rowErrors, hk]

theorem keeps_serveRows (r0 : State) (s : State) (l t : Nat) (rows : List Nat) (hk : Keeps r0 s) : Keeps r0 (serveRows s l t rows) := by
  unfold serveRows
  repeat' (first | with_reducible exact hk | with_reducible exact keeps_refl _ | exact trivial | exact (fun u => keeps_refl u) | with_reducible apply keeps_modLeaf | with_reducible apply keeps_serveRow | with_reducible apply keeps_ite | with_reducible apply keeps_foldl | intro _ | dsimp only | split | (simp (maxDischargeDepth := 40) only [keeps_modLeaf, keeps_serveRow, keeps_ite, keeps_mk, keeps_foldl, keeps_refl, hk]; done))

theorem keeps_idxBody (r0 : State) (s : State) (l t : Nat) (o : IdxOp) (fin : Leaf → Leaf) (hk : Keeps r0 s) : ResKeeps r0 (idxBody s l t o fin) := by
  unfold idxBody
  repeat' (first | with_reducible exact hk | with_reducible assumption | with_reducible exact keeps_refl _ | exact trivial | exact (fun u => keeps_refl u) | with_reducible apply keeps_modLeaf | with_reducible apply keeps_coreAsk | with_reducible apply keeps_serveRows | with_reducible apply resKeeps_ite | with_reducible apply resKeeps_done | with_reducible apply resKeeps_hold | with_reducible apply resKeeps_jump | with_reducible apply resKeeps_faultIn | with_reducible apply keeps_ite | with_reducible apply keeps_foldl | intro _ | dsimp only | split | (simp (maxDischargeDepth := 40) only [keeps_coreAsk, hk, resKeeps_ite, resKeeps_block]; done))

theorem keeps_execVldx (l : Nat) (f : RR) (s : State) (t : State) (e : execVldx l f s = .next t) : Keeps s t := by
  have hk : Keeps s s := keeps_refl _
  simp only [execVldx, Host.Outcome.next.injEq] at e
  subst e
  repeat' (first | with_reducible exact hk | with_reducible exact keeps_refl _ | exact trivial | exact (fun u => keeps_refl u) | with_reducible apply keeps_issue | with_reducible apply keeps_withBlock | with_reducible apply keeps_idxBody | with_reducible apply resKeeps_ite | with_reducible apply resKeeps_done | with_reducible apply resKeeps_hold | with_reducible apply resKeeps_jump | with_reducible apply resKeeps_faultIn | with_reducible apply keeps_ite | with_reducible apply keeps_foldl | intro _ | dsimp only | split | (simp (maxDischargeDepth := 40) only [keeps_issue, keeps_withBlock, keeps_idxBody, keeps_ite, keeps_mk, keeps_foldl, keeps_refl, hk, resKeeps_ite, resKeeps_done, resKeeps_hold, resKeeps_jump, resKeeps_faultIn, resKeeps_block, resKeeps_fault]; done))

theorem keeps_execVstx (l : Nat) (f : RR) (s : State) (t : State) (e : execVstx l f s = .next t) : Keeps s t := by
  have hk : Keeps s s := keeps_refl _
  simp only [execVstx, Host.Outcome.next.injEq] at e
  subst e
  repeat' (first | with_reducible exact hk | with_reducible exact keeps_refl _ | exact trivial | exact (fun u => keeps_refl u) | with_reducible apply keeps_setLeaf | with_reducible apply keeps_issue | with_reducible apply keeps_withBlock | with_reducible apply keeps_idxBody | with_reducible apply resKeeps_ite | with_reducible apply resKeeps_done | with_reducible apply resKeeps_hold | with_reducible apply resKeeps_jump | with_reducible apply resKeeps_faultIn | with_reducible apply keeps_ite | with_reducible apply keeps_foldl | intro _ | dsimp only | split | (simp (maxDischargeDepth := 40) only [keeps_setLeaf, keeps_issue, keeps_withBlock, keeps_idxBody, keeps_ite, keeps_mk, keeps_foldl, keeps_refl, hk, resKeeps_ite, resKeeps_done, resKeeps_hold, resKeeps_jump, resKeeps_faultIn, resKeeps_block, resKeeps_fault]; done))

theorem keeps_aluRR (r0 : State) (fn lat : Nat) (op : Word → Word → Word) (l : Nat) (f : RR) (s : State) (hk : Keeps r0 s) : Keeps r0 (aluRR fn lat op l f s) := by
  unfold aluRR
  repeat' (first | with_reducible exact hk | with_reducible exact keeps_refl _ | exact trivial | exact (fun u => keeps_refl u) | with_reducible apply keeps_issue | with_reducible apply keeps_regBody | with_reducible apply resKeeps_ite | with_reducible apply resKeeps_done | with_reducible apply resKeeps_hold | with_reducible apply resKeeps_jump | with_reducible apply resKeeps_faultIn | with_reducible apply keeps_ite | with_reducible apply keeps_foldl | intro _ | dsimp only | split | (simp (maxDischargeDepth := 40) only [keeps_issue, keeps_regBody, keeps_ite, keeps_mk, keeps_foldl, keeps_refl, hk]; done))

theorem keeps_aluR (r0 : State) (fn : Nat) (op : Word → Word) (l : Nat) (f : RR) (s : State) (hk : Keeps r0 s) : Keeps r0 (aluR fn op l f s) := by
  unfold aluR
  repeat' (first | with_reducible exact hk | with_reducible exact keeps_refl _ | exact trivial | exact (fun u => keeps_refl u) | with_reducible apply keeps_issue | with_reducible apply keeps_regBody | with_reducible apply resKeeps_ite | with_reducible apply resKeeps_done | with_reducible apply resKeeps_hold | with_reducible apply resKeeps_jump | with_reducible apply resKeeps_faultIn | with_reducible apply keeps_ite | with_reducible apply keeps_foldl | intro _ | dsimp only | split | (simp (maxDischargeDepth := 40) only [keeps_issue, keeps_regBody, keeps_ite, keeps_mk, keeps_foldl, keeps_refl, hk]; done))

theorem keeps_aluRI (r0 : State) (opc : Nat) (op : Word → Word → Word) (l : Nat) (f : RI) (s : State) (hk : Keeps r0 s) : Keeps r0 (aluRI opc op l f s) := by
  unfold aluRI
  repeat' (first | with_reducible exact hk | with_reducible exact keeps_refl _ | exact trivial | exact (fun u => keeps_refl u) | with_reducible apply keeps_issue | with_reducible apply keeps_regBody | with_reducible apply resKeeps_ite | with_reducible apply resKeeps_done | with_reducible apply resKeeps_hold | with_reducible apply resKeeps_jump | with_reducible apply resKeeps_faultIn | with_reducible apply keeps_ite | with_reducible apply keeps_foldl | intro _ | dsimp only | split | (simp (maxDischargeDepth := 40) only [keeps_issue, keeps_regBody, keeps_ite, keeps_mk, keeps_foldl, keeps_refl, hk]; done))

theorem keeps_shiftI (r0 : State) (kind : Nat) (op : Word → Nat → Word) (l : Nat) (f : SHf) (s : State) (hk : Keeps r0 s) : Keeps r0 (shiftI kind op l f s) := by
  unfold shiftI
  repeat' (first | with_reducible exact hk | with_reducible exact keeps_refl _ | exact trivial | exact (fun u => keeps_refl u) | with_reducible apply keeps_issue | with_reducible apply keeps_regBody | with_reducible apply resKeeps_ite | with_reducible apply resKeeps_done | with_reducible apply resKeeps_hold | with_reducible apply resKeeps_jump | with_reducible apply resKeeps_faultIn | with_reducible apply keeps_ite | with_reducible apply keeps_foldl | intro _ | dsimp only | split | (simp (maxDischargeDepth := 40) only [keeps_issue, keeps_regBody, keeps_ite, keeps_mk, keeps_foldl, keeps_refl, hk]; done))

theorem keeps_cmpRR (r0 : State) (fn : Nat) (rel : Word → Word → Bool) (l : Nat) (f : RR) (s : State) (hk : Keeps r0 s) : Keeps r0 (cmpRR fn rel l f s) := by
  unfold cmpRR
  repeat' (first | with_reducible exact hk | with_reducible exact keeps_refl _ | exact trivial | exact (fun u => keeps_refl u) | with_reducible apply keeps_issue | with_reducible apply keeps_regBody | with_reducible apply resKeeps_ite | with_reducible apply resKeeps_done | with_reducible apply resKeeps_hold | with_reducible apply resKeeps_jump | with_reducible apply resKeeps_faultIn | with_reducible apply keeps_ite | with_reducible apply keeps_foldl | intro _ | dsimp only | split | (simp (maxDischargeDepth := 40) only [keeps_issue, keeps_regBody, keeps_ite, keeps_mk, keeps_foldl, keeps_refl, hk]; done))

theorem keeps_cmpRI (r0 : State) (n : Nat) (rel : Word → Word → Bool) (l : Nat) (f : CMPf) (s : State) (hk : Keeps r0 s) : Keeps r0 (cmpRI n rel l f s) := by
  unfold cmpRI
  repeat' (first | with_reducible exact hk | with_reducible exact keeps_refl _ | exact trivial | exact (fun u => keeps_refl u) | with_reducible apply keeps_issue | with_reducible apply keeps_regBody | with_reducible apply resKeeps_ite | with_reducible apply resKeeps_done | with_reducible apply resKeeps_hold | with_reducible apply resKeeps_jump | with_reducible apply resKeeps_faultIn | with_reducible apply keeps_ite | with_reducible apply keeps_foldl | intro _ | dsimp only | split | (simp (maxDischargeDepth := 40) only [keeps_issue, keeps_regBody, keeps_ite, keeps_mk, keeps_foldl, keeps_refl, hk]; done))

theorem keeps_plog (r0 : State) (fn : Nat) (op : Bool → Bool → Bool) (l : Nat) (f : RR) (s : State) (hk : Keeps r0 s) : Keeps r0 (plog fn op l f s) := by
  unfold plog
  repeat' (first | with_reducible exact hk | with_reducible exact keeps_refl _ | exact trivial | exact (fun u => keeps_refl u) | with_reducible apply keeps_issue | with_reducible apply keeps_regBody | with_reducible apply resKeeps_ite | with_reducible apply resKeeps_done | with_reducible apply resKeeps_hold | with_reducible apply resKeeps_jump | with_reducible apply resKeeps_faultIn | with_reducible apply keeps_ite | with_reducible apply keeps_foldl | intro _ | dsimp only | split | (simp (maxDischargeDepth := 40) only [keeps_issue, keeps_regBody, keeps_ite, keeps_mk, keeps_foldl, keeps_refl, hk]; done))

theorem keeps_execNop (l : Nat) (f : RR) (s : State) (t : State) (e : execNop l f s = .next t) : Keeps s t := by
  have hk : Keeps s s := keeps_refl _
  simp only [execNop, Host.Outcome.next.injEq] at e
  subst e
  repeat' (first | with_reducible exact hk | with_reducible exact keeps_refl _ | exact trivial | exact (fun u => keeps_refl u) | with_reducible apply keeps_issue | with_reducible apply keeps_regBody | with_reducible apply resKeeps_ite | with_reducible apply resKeeps_done | with_reducible apply resKeeps_hold | with_reducible apply resKeeps_jump | with_reducible apply resKeeps_faultIn | with_reducible apply keeps_ite | with_reducible apply keeps_foldl | intro _ | dsimp only | split | (simp (maxDischargeDepth := 40) only [keeps_issue, keeps_regBody, keeps_ite, keeps_mk, keeps_foldl, keeps_refl, hk, resKeeps_ite, resKeeps_done, resKeeps_hold, resKeeps_jump, resKeeps_faultIn, resKeeps_block, resKeeps_fault]; done))

theorem keeps_ringPointAt (r0 : State) (s : State) (l : Nat) (counted : Bool) (hk : Keeps r0 s) : Keeps r0 (ringPointAt s l counted) := by
  unfold ringPointAt
  simp (maxDischargeDepth := 40) only [keeps_setLeaf, keeps_raise, keeps_bumpNet, keeps_ite, hk]

theorem keeps_drainBody (r0 : State) (l : Nat) (fin : State → State) (s : State) (t : Nat) (hk : Keeps r0 s) (hfin : ∀ u, Keeps u (fin u)) : ResKeeps r0 (drainBody l fin s t) := by
  unfold drainBody
  repeat' (first | with_reducible exact hk | with_reducible exact keeps_refl _ | exact trivial | exact (fun u => keeps_refl u) | exact keeps_trans _ _ _ (by simp (maxDischargeDepth := 40) only [keeps_modLeaf, keeps_writeBackAll, keeps_ite, keeps_mk, keeps_foldl, keeps_refl, hk, resKeeps_ite, resKeeps_done, resKeeps_hold, resKeeps_jump, resKeeps_faultIn, resKeeps_block, resKeeps_fault]) (hfin _) | with_reducible apply keeps_modLeaf | with_reducible apply keeps_writeBackAll | with_reducible apply resKeeps_ite | with_reducible apply resKeeps_done | with_reducible apply resKeeps_hold | with_reducible apply resKeeps_jump | with_reducible apply resKeeps_faultIn | with_reducible apply keeps_ite | with_reducible apply keeps_foldl | intro _ | dsimp only | split | (simp (maxDischargeDepth := 40) only [keeps_modLeaf, hk]; done))

theorem keeps_execHalt (l : Nat) (f : RR) (s : State) (t : State) (e : execHalt l f s = .next t) : Keeps s t := by
  have hk : Keeps s s := keeps_refl _
  simp only [execHalt, Host.Outcome.next.injEq] at e
  subst e
  repeat' (first | with_reducible exact hk | with_reducible exact keeps_refl _ | exact trivial | exact (fun u => keeps_refl u) | with_reducible apply keeps_modLeaf | with_reducible apply keeps_issue | with_reducible apply keeps_ringPointAt | with_reducible apply keeps_drainBody | with_reducible apply resKeeps_ite | with_reducible apply resKeeps_done | with_reducible apply resKeeps_hold | with_reducible apply resKeeps_jump | with_reducible apply resKeeps_faultIn | with_reducible apply keeps_ite | with_reducible apply keeps_foldl | intro _ | dsimp only | split | (simp (maxDischargeDepth := 40) only [keeps_modLeaf, keeps_issue, keeps_ringPointAt, keeps_drainBody, keeps_ite, keeps_mk, keeps_foldl, keeps_refl, hk, resKeeps_ite, resKeeps_done, resKeeps_hold, resKeeps_jump, resKeeps_faultIn, resKeeps_block, resKeeps_fault]; done))

theorem keeps_execStepBegin (l : Nat) (f : RR) (s : State) (t : State) (e : execStepBegin l f s = .next t) : Keeps s t := by
  have hk : Keeps s s := keeps_refl _
  simp only [execStepBegin, Host.Outcome.next.injEq] at e
  subst e
  repeat' (first | with_reducible exact hk | with_reducible exact keeps_refl _ | exact trivial | exact (fun u => keeps_refl u) | with_reducible apply keeps_setLeaf | with_reducible apply keeps_issue | with_reducible apply resKeeps_ite | with_reducible apply resKeeps_done | with_reducible apply resKeeps_hold | with_reducible apply resKeeps_jump | with_reducible apply resKeeps_faultIn | with_reducible apply keeps_ite | with_reducible apply keeps_foldl | intro _ | dsimp only | split | (simp (maxDischargeDepth := 40) only [keeps_setLeaf, keeps_issue, keeps_ite, keeps_mk, keeps_foldl, keeps_refl, hk, resKeeps_ite, resKeeps_done, resKeeps_hold, resKeeps_jump, resKeeps_faultIn, resKeeps_block, resKeeps_fault]; done))

theorem keeps_execStepEnd (l : Nat) (f : RR) (s : State) (t : State) (e : execStepEnd l f s = .next t) : Keeps s t := by
  have hk : Keeps s s := keeps_refl _
  simp only [execStepEnd, Host.Outcome.next.injEq] at e
  subst e
  repeat' (first | with_reducible exact hk | with_reducible exact keeps_refl _ | exact trivial | exact (fun u => keeps_refl u) | with_reducible apply keeps_setLeaf | with_reducible apply keeps_issue | with_reducible apply resKeeps_ite | with_reducible apply resKeeps_done | with_reducible apply resKeeps_hold | with_reducible apply resKeeps_jump | with_reducible apply resKeeps_faultIn | with_reducible apply keeps_ite | with_reducible apply keeps_foldl | intro _ | dsimp only | split | (simp (maxDischargeDepth := 40) only [keeps_setLeaf, keeps_issue, keeps_ite, keeps_mk, keeps_foldl, keeps_refl, hk, resKeeps_ite, resKeeps_done, resKeeps_hold, resKeeps_jump, resKeeps_faultIn, resKeeps_block, resKeeps_fault]; done))

theorem keeps_execTsw (l : Nat) (f : RR) (s : State) (t : State) (e : execTsw l f s = .next t) : Keeps s t := by
  have hk : Keeps s s := keeps_refl _
  simp only [execTsw, Host.Outcome.next.injEq] at e
  subst e
  repeat' (first | with_reducible exact hk | with_reducible exact keeps_refl _ | exact trivial | exact (fun u => keeps_refl u) | with_reducible apply keeps_setLeaf | with_reducible apply keeps_issue | with_reducible apply keeps_ringPointAt | with_reducible apply resKeeps_ite | with_reducible apply resKeeps_done | with_reducible apply resKeeps_hold | with_reducible apply resKeeps_jump | with_reducible apply resKeeps_faultIn | with_reducible apply keeps_ite | with_reducible apply keeps_foldl | intro _ | dsimp only | split | (simp (maxDischargeDepth := 40) only [keeps_setLeaf, keeps_issue, keeps_ringPointAt, keeps_ite, keeps_mk, keeps_foldl, keeps_refl, hk, resKeeps_ite, resKeeps_done, resKeeps_hold, resKeeps_jump, resKeeps_faultIn, resKeeps_block, resKeeps_fault]; done))

theorem keeps_execMfsr (l : Nat) (f : RR) (s : State) (t : State) (e : execMfsr l f s = .next t) : Keeps s t := by
  have hk : Keeps s s := keeps_refl _
  simp only [execMfsr, Host.Outcome.next.injEq] at e
  subst e
  repeat' (first | with_reducible exact hk | with_reducible exact keeps_refl _ | exact trivial | exact (fun u => keeps_refl u) | with_reducible apply keeps_setLeaf | with_reducible apply keeps_issue | with_reducible apply resKeeps_ite | with_reducible apply resKeeps_done | with_reducible apply resKeeps_hold | with_reducible apply resKeeps_jump | with_reducible apply resKeeps_faultIn | with_reducible apply keeps_ite | with_reducible apply keeps_foldl | intro _ | dsimp only | split | (simp (maxDischargeDepth := 40) only [keeps_setLeaf, keeps_issue, keeps_ite, keeps_mk, keeps_foldl, keeps_refl, hk, resKeeps_ite, resKeeps_done, resKeeps_hold, resKeeps_jump, resKeeps_faultIn, resKeeps_block, resKeeps_fault]; done))

theorem keeps_execMtsr (l : Nat) (f : RR) (s : State) (t : State) (e : execMtsr l f s = .next t) : Keeps s t := by
  have hk : Keeps s s := keeps_refl _
  simp only [execMtsr, Host.Outcome.next.injEq] at e
  subst e
  repeat' (first | with_reducible exact hk | with_reducible exact keeps_refl _ | exact trivial | exact (fun u => keeps_refl u) | with_reducible apply keeps_setLeaf | with_reducible apply keeps_issue | with_reducible apply resKeeps_ite | with_reducible apply resKeeps_done | with_reducible apply resKeeps_hold | with_reducible apply resKeeps_jump | with_reducible apply resKeeps_faultIn | with_reducible apply keeps_ite | with_reducible apply keeps_foldl | intro _ | dsimp only | split | (simp (maxDischargeDepth := 40) only [keeps_setLeaf, keeps_issue, keeps_ite, keeps_mk, keeps_foldl, keeps_refl, hk, resKeeps_ite, resKeeps_done, resKeeps_hold, resKeeps_jump, resKeeps_faultIn, resKeeps_block, resKeeps_fault]; done))

theorem keeps_execAdd (l : Nat) (f : RR) (s : State) (t : State) (e : execAdd l f s = .next t) : Keeps s t := by
  have hk : Keeps s s := keeps_refl _
  simp only [execAdd, Host.Outcome.next.injEq] at e
  subst e
  simp (maxDischargeDepth := 40) only [keeps_aluRR, keeps_refl]

theorem keeps_execSub (l : Nat) (f : RR) (s : State) (t : State) (e : execSub l f s = .next t) : Keeps s t := by
  have hk : Keeps s s := keeps_refl _
  simp only [execSub, Host.Outcome.next.injEq] at e
  subst e
  simp (maxDischargeDepth := 40) only [keeps_aluRR, keeps_refl]

theorem keeps_execAndR (l : Nat) (f : RR) (s : State) (t : State) (e : execAndR l f s = .next t) : Keeps s t := by
  have hk : Keeps s s := keeps_refl _
  simp only [execAndR, Host.Outcome.next.injEq] at e
  subst e
  simp (maxDischargeDepth := 40) only [keeps_aluRR, keeps_refl]

theorem keeps_execOrR (l : Nat) (f : RR) (s : State) (t : State) (e : execOrR l f s = .next t) : Keeps s t := by
  have hk : Keeps s s := keeps_refl _
  simp only [execOrR, Host.Outcome.next.injEq] at e
  subst e
  simp (maxDischargeDepth := 40) only [keeps_aluRR, keeps_refl]

theorem keeps_execXorR (l : Nat) (f : RR) (s : State) (t : State) (e : execXorR l f s = .next t) : Keeps s t := by
  have hk : Keeps s s := keeps_refl _
  simp only [execXorR, Host.Outcome.next.injEq] at e
  subst e
  simp (maxDischargeDepth := 40) only [keeps_aluRR, keeps_refl]

theorem keeps_execSll (l : Nat) (f : RR) (s : State) (t : State) (e : execSll l f s = .next t) : Keeps s t := by
  have hk : Keeps s s := keeps_refl _
  simp only [execSll, Host.Outcome.next.injEq] at e
  subst e
  simp (maxDischargeDepth := 40) only [keeps_aluRR, keeps_refl]

theorem keeps_execSrl (l : Nat) (f : RR) (s : State) (t : State) (e : execSrl l f s = .next t) : Keeps s t := by
  have hk : Keeps s s := keeps_refl _
  simp only [execSrl, Host.Outcome.next.injEq] at e
  subst e
  simp (maxDischargeDepth := 40) only [keeps_aluRR, keeps_refl]

theorem keeps_execSra (l : Nat) (f : RR) (s : State) (t : State) (e : execSra l f s = .next t) : Keeps s t := by
  have hk : Keeps s s := keeps_refl _
  simp only [execSra, Host.Outcome.next.injEq] at e
  subst e
  simp (maxDischargeDepth := 40) only [keeps_aluRR, keeps_refl]

theorem keeps_execMul (l : Nat) (f : RR) (s : State) (t : State) (e : execMul l f s = .next t) : Keeps s t := by
  have hk : Keeps s s := keeps_refl _
  simp only [execMul, Host.Outcome.next.injEq] at e
  subst e
  simp (maxDischargeDepth := 40) only [keeps_aluRR, keeps_refl]

theorem keeps_execMulh (l : Nat) (f : RR) (s : State) (t : State) (e : execMulh l f s = .next t) : Keeps s t := by
  have hk : Keeps s s := keeps_refl _
  simp only [execMulh, Host.Outcome.next.injEq] at e
  subst e
  simp (maxDischargeDepth := 40) only [keeps_aluRR, keeps_refl]

theorem keeps_execMulhu (l : Nat) (f : RR) (s : State) (t : State) (e : execMulhu l f s = .next t) : Keeps s t := by
  have hk : Keeps s s := keeps_refl _
  simp only [execMulhu, Host.Outcome.next.injEq] at e
  subst e
  simp (maxDischargeDepth := 40) only [keeps_aluRR, keeps_refl]

theorem keeps_execMinR (l : Nat) (f : RR) (s : State) (t : State) (e : execMinR l f s = .next t) : Keeps s t := by
  have hk : Keeps s s := keeps_refl _
  simp only [execMinR, Host.Outcome.next.injEq] at e
  subst e
  simp (maxDischargeDepth := 40) only [keeps_aluRR, keeps_refl]

theorem keeps_execMaxR (l : Nat) (f : RR) (s : State) (t : State) (e : execMaxR l f s = .next t) : Keeps s t := by
  have hk : Keeps s s := keeps_refl _
  simp only [execMaxR, Host.Outcome.next.injEq] at e
  subst e
  simp (maxDischargeDepth := 40) only [keeps_aluRR, keeps_refl]

theorem keeps_execMinu (l : Nat) (f : RR) (s : State) (t : State) (e : execMinu l f s = .next t) : Keeps s t := by
  have hk : Keeps s s := keeps_refl _
  simp only [execMinu, Host.Outcome.next.injEq] at e
  subst e
  simp (maxDischargeDepth := 40) only [keeps_aluRR, keeps_refl]

theorem keeps_execMaxu (l : Nat) (f : RR) (s : State) (t : State) (e : execMaxu l f s = .next t) : Keeps s t := by
  have hk : Keeps s s := keeps_refl _
  simp only [execMaxu, Host.Outcome.next.injEq] at e
  subst e
  simp (maxDischargeDepth := 40) only [keeps_aluRR, keeps_refl]

theorem keeps_execClz (l : Nat) (f : RR) (s : State) (t : State) (e : execClz l f s = .next t) : Keeps s t := by
  have hk : Keeps s s := keeps_refl _
  simp only [execClz, Host.Outcome.next.injEq] at e
  subst e
  simp (maxDischargeDepth := 40) only [keeps_aluR, keeps_refl]

theorem keeps_execPopc (l : Nat) (f : RR) (s : State) (t : State) (e : execPopc l f s = .next t) : Keeps s t := by
  have hk : Keeps s s := keeps_refl _
  simp only [execPopc, Host.Outcome.next.injEq] at e
  subst e
  simp (maxDischargeDepth := 40) only [keeps_aluR, keeps_refl]

theorem keeps_execMovp (l : Nat) (f : RR) (s : State) (t : State) (e : execMovp l f s = .next t) : Keeps s t := by
  have hk : Keeps s s := keeps_refl _
  simp only [execMovp, Host.Outcome.next.injEq] at e
  subst e
  repeat' (first | with_reducible exact hk | with_reducible exact keeps_refl _ | exact trivial | exact (fun u => keeps_refl u) | with_reducible apply keeps_issue | with_reducible apply keeps_regBody | with_reducible apply resKeeps_ite | with_reducible apply resKeeps_done | with_reducible apply resKeeps_hold | with_reducible apply resKeeps_jump | with_reducible apply resKeeps_faultIn | with_reducible apply keeps_ite | with_reducible apply keeps_foldl | intro _ | dsimp only | split | (simp (maxDischargeDepth := 40) only [keeps_issue, keeps_regBody, keeps_ite, keeps_mk, keeps_foldl, keeps_refl, hk, resKeeps_ite, resKeeps_done, resKeeps_hold, resKeeps_jump, resKeeps_faultIn, resKeeps_block, resKeeps_fault]; done))

theorem keeps_execMovtp (l : Nat) (f : RR) (s : State) (t : State) (e : execMovtp l f s = .next t) : Keeps s t := by
  have hk : Keeps s s := keeps_refl _
  simp only [execMovtp, Host.Outcome.next.injEq] at e
  subst e
  repeat' (first | with_reducible exact hk | with_reducible exact keeps_refl _ | exact trivial | exact (fun u => keeps_refl u) | with_reducible apply keeps_issue | with_reducible apply keeps_regBody | with_reducible apply resKeeps_ite | with_reducible apply resKeeps_done | with_reducible apply resKeeps_hold | with_reducible apply resKeeps_jump | with_reducible apply resKeeps_faultIn | with_reducible apply keeps_ite | with_reducible apply keeps_foldl | intro _ | dsimp only | split | (simp (maxDischargeDepth := 40) only [keeps_issue, keeps_regBody, keeps_ite, keeps_mk, keeps_foldl, keeps_refl, hk, resKeeps_ite, resKeeps_done, resKeeps_hold, resKeeps_jump, resKeeps_faultIn, resKeeps_block, resKeeps_fault]; done))

theorem keeps_execAddi (l : Nat) (f : RI) (s : State) (t : State) (e : execAddi l f s = .next t) : Keeps s t := by
  have hk : Keeps s s := keeps_refl _
  simp only [execAddi, Host.Outcome.next.injEq] at e
  subst e
  simp (maxDischargeDepth := 40) only [keeps_aluRI, keeps_refl]

theorem keeps_execAndi (l : Nat) (f : RI) (s : State) (t : State) (e : execAndi l f s = .next t) : Keeps s t := by
  have hk : Keeps s s := keeps_refl _
  simp only [execAndi, Host.Outcome.next.injEq] at e
  subst e
  simp (maxDischargeDepth := 40) only [keeps_aluRI, keeps_refl]

theorem keeps_execOri (l : Nat) (f : RI) (s : State) (t : State) (e : execOri l f s = .next t) : Keeps s t := by
  have hk : Keeps s s := keeps_refl _
  simp only [execOri, Host.Outcome.next.injEq] at e
  subst e
  simp (maxDischargeDepth := 40) only [keeps_aluRI, keeps_refl]

theorem keeps_execXori (l : Nat) (f : RI) (s : State) (t : State) (e : execXori l f s = .next t) : Keeps s t := by
  have hk : Keeps s s := keeps_refl _
  simp only [execXori, Host.Outcome.next.injEq] at e
  subst e
  simp (maxDischargeDepth := 40) only [keeps_aluRI, keeps_refl]

theorem keeps_execSlli (l : Nat) (f : SHf) (s : State) (t : State) (e : execSlli l f s = .next t) : Keeps s t := by
  have hk : Keeps s s := keeps_refl _
  simp only [execSlli, Host.Outcome.next.injEq] at e
  subst e
  simp (maxDischargeDepth := 40) only [keeps_shiftI, keeps_refl]

theorem keeps_execSrli (l : Nat) (f : SHf) (s : State) (t : State) (e : execSrli l f s = .next t) : Keeps s t := by
  have hk : Keeps s s := keeps_refl _
  simp only [execSrli, Host.Outcome.next.injEq] at e
  subst e
  simp (maxDischargeDepth := 40) only [keeps_shiftI, keeps_refl]

theorem keeps_execSrai (l : Nat) (f : SHf) (s : State) (t : State) (e : execSrai l f s = .next t) : Keeps s t := by
  have hk : Keeps s s := keeps_refl _
  simp only [execSrai, Host.Outcome.next.injEq] at e
  subst e
  simp (maxDischargeDepth := 40) only [keeps_shiftI, keeps_refl]

theorem keeps_execLi (l : Nat) (f : LIf) (s : State) (t : State) (e : execLi l f s = .next t) : Keeps s t := by
  have hk : Keeps s s := keeps_refl _
  simp only [execLi, Host.Outcome.next.injEq] at e
  subst e
  repeat' (first | with_reducible exact hk | with_reducible exact keeps_refl _ | exact trivial | exact (fun u => keeps_refl u) | with_reducible apply keeps_issue | with_reducible apply keeps_regBody | with_reducible apply resKeeps_ite | with_reducible apply resKeeps_done | with_reducible apply resKeeps_hold | with_reducible apply resKeeps_jump | with_reducible apply resKeeps_faultIn | with_reducible apply keeps_ite | with_reducible apply keeps_foldl | intro _ | dsimp only | split | (simp (maxDischargeDepth := 40) only [keeps_issue, keeps_regBody, keeps_ite, keeps_mk, keeps_foldl, keeps_refl, hk, resKeeps_ite, resKeeps_done, resKeeps_hold, resKeeps_jump, resKeeps_faultIn, resKeeps_block, resKeeps_fault]; done))

theorem keeps_execLih (l : Nat) (f : LIf) (s : State) (t : State) (e : execLih l f s = .next t) : Keeps s t := by
  have hk : Keeps s s := keeps_refl _
  simp only [execLih, Host.Outcome.next.injEq] at e
  subst e
  repeat' (first | with_reducible exact hk | with_reducible exact keeps_refl _ | exact trivial | exact (fun u => keeps_refl u) | with_reducible apply keeps_issue | with_reducible apply keeps_regBody | with_reducible apply resKeeps_ite | with_reducible apply resKeeps_done | with_reducible apply resKeeps_hold | with_reducible apply resKeeps_jump | with_reducible apply resKeeps_faultIn | with_reducible apply keeps_ite | with_reducible apply keeps_foldl | intro _ | dsimp only | split | (simp (maxDischargeDepth := 40) only [keeps_issue, keeps_regBody, keeps_ite, keeps_mk, keeps_foldl, keeps_refl, hk, resKeeps_ite, resKeeps_done, resKeeps_hold, resKeeps_jump, resKeeps_faultIn, resKeeps_block, resKeeps_fault]; done))

theorem keeps_execEq (l : Nat) (f : RR) (s : State) (t : State) (e : execEq l f s = .next t) : Keeps s t := by
  have hk : Keeps s s := keeps_refl _
  simp only [execEq, Host.Outcome.next.injEq] at e
  subst e
  simp (maxDischargeDepth := 40) only [keeps_cmpRR, keeps_refl]

theorem keeps_execNe (l : Nat) (f : RR) (s : State) (t : State) (e : execNe l f s = .next t) : Keeps s t := by
  have hk : Keeps s s := keeps_refl _
  simp only [execNe, Host.Outcome.next.injEq] at e
  subst e
  simp (maxDischargeDepth := 40) only [keeps_cmpRR, keeps_refl]

theorem keeps_execLt (l : Nat) (f : RR) (s : State) (t : State) (e : execLt l f s = .next t) : Keeps s t := by
  have hk : Keeps s s := keeps_refl _
  simp only [execLt, Host.Outcome.next.injEq] at e
  subst e
  simp (maxDischargeDepth := 40) only [keeps_cmpRR, keeps_refl]

theorem keeps_execLtu (l : Nat) (f : RR) (s : State) (t : State) (e : execLtu l f s = .next t) : Keeps s t := by
  have hk : Keeps s s := keeps_refl _
  simp only [execLtu, Host.Outcome.next.injEq] at e
  subst e
  simp (maxDischargeDepth := 40) only [keeps_cmpRR, keeps_refl]

theorem keeps_execGe (l : Nat) (f : RR) (s : State) (t : State) (e : execGe l f s = .next t) : Keeps s t := by
  have hk : Keeps s s := keeps_refl _
  simp only [execGe, Host.Outcome.next.injEq] at e
  subst e
  simp (maxDischargeDepth := 40) only [keeps_cmpRR, keeps_refl]

theorem keeps_execGeu (l : Nat) (f : RR) (s : State) (t : State) (e : execGeu l f s = .next t) : Keeps s t := by
  have hk : Keeps s s := keeps_refl _
  simp only [execGeu, Host.Outcome.next.injEq] at e
  subst e
  simp (maxDischargeDepth := 40) only [keeps_cmpRR, keeps_refl]

theorem keeps_execCmpiEq (l : Nat) (f : CMPf) (s : State) (t : State) (e : execCmpiEq l f s = .next t) : Keeps s t := by
  have hk : Keeps s s := keeps_refl _
  simp only [execCmpiEq, Host.Outcome.next.injEq] at e
  subst e
  simp (maxDischargeDepth := 40) only [keeps_cmpRI, keeps_refl]

theorem keeps_execCmpiNe (l : Nat) (f : CMPf) (s : State) (t : State) (e : execCmpiNe l f s = .next t) : Keeps s t := by
  have hk : Keeps s s := keeps_refl _
  simp only [execCmpiNe, Host.Outcome.next.injEq] at e
  subst e
  simp (maxDischargeDepth := 40) only [keeps_cmpRI, keeps_refl]

theorem keeps_execCmpiLt (l : Nat) (f : CMPf) (s : State) (t : State) (e : execCmpiLt l f s = .next t) : Keeps s t := by
  have hk : Keeps s s := keeps_refl _
  simp only [execCmpiLt, Host.Outcome.next.injEq] at e
  subst e
  simp (maxDischargeDepth := 40) only [keeps_cmpRI, keeps_refl]

theorem keeps_execCmpiGe (l : Nat) (f : CMPf) (s : State) (t : State) (e : execCmpiGe l f s = .next t) : Keeps s t := by
  have hk : Keeps s s := keeps_refl _
  simp only [execCmpiGe, Host.Outcome.next.injEq] at e
  subst e
  simp (maxDischargeDepth := 40) only [keeps_cmpRI, keeps_refl]

theorem keeps_execPand (l : Nat) (f : RR) (s : State) (t : State) (e : execPand l f s = .next t) : Keeps s t := by
  have hk : Keeps s s := keeps_refl _
  simp only [execPand, Host.Outcome.next.injEq] at e
  subst e
  simp (maxDischargeDepth := 40) only [keeps_plog, keeps_refl]

theorem keeps_execPor (l : Nat) (f : RR) (s : State) (t : State) (e : execPor l f s = .next t) : Keeps s t := by
  have hk : Keeps s s := keeps_refl _
  simp only [execPor, Host.Outcome.next.injEq] at e
  subst e
  simp (maxDischargeDepth := 40) only [keeps_plog, keeps_refl]

theorem keeps_execPxor (l : Nat) (f : RR) (s : State) (t : State) (e : execPxor l f s = .next t) : Keeps s t := by
  have hk : Keeps s s := keeps_refl _
  simp only [execPxor, Host.Outcome.next.injEq] at e
  subst e
  simp (maxDischargeDepth := 40) only [keeps_plog, keeps_refl]

theorem keeps_execPandn (l : Nat) (f : RR) (s : State) (t : State) (e : execPandn l f s = .next t) : Keeps s t := by
  have hk : Keeps s s := keeps_refl _
  simp only [execPandn, Host.Outcome.next.injEq] at e
  subst e
  simp (maxDischargeDepth := 40) only [keeps_plog, keeps_refl]

theorem keeps_execPnot (l : Nat) (f : RR) (s : State) (t : State) (e : execPnot l f s = .next t) : Keeps s t := by
  have hk : Keeps s s := keeps_refl _
  simp only [execPnot, Host.Outcome.next.injEq] at e
  subst e
  simp (maxDischargeDepth := 40) only [keeps_plog, keeps_refl]

theorem keeps_execPset (l : Nat) (f : RR) (s : State) (t : State) (e : execPset l f s = .next t) : Keeps s t := by
  have hk : Keeps s s := keeps_refl _
  simp only [execPset, Host.Outcome.next.injEq] at e
  subst e
  simp (maxDischargeDepth := 40) only [keeps_plog, keeps_refl]

theorem keeps_execPclr (l : Nat) (f : RR) (s : State) (t : State) (e : execPclr l f s = .next t) : Keeps s t := by
  have hk : Keeps s s := keeps_refl _
  simp only [execPclr, Host.Outcome.next.injEq] at e
  subst e
  simp (maxDischargeDepth := 40) only [keeps_plog, keeps_refl]

theorem keeps_execBr (l : Nat) (f : BRf) (s : State) (t : State) (e : execBr l f s = .next t) : Keeps s t := by
  have hk : Keeps s s := keeps_refl _
  simp only [execBr, Host.Outcome.next.injEq] at e
  subst e
  repeat' (first | with_reducible exact hk | with_reducible exact keeps_refl _ | exact trivial | exact (fun u => keeps_refl u) | with_reducible apply keeps_setLeaf | with_reducible apply keeps_issue | with_reducible apply resKeeps_ite | with_reducible apply resKeeps_done | with_reducible apply resKeeps_hold | with_reducible apply resKeeps_jump | with_reducible apply resKeeps_faultIn | with_reducible apply keeps_ite | with_reducible apply keeps_foldl | intro _ | dsimp only | split | (simp (maxDischargeDepth := 40) only [keeps_setLeaf, keeps_issue, keeps_ite, keeps_mk, keeps_foldl, keeps_refl, hk, resKeeps_ite, resKeeps_done, resKeeps_hold, resKeeps_jump, resKeeps_faultIn, resKeeps_block, resKeeps_fault]; done))

theorem keeps_loopBody (r0 : State) (l k count fin : Nat) (s : State) (t : Nat) (hk : Keeps r0 s) : ResKeeps r0 (loopBody l k count fin s t) := by
  unfold loopBody
  simp (maxDischargeDepth := 40) only [keeps_setLeaf, hk, resKeeps_ite, resKeeps_done, resKeeps_jump, resKeeps_fault]

theorem keeps_execLoopR (l : Nat) (f : LPf) (s : State) (t : State) (e : execLoopR l f s = .next t) : Keeps s t := by
  have hk : Keeps s s := keeps_refl _
  simp only [execLoopR, Host.Outcome.next.injEq] at e
  subst e
  repeat' (first | with_reducible exact hk | with_reducible exact keeps_refl _ | exact trivial | exact (fun u => keeps_refl u) | with_reducible apply keeps_issue | with_reducible apply keeps_loopBody | with_reducible apply resKeeps_ite | with_reducible apply resKeeps_done | with_reducible apply resKeeps_hold | with_reducible apply resKeeps_jump | with_reducible apply resKeeps_faultIn | with_reducible apply keeps_ite | with_reducible apply keeps_foldl | intro _ | dsimp only | split | (simp (maxDischargeDepth := 40) only [keeps_issue, keeps_loopBody, keeps_ite, keeps_mk, keeps_foldl, keeps_refl, hk, resKeeps_ite, resKeeps_done, resKeeps_hold, resKeeps_jump, resKeeps_faultIn, resKeeps_block, resKeeps_fault]; done))

theorem keeps_execLoopi (l : Nat) (f : LPIf) (s : State) (t : State) (e : execLoopi l f s = .next t) : Keeps s t := by
  have hk : Keeps s s := keeps_refl _
  simp only [execLoopi, Host.Outcome.next.injEq] at e
  subst e
  repeat' (first | with_reducible exact hk | with_reducible exact keeps_refl _ | exact trivial | exact (fun u => keeps_refl u) | with_reducible apply keeps_issue | with_reducible apply keeps_loopBody | with_reducible apply resKeeps_ite | with_reducible apply resKeeps_done | with_reducible apply resKeeps_hold | with_reducible apply resKeeps_jump | with_reducible apply resKeeps_faultIn | with_reducible apply keeps_ite | with_reducible apply keeps_foldl | intro _ | dsimp only | split | (simp (maxDischargeDepth := 40) only [keeps_issue, keeps_loopBody, keeps_ite, keeps_mk, keeps_foldl, keeps_refl, hk, resKeeps_ite, resKeeps_done, resKeeps_hold, resKeeps_jump, resKeeps_faultIn, resKeeps_block, resKeeps_fault]; done))

theorem keeps_execAgset (l : Nat) (f : AGSf) (s : State) (t : State) (e : execAgset l f s = .next t) : Keeps s t := by
  have hk : Keeps s s := keeps_refl _
  simp only [execAgset, Host.Outcome.next.injEq] at e
  subst e
  repeat' (first | with_reducible exact hk | with_reducible exact keeps_refl _ | exact trivial | exact (fun u => keeps_refl u) | with_reducible apply keeps_issue | with_reducible apply keeps_regBody | with_reducible apply resKeeps_ite | with_reducible apply resKeeps_done | with_reducible apply resKeeps_hold | with_reducible apply resKeeps_jump | with_reducible apply resKeeps_faultIn | with_reducible apply keeps_ite | with_reducible apply keeps_foldl | intro _ | dsimp only | split | (simp (maxDischargeDepth := 40) only [keeps_issue, keeps_regBody, keeps_ite, keeps_mk, keeps_foldl, keeps_refl, hk, resKeeps_ite, resKeeps_done, resKeeps_hold, resKeeps_jump, resKeeps_faultIn, resKeeps_block, resKeeps_fault]; done))

theorem keeps_steerBody (r0 : State) (l : Nat) (qs : List Nat) (push : Option Nat) (put : Leaf → Nat → Option Leaf) (s : State) (t : Nat) (hk : Keeps r0 s) : ResKeeps r0 (steerBody l qs push put s t) := by
  unfold steerBody
  repeat' (first | with_reducible exact hk | with_reducible exact keeps_refl _ | exact trivial | exact (fun u => keeps_refl u) | with_reducible apply keeps_setLeaf | with_reducible apply resKeeps_ite | with_reducible apply resKeeps_done | with_reducible apply resKeeps_hold | with_reducible apply resKeeps_jump | with_reducible apply resKeeps_faultIn | with_reducible apply keeps_ite | with_reducible apply keeps_foldl | intro _ | dsimp only | split | (simp (maxDischargeDepth := 40) only [keeps_setLeaf, keeps_ite, keeps_mk, keeps_foldl, keeps_refl, hk, resKeeps_ite, resKeeps_done, resKeeps_hold, resKeeps_jump, resKeeps_faultIn, resKeeps_block, resKeeps_fault]; done))

theorem keeps_vSteer (r0 : State) (fn : Nat) (src : Leaf → Nat) (dst : Leaf → Option Nat) (l : Nat) (f : Sf) (s : State) (hk : Keeps r0 s) : Keeps r0 (vSteer fn src dst l f s) := by
  unfold vSteer
  repeat' (first | with_reducible exact hk | with_reducible exact keeps_refl _ | exact trivial | exact (fun u => keeps_refl u) | with_reducible apply keeps_issue | with_reducible apply keeps_steerBody | with_reducible apply resKeeps_ite | with_reducible apply resKeeps_done | with_reducible apply resKeeps_hold | with_reducible apply resKeeps_jump | with_reducible apply resKeeps_faultIn | with_reducible apply keeps_ite | with_reducible apply keeps_foldl | intro _ | dsimp only | split | (simp (maxDischargeDepth := 40) only [keeps_issue, keeps_steerBody, keeps_ite, keeps_mk, keeps_foldl, keeps_refl, hk]; done))

theorem keeps_sSteer (r0 : State) (fn : Nat) (src : Leaf → Nat) (dst : Leaf → Option Nat) (l : Nat) (f : Sf) (s : State) (hk : Keeps r0 s) : Keeps r0 (sSteer fn src dst l f s) := by
  unfold sSteer
  repeat' (first | with_reducible exact hk | with_reducible exact keeps_refl _ | exact trivial | exact (fun u => keeps_refl u) | with_reducible apply keeps_issue | with_reducible apply keeps_steerBody | with_reducible apply resKeeps_ite | with_reducible apply resKeeps_done | with_reducible apply resKeeps_hold | with_reducible apply resKeeps_jump | with_reducible apply resKeeps_faultIn | with_reducible apply keeps_ite | with_reducible apply keeps_foldl | intro _ | dsimp only | split | (simp (maxDischargeDepth := 40) only [keeps_issue, keeps_steerBody, keeps_ite, keeps_mk, keeps_foldl, keeps_refl, hk]; done))

theorem keeps_execSteer (l : Nat) (f : Sf) (s : State) (t : State) (e : execSteer l f s = .next t) : Keeps s t := by
  have hk : Keeps s s := keeps_refl _
  simp only [execSteer, Host.Outcome.next.injEq] at e
  subst e
  simp (maxDischargeDepth := 40) only [keeps_vSteer, keeps_refl]

theorem keeps_execMerge (l : Nat) (f : Sf) (s : State) (t : State) (e : execMerge l f s = .next t) : Keeps s t := by
  have hk : Keeps s s := keeps_refl _
  simp only [execMerge, Host.Outcome.next.injEq] at e
  subst e
  simp (maxDischargeDepth := 40) only [keeps_vSteer, keeps_refl]

theorem keeps_execFilter (l : Nat) (f : Sf) (s : State) (t : State) (e : execFilter l f s = .next t) : Keeps s t := by
  have hk : Keeps s s := keeps_refl _
  simp only [execFilter, Host.Outcome.next.injEq] at e
  subst e
  simp (maxDischargeDepth := 40) only [keeps_vSteer, keeps_refl]

theorem keeps_execSsteer (l : Nat) (f : Sf) (s : State) (t : State) (e : execSsteer l f s = .next t) : Keeps s t := by
  have hk : Keeps s s := keeps_refl _
  simp only [execSsteer, Host.Outcome.next.injEq] at e
  subst e
  simp (maxDischargeDepth := 40) only [keeps_sSteer, keeps_refl]

theorem keeps_execSmerge (l : Nat) (f : Sf) (s : State) (t : State) (e : execSmerge l f s = .next t) : Keeps s t := by
  have hk : Keeps s s := keeps_refl _
  simp only [execSmerge, Host.Outcome.next.injEq] at e
  subst e
  simp (maxDischargeDepth := 40) only [keeps_sSteer, keeps_refl]

theorem keeps_execSfilter (l : Nat) (f : Sf) (s : State) (t : State) (e : execSfilter l f s = .next t) : Keeps s t := by
  have hk : Keeps s s := keeps_refl _
  simp only [execSfilter, Host.Outcome.next.injEq] at e
  subst e
  simp (maxDischargeDepth := 40) only [keeps_sSteer, keeps_refl]

theorem keeps_execSqpop (l : Nat) (f : RR) (s : State) (t : State) (e : execSqpop l f s = .next t) : Keeps s t := by
  have hk : Keeps s s := keeps_refl _
  simp only [execSqpop, Host.Outcome.next.injEq] at e
  subst e
  repeat' (first | with_reducible exact hk | with_reducible exact keeps_refl _ | exact trivial | exact (fun u => keeps_refl u) | with_reducible apply keeps_issue | with_reducible apply keeps_steerBody | with_reducible apply resKeeps_ite | with_reducible apply resKeeps_done | with_reducible apply resKeeps_hold | with_reducible apply resKeeps_jump | with_reducible apply resKeeps_faultIn | with_reducible apply keeps_ite | with_reducible apply keeps_foldl | intro _ | dsimp only | split | (simp (maxDischargeDepth := 40) only [keeps_issue, keeps_steerBody, keeps_ite, keeps_mk, keeps_foldl, keeps_refl, hk, resKeeps_ite, resKeeps_done, resKeeps_hold, resKeeps_jump, resKeeps_faultIn, resKeeps_block, resKeeps_fault]; done))

theorem keeps_execSqtag (l : Nat) (f : RR) (s : State) (t : State) (e : execSqtag l f s = .next t) : Keeps s t := by
  have hk : Keeps s s := keeps_refl _
  simp only [execSqtag, Host.Outcome.next.injEq] at e
  subst e
  repeat' (first | with_reducible exact hk | with_reducible exact keeps_refl _ | exact trivial | exact (fun u => keeps_refl u) | with_reducible apply keeps_setLeaf | with_reducible apply keeps_issue | with_reducible apply resKeeps_ite | with_reducible apply resKeeps_done | with_reducible apply resKeeps_hold | with_reducible apply resKeeps_jump | with_reducible apply resKeeps_faultIn | with_reducible apply keeps_ite | with_reducible apply keeps_foldl | intro _ | dsimp only | split | (simp (maxDischargeDepth := 40) only [keeps_setLeaf, keeps_issue, keeps_ite, keeps_mk, keeps_foldl, keeps_refl, hk, resKeeps_ite, resKeeps_done, resKeeps_hold, resKeeps_jump, resKeeps_faultIn, resKeeps_block, resKeeps_fault]; done))

theorem keeps_execSqpush (l : Nat) (f : RR) (s : State) (t : State) (e : execSqpush l f s = .next t) : Keeps s t := by
  have hk : Keeps s s := keeps_refl _
  simp only [execSqpush, Host.Outcome.next.injEq] at e
  subst e
  repeat' (first | with_reducible exact hk | with_reducible exact keeps_refl _ | exact trivial | exact (fun u => keeps_refl u) | with_reducible apply keeps_issue | with_reducible apply keeps_steerBody | with_reducible apply resKeeps_ite | with_reducible apply resKeeps_done | with_reducible apply resKeeps_hold | with_reducible apply resKeeps_jump | with_reducible apply resKeeps_faultIn | with_reducible apply keeps_ite | with_reducible apply keeps_foldl | intro _ | dsimp only | split | (simp (maxDischargeDepth := 40) only [keeps_issue, keeps_steerBody, keeps_ite, keeps_mk, keeps_foldl, keeps_refl, hk, resKeeps_ite, resKeeps_done, resKeeps_hold, resKeeps_jump, resKeeps_faultIn, resKeeps_block, resKeeps_fault]; done))

theorem keeps_execQtestv (l : Nat) (f : RR) (s : State) (t : State) (e : execQtestv l f s = .next t) : Keeps s t := by
  have hk : Keeps s s := keeps_refl _
  simp only [execQtestv, Host.Outcome.next.injEq] at e
  subst e
  repeat' (first | with_reducible exact hk | with_reducible exact keeps_refl _ | exact trivial | exact (fun u => keeps_refl u) | with_reducible apply keeps_issue | with_reducible apply keeps_regBody | with_reducible apply resKeeps_ite | with_reducible apply resKeeps_done | with_reducible apply resKeeps_hold | with_reducible apply resKeeps_jump | with_reducible apply resKeeps_faultIn | with_reducible apply keeps_ite | with_reducible apply keeps_foldl | intro _ | dsimp only | split | (simp (maxDischargeDepth := 40) only [keeps_issue, keeps_regBody, keeps_ite, keeps_mk, keeps_foldl, keeps_refl, hk, resKeeps_ite, resKeeps_done, resKeeps_hold, resKeeps_jump, resKeeps_faultIn, resKeeps_block, resKeeps_fault]; done))

theorem keeps_execQtests (l : Nat) (f : RR) (s : State) (t : State) (e : execQtests l f s = .next t) : Keeps s t := by
  have hk : Keeps s s := keeps_refl _
  simp only [execQtests, Host.Outcome.next.injEq] at e
  subst e
  repeat' (first | with_reducible exact hk | with_reducible exact keeps_refl _ | exact trivial | exact (fun u => keeps_refl u) | with_reducible apply keeps_issue | with_reducible apply keeps_regBody | with_reducible apply resKeeps_ite | with_reducible apply resKeeps_done | with_reducible apply resKeeps_hold | with_reducible apply resKeeps_jump | with_reducible apply resKeeps_faultIn | with_reducible apply keeps_ite | with_reducible apply keeps_foldl | intro _ | dsimp only | split | (simp (maxDischargeDepth := 40) only [keeps_issue, keeps_regBody, keeps_ite, keeps_mk, keeps_foldl, keeps_refl, hk, resKeeps_ite, resKeeps_done, resKeeps_hold, resKeeps_jump, resKeeps_faultIn, resKeeps_block, resKeeps_fault]; done))

theorem keeps_execQspacev (l : Nat) (f : RR) (s : State) (t : State) (e : execQspacev l f s = .next t) : Keeps s t := by
  have hk : Keeps s s := keeps_refl _
  simp only [execQspacev, Host.Outcome.next.injEq] at e
  subst e
  repeat' (first | with_reducible exact hk | with_reducible exact keeps_refl _ | exact trivial | exact (fun u => keeps_refl u) | with_reducible apply keeps_issue | with_reducible apply keeps_regBody | with_reducible apply resKeeps_ite | with_reducible apply resKeeps_done | with_reducible apply resKeeps_hold | with_reducible apply resKeeps_jump | with_reducible apply resKeeps_faultIn | with_reducible apply keeps_ite | with_reducible apply keeps_foldl | intro _ | dsimp only | split | (simp (maxDischargeDepth := 40) only [keeps_issue, keeps_regBody, keeps_ite, keeps_mk, keeps_foldl, keeps_refl, hk, resKeeps_ite, resKeeps_done, resKeeps_hold, resKeeps_jump, resKeeps_faultIn, resKeeps_block, resKeeps_fault]; done))

theorem keeps_execQspaces (l : Nat) (f : RR) (s : State) (t : State) (e : execQspaces l f s = .next t) : Keeps s t := by
  have hk : Keeps s s := keeps_refl _
  simp only [execQspaces, Host.Outcome.next.injEq] at e
  subst e
  repeat' (first | with_reducible exact hk | with_reducible exact keeps_refl _ | exact trivial | exact (fun u => keeps_refl u) | with_reducible apply keeps_issue | with_reducible apply keeps_regBody | with_reducible apply resKeeps_ite | with_reducible apply resKeeps_done | with_reducible apply resKeeps_hold | with_reducible apply resKeeps_jump | with_reducible apply resKeeps_faultIn | with_reducible apply keeps_ite | with_reducible apply keeps_foldl | intro _ | dsimp only | split | (simp (maxDischargeDepth := 40) only [keeps_issue, keeps_regBody, keeps_ite, keeps_mk, keeps_foldl, keeps_refl, hk, resKeeps_ite, resKeeps_done, resKeeps_hold, resKeeps_jump, resKeeps_faultIn, resKeeps_block, resKeeps_fault]; done))

theorem keeps_execLcinc (l : Nat) (f : RR) (s : State) (t : State) (e : execLcinc l f s = .next t) : Keeps s t := by
  have hk : Keeps s s := keeps_refl _
  simp only [execLcinc, Host.Outcome.next.injEq] at e
  subst e
  repeat' (first | with_reducible exact hk | with_reducible exact keeps_refl _ | exact trivial | exact (fun u => keeps_refl u) | with_reducible apply keeps_setLeaf | with_reducible apply keeps_lcInc | with_reducible apply keeps_issue | with_reducible apply resKeeps_ite | with_reducible apply resKeeps_done | with_reducible apply resKeeps_hold | with_reducible apply resKeeps_jump | with_reducible apply resKeeps_faultIn | with_reducible apply keeps_ite | with_reducible apply keeps_foldl | intro _ | dsimp only | split | (simp (maxDischargeDepth := 40) only [keeps_setLeaf, keeps_lcInc, keeps_issue, keeps_ite, keeps_mk, keeps_foldl, keeps_refl, hk, resKeeps_ite, resKeeps_done, resKeeps_hold, resKeeps_jump, resKeeps_faultIn, resKeeps_block, resKeeps_fault]; done))

theorem keeps_execLcrd (l : Nat) (f : RR) (s : State) (t : State) (e : execLcrd l f s = .next t) : Keeps s t := by
  have hk : Keeps s s := keeps_refl _
  simp only [execLcrd, Host.Outcome.next.injEq] at e
  subst e
  repeat' (first | with_reducible exact hk | with_reducible exact keeps_refl _ | exact trivial | exact (fun u => keeps_refl u) | with_reducible apply keeps_issue | with_reducible apply keeps_regBody | with_reducible apply resKeeps_ite | with_reducible apply resKeeps_done | with_reducible apply resKeeps_hold | with_reducible apply resKeeps_jump | with_reducible apply resKeeps_faultIn | with_reducible apply keeps_ite | with_reducible apply keeps_foldl | intro _ | dsimp only | split | (simp (maxDischargeDepth := 40) only [keeps_issue, keeps_regBody, keeps_ite, keeps_mk, keeps_foldl, keeps_refl, hk, resKeeps_ite, resKeeps_done, resKeeps_hold, resKeeps_jump, resKeeps_faultIn, resKeeps_block, resKeeps_fault]; done))

theorem keeps_gincAt (r0 : State) (fn : Nat) (fence : Bool) (l : Nat) (f : RR) (s : State) (hk : Keeps r0 s) : Keeps r0 (gincAt fn fence l f s) := by
  unfold gincAt
  repeat' (first | with_reducible exact hk | with_reducible exact keeps_refl _ | exact trivial | exact (fun u => keeps_refl u) | with_reducible apply keeps_issue | with_reducible apply keeps_remoteBody | with_reducible apply resKeeps_ite | with_reducible apply resKeeps_done | with_reducible apply resKeeps_hold | with_reducible apply resKeeps_jump | with_reducible apply resKeeps_faultIn | with_reducible apply keeps_ite | with_reducible apply keeps_foldl | intro _ | dsimp only | split | (simp (maxDischargeDepth := 40) only [keeps_issue, keeps_remoteBody, keeps_ite, keeps_mk, keeps_foldl, keeps_refl, hk]; done))

theorem keeps_execGinc (l : Nat) (f : RR) (s : State) (t : State) (e : execGinc l f s = .next t) : Keeps s t := by
  have hk : Keeps s s := keeps_refl _
  simp only [execGinc, Host.Outcome.next.injEq] at e
  subst e
  simp (maxDischargeDepth := 40) only [keeps_gincAt, keeps_refl]

theorem keeps_execGfinc (l : Nat) (f : RR) (s : State) (t : State) (e : execGfinc l f s = .next t) : Keeps s t := by
  have hk : Keeps s s := keeps_refl _
  simp only [execGfinc, Host.Outcome.next.injEq] at e
  subst e
  simp (maxDischargeDepth := 40) only [keeps_gincAt, keeps_refl]

theorem keeps_execGrd (l : Nat) (f : RR) (s : State) (t : State) (e : execGrd l f s = .next t) : Keeps s t := by
  have hk : Keeps s s := keeps_refl _
  simp only [execGrd, Host.Outcome.next.injEq] at e
  subst e
  repeat' (first | with_reducible exact hk | with_reducible exact keeps_refl _ | exact trivial | exact (fun u => keeps_refl u) | with_reducible apply keeps_issue | with_reducible apply keeps_readBody | with_reducible apply resKeeps_ite | with_reducible apply resKeeps_done | with_reducible apply resKeeps_hold | with_reducible apply resKeeps_jump | with_reducible apply resKeeps_faultIn | with_reducible apply keeps_ite | with_reducible apply keeps_foldl | intro _ | dsimp only | split | (simp (maxDischargeDepth := 40) only [keeps_issue, keeps_readBody, keeps_ite, keeps_mk, keeps_foldl, keeps_refl, hk, resKeeps_ite, resKeeps_done, resKeeps_hold, resKeeps_jump, resKeeps_faultIn, resKeeps_block, resKeeps_fault]; done))

theorem keeps_execBara (l : Nat) (f : RR) (s : State) (t : State) (e : execBara l f s = .next t) : Keeps s t := by
  have hk : Keeps s s := keeps_refl _
  simp only [execBara, Host.Outcome.next.injEq] at e
  subst e
  repeat' (first | with_reducible exact hk | with_reducible exact keeps_refl _ | exact trivial | exact (fun u => keeps_refl u) | with_reducible apply keeps_issue | with_reducible apply keeps_remoteBody | with_reducible apply resKeeps_ite | with_reducible apply resKeeps_done | with_reducible apply resKeeps_hold | with_reducible apply resKeeps_jump | with_reducible apply resKeeps_faultIn | with_reducible apply keeps_ite | with_reducible apply keeps_foldl | intro _ | dsimp only | split | (simp (maxDischargeDepth := 40) only [keeps_issue, keeps_remoteBody, keeps_ite, keeps_mk, keeps_foldl, keeps_refl, hk, resKeeps_ite, resKeeps_done, resKeeps_hold, resKeeps_jump, resKeeps_faultIn, resKeeps_block, resKeeps_fault]; done))

theorem keeps_execLcwait (l : Nat) (f : Wf) (s : State) (t : State) (e : execLcwait l f s = .next t) : Keeps s t := by
  have hk : Keeps s s := keeps_refl _
  simp only [execLcwait, Host.Outcome.next.injEq] at e
  subst e
  repeat' (first | with_reducible exact hk | with_reducible exact keeps_refl _ | exact trivial | exact (fun u => keeps_refl u) | with_reducible apply keeps_setLeaf | with_reducible apply keeps_issue | with_reducible apply resKeeps_ite | with_reducible apply resKeeps_done | with_reducible apply resKeeps_hold | with_reducible apply resKeeps_jump | with_reducible apply resKeeps_faultIn | with_reducible apply keeps_ite | with_reducible apply keeps_foldl | intro _ | dsimp only | split | (simp (maxDischargeDepth := 40) only [keeps_setLeaf, keeps_issue, keeps_ite, keeps_mk, keeps_foldl, keeps_refl, hk, resKeeps_ite, resKeeps_done, resKeeps_hold, resKeeps_jump, resKeeps_faultIn, resKeeps_block, resKeeps_fault]; done))

theorem keeps_execGwait (l : Nat) (f : Wf) (s : State) (t : State) (e : execGwait l f s = .next t) : Keeps s t := by
  have hk : Keeps s s := keeps_refl _
  simp only [execGwait, Host.Outcome.next.injEq] at e
  subst e
  repeat' (first | with_reducible exact hk | with_reducible exact keeps_refl _ | exact trivial | exact (fun u => keeps_refl u) | with_reducible apply keeps_setLeaf | with_reducible apply keeps_issue | with_reducible apply resKeeps_ite | with_reducible apply resKeeps_done | with_reducible apply resKeeps_hold | with_reducible apply resKeeps_jump | with_reducible apply resKeeps_faultIn | with_reducible apply keeps_ite | with_reducible apply keeps_foldl | intro _ | dsimp only | split | (simp (maxDischargeDepth := 40) only [keeps_setLeaf, keeps_issue, keeps_ite, keeps_mk, keeps_foldl, keeps_refl, hk, resKeeps_ite, resKeeps_done, resKeeps_hold, resKeeps_jump, resKeeps_faultIn, resKeeps_block, resKeeps_fault]; done))

theorem keeps_execRldw (l : Nat) (f : RR) (s : State) (t : State) (e : execRldw l f s = .next t) : Keeps s t := by
  have hk : Keeps s s := keeps_refl _
  simp only [execRldw, Host.Outcome.next.injEq] at e
  subst e
  repeat' (first | with_reducible exact hk | with_reducible exact keeps_refl _ | exact trivial | exact (fun u => keeps_refl u) | with_reducible apply keeps_issue | with_reducible apply keeps_readBody | with_reducible apply keeps_cachedLoad | with_reducible apply resKeeps_ite | with_reducible apply resKeeps_done | with_reducible apply resKeeps_hold | with_reducible apply resKeeps_jump | with_reducible apply resKeeps_faultIn | with_reducible apply keeps_ite | with_reducible apply keeps_foldl | intro _ | dsimp only | split | (simp (maxDischargeDepth := 40) only [keeps_issue, keeps_readBody, keeps_cachedLoad, keeps_ite, keeps_mk, keeps_foldl, keeps_refl, hk, resKeeps_ite, resKeeps_done, resKeeps_hold, resKeeps_jump, resKeeps_faultIn, resKeeps_block, resKeeps_fault]; done))

theorem keeps_execRstw (l : Nat) (f : RR) (s : State) (t : State) (e : execRstw l f s = .next t) : Keeps s t := by
  have hk : Keeps s s := keeps_refl _
  simp only [execRstw, Host.Outcome.next.injEq] at e
  subst e
  repeat' (first | with_reducible exact hk | with_reducible exact keeps_refl _ | exact trivial | exact (fun u => keeps_refl u) | with_reducible apply keeps_issue | with_reducible apply keeps_remoteBody | with_reducible apply keeps_cachedStore | with_reducible apply keeps_cachedWrite | with_reducible apply resKeeps_ite | with_reducible apply resKeeps_done | with_reducible apply resKeeps_hold | with_reducible apply resKeeps_jump | with_reducible apply resKeeps_faultIn | with_reducible apply keeps_ite | with_reducible apply keeps_foldl | intro _ | dsimp only | split | (simp (maxDischargeDepth := 40) only [keeps_issue, keeps_remoteBody, keeps_cachedStore, keeps_cachedWrite, keeps_ite, keeps_mk, keeps_foldl, keeps_refl, hk, resKeeps_ite, resKeeps_done, resKeeps_hold, resKeeps_jump, resKeeps_faultIn, resKeeps_block, resKeeps_fault]; done))

theorem keeps_execRstv (l : Nat) (f : RR) (s : State) (t : State) (e : execRstv l f s = .next t) : Keeps s t := by
  have hk : Keeps s s := keeps_refl _
  simp only [execRstv, Host.Outcome.next.injEq] at e
  subst e
  repeat' (first | with_reducible exact hk | with_reducible exact keeps_refl _ | exact trivial | exact (fun u => keeps_refl u) | with_reducible apply keeps_issue | with_reducible apply keeps_remoteBody | with_reducible apply keeps_cachedLine | with_reducible apply keeps_cachedWrite | with_reducible apply resKeeps_ite | with_reducible apply resKeeps_done | with_reducible apply resKeeps_hold | with_reducible apply resKeeps_jump | with_reducible apply resKeeps_faultIn | with_reducible apply keeps_ite | with_reducible apply keeps_foldl | intro _ | dsimp only | split | (simp (maxDischargeDepth := 40) only [keeps_issue, keeps_remoteBody, keeps_cachedLine, keeps_cachedWrite, keeps_ite, keeps_mk, keeps_foldl, keeps_refl, hk, resKeeps_ite, resKeeps_done, resKeeps_hold, resKeeps_jump, resKeeps_faultIn, resKeeps_block, resKeeps_fault]; done))

theorem keeps_execRfence (l : Nat) (f : RR) (s : State) (t : State) (e : execRfence l f s = .next t) : Keeps s t := by
  have hk : Keeps s s := keeps_refl _
  simp only [execRfence, Host.Outcome.next.injEq] at e
  subst e
  repeat' (first | with_reducible exact hk | with_reducible exact keeps_refl _ | exact trivial | exact (fun u => keeps_refl u) | with_reducible apply keeps_issue | with_reducible apply keeps_drainBody | with_reducible apply resKeeps_ite | with_reducible apply resKeeps_done | with_reducible apply resKeeps_hold | with_reducible apply resKeeps_jump | with_reducible apply resKeeps_faultIn | with_reducible apply keeps_ite | with_reducible apply keeps_foldl | intro _ | dsimp only | split | (simp (maxDischargeDepth := 40) only [keeps_issue, keeps_drainBody, keeps_ite, keeps_mk, keeps_foldl, keeps_refl, hk, resKeeps_ite, resKeeps_done, resKeeps_hold, resKeeps_jump, resKeeps_faultIn, resKeeps_block, resKeeps_fault]; done))

theorem keeps_execEpost (l : Nat) (f : RR) (s : State) (t : State) (e : execEpost l f s = .next t) : Keeps s t := by
  have hk : Keeps s s := keeps_refl _
  simp only [execEpost, Host.Outcome.next.injEq] at e
  subst e
  repeat' (first | with_reducible exact hk | with_reducible exact keeps_refl _ | exact trivial | exact (fun u => keeps_refl u) | with_reducible apply keeps_issue | with_reducible apply keeps_epostBody | with_reducible apply resKeeps_ite | with_reducible apply resKeeps_done | with_reducible apply resKeeps_hold | with_reducible apply resKeeps_jump | with_reducible apply resKeeps_faultIn | with_reducible apply keeps_ite | with_reducible apply keeps_foldl | intro _ | dsimp only | split | (simp (maxDischargeDepth := 40) only [keeps_issue, keeps_epostBody, keeps_ite, keeps_mk, keeps_foldl, keeps_refl, hk, resKeeps_ite, resKeeps_done, resKeeps_hold, resKeeps_jump, resKeeps_faultIn, resKeeps_block, resKeeps_fault]; done))

theorem keeps_dpostAt (r0 : State) (fn lane0 : Nat) (l : Nat) (f : RR) (s : State) (hk : Keeps r0 s) : Keeps r0 (dpostAt fn lane0 l f s) := by
  unfold dpostAt
  repeat' (first | with_reducible exact hk | with_reducible exact keeps_refl _ | exact trivial | exact (fun u => keeps_refl u) | with_reducible apply keeps_issue | with_reducible apply keeps_dpostBody | with_reducible apply resKeeps_ite | with_reducible apply resKeeps_done | with_reducible apply resKeeps_hold | with_reducible apply resKeeps_jump | with_reducible apply resKeeps_faultIn | with_reducible apply keeps_ite | with_reducible apply keeps_foldl | intro _ | dsimp only | split | (simp (maxDischargeDepth := 40) only [keeps_issue, keeps_dpostBody, keeps_ite, keeps_mk, keeps_foldl, keeps_refl, hk]; done))

theorem keeps_execDpost (l : Nat) (f : RR) (s : State) (t : State) (e : execDpost l f s = .next t) : Keeps s t := by
  have hk : Keeps s s := keeps_refl _
  simp only [execDpost, Host.Outcome.next.injEq] at e
  subst e
  simp (maxDischargeDepth := 40) only [keeps_dpostAt, keeps_refl]

theorem keeps_execDposth (l : Nat) (f : RR) (s : State) (t : State) (e : execDposth l f s = .next t) : Keeps s t := by
  have hk : Keeps s s := keeps_refl _
  simp only [execDposth, Host.Outcome.next.injEq] at e
  subst e
  simp (maxDischargeDepth := 40) only [keeps_dpostAt, keeps_refl]

theorem keeps_viRR (r0 : State) (fn : Nat) (op : Word → Word → Word) (l : Nat) (f : RR) (s : State) (hk : Keeps r0 s) : Keeps r0 (viRR fn op l f s) := by
  unfold viRR
  repeat' (first | with_reducible exact hk | with_reducible exact keeps_refl _ | exact trivial | exact (fun u => keeps_refl u) | with_reducible apply keeps_issue | with_reducible apply keeps_vecBody | with_reducible apply resKeeps_ite | with_reducible apply resKeeps_done | with_reducible apply resKeeps_hold | with_reducible apply resKeeps_jump | with_reducible apply resKeeps_faultIn | with_reducible apply keeps_ite | with_reducible apply keeps_foldl | intro _ | dsimp only | split | (simp (maxDischargeDepth := 40) only [keeps_issue, keeps_vecBody, keeps_ite, keeps_mk, keeps_foldl, keeps_refl, hk]; done))

theorem keeps_viR (r0 : State) (fn : Nat) (op : Word → Word) (l : Nat) (f : RR) (s : State) (hk : Keeps r0 s) : Keeps r0 (viR fn op l f s) := by
  unfold viR
  repeat' (first | with_reducible exact hk | with_reducible exact keeps_refl _ | exact trivial | exact (fun u => keeps_refl u) | with_reducible apply keeps_issue | with_reducible apply keeps_vecBody | with_reducible apply resKeeps_ite | with_reducible apply resKeeps_done | with_reducible apply resKeeps_hold | with_reducible apply resKeeps_jump | with_reducible apply resKeeps_faultIn | with_reducible apply keeps_ite | with_reducible apply keeps_foldl | intro _ | dsimp only | split | (simp (maxDischargeDepth := 40) only [keeps_issue, keeps_vecBody, keeps_ite, keeps_mk, keeps_foldl, keeps_refl, hk]; done))

theorem keeps_fpLanes (r0 : State) (l : Nat) (srcs : List Nat) (d mk lat : Nat) (busy : Bool) (op : Rnd → Leaf → Nat → FRes) (s : State) (t : Nat) (hk : Keeps r0 s) : ResKeeps r0 (fpLanes l srcs d mk lat busy op s t) := by
  unfold fpLanes
  simp (maxDischargeDepth := 40) only [keeps_vecBody, hk]

theorem keeps_vfRR (r0 : State) (fn lat : Nat) (busy : Bool) (op : Rnd → Word → Word → FRes) (l : Nat) (f : RR) (s : State) (hk : Keeps r0 s) : Keeps r0 (vfRR fn lat busy op l f s) := by
  unfold vfRR
  repeat' (first | with_reducible exact hk | with_reducible exact keeps_refl _ | exact trivial | exact (fun u => keeps_refl u) | with_reducible apply keeps_issue | with_reducible apply keeps_fpLanes | with_reducible apply resKeeps_ite | with_reducible apply resKeeps_done | with_reducible apply resKeeps_hold | with_reducible apply resKeeps_jump | with_reducible apply resKeeps_faultIn | with_reducible apply keeps_ite | with_reducible apply keeps_foldl | intro _ | dsimp only | split | (simp (maxDischargeDepth := 40) only [keeps_issue, keeps_fpLanes, keeps_ite, keeps_mk, keeps_foldl, keeps_refl, hk]; done))

theorem keeps_vfR (r0 : State) (fn lat : Nat) (busy : Bool) (op : Rnd → Word → FRes) (l : Nat) (f : RR) (s : State) (hk : Keeps r0 s) : Keeps r0 (vfR fn lat busy op l f s) := by
  unfold vfR
  repeat' (first | with_reducible exact hk | with_reducible exact keeps_refl _ | exact trivial | exact (fun u => keeps_refl u) | with_reducible apply keeps_issue | with_reducible apply keeps_fpLanes | with_reducible apply resKeeps_ite | with_reducible apply resKeeps_done | with_reducible apply resKeeps_hold | with_reducible apply resKeeps_jump | with_reducible apply resKeeps_faultIn | with_reducible apply keeps_ite | with_reducible apply keeps_foldl | intro _ | dsimp only | split | (simp (maxDischargeDepth := 40) only [keeps_issue, keeps_fpLanes, keeps_ite, keeps_mk, keeps_foldl, keeps_refl, hk]; done))

theorem keeps_vfFma (r0 : State) (fn : Nat) (negP negD : Bool) (l : Nat) (f : RR) (s : State) (hk : Keeps r0 s) : Keeps r0 (vfFma fn negP negD l f s) := by
  unfold vfFma
  repeat' (first | with_reducible exact hk | with_reducible exact keeps_refl _ | exact trivial | exact (fun u => keeps_refl u) | with_reducible apply keeps_issue | with_reducible apply keeps_fpLanes | with_reducible apply resKeeps_ite | with_reducible apply resKeeps_done | with_reducible apply resKeeps_hold | with_reducible apply resKeeps_jump | with_reducible apply resKeeps_faultIn | with_reducible apply keeps_ite | with_reducible apply keeps_foldl | intro _ | dsimp only | split | (simp (maxDischargeDepth := 40) only [keeps_issue, keeps_fpLanes, keeps_ite, keeps_mk, keeps_foldl, keeps_refl, hk]; done))

theorem keeps_vcmp (r0 : State) (fn : Nat) (rel : Word → Word → Bool × Nat) (l : Nat) (f : RR) (s : State) (hk : Keeps r0 s) : Keeps r0 (vcmp fn rel l f s) := by
  unfold vcmp
  repeat' (first | with_reducible exact hk | with_reducible exact keeps_refl _ | exact trivial | exact (fun u => keeps_refl u) | with_reducible apply keeps_setLeaf | with_reducible apply keeps_issue | with_reducible apply resKeeps_ite | with_reducible apply resKeeps_done | with_reducible apply resKeeps_hold | with_reducible apply resKeeps_jump | with_reducible apply resKeeps_faultIn | with_reducible apply keeps_ite | with_reducible apply keeps_foldl | intro _ | dsimp only | split | (simp (maxDischargeDepth := 40) only [keeps_setLeaf, keeps_issue, keeps_ite, keeps_mk, keeps_foldl, keeps_refl, hk]; done))

theorem keeps_vreduce (r0 : State) (fn lat : Nat) (op : Rnd → BitVec 16 → Lanes → FRes) (l : Nat) (f : RR) (s : State) (hk : Keeps r0 s) : Keeps r0 (vreduce fn lat op l f s) := by
  unfold vreduce
  repeat' (first | with_reducible exact hk | with_reducible exact keeps_refl _ | exact trivial | exact (fun u => keeps_refl u) | with_reducible apply keeps_setLeaf | with_reducible apply keeps_issue | with_reducible apply resKeeps_ite | with_reducible apply resKeeps_done | with_reducible apply resKeeps_hold | with_reducible apply resKeeps_jump | with_reducible apply resKeeps_faultIn | with_reducible apply keeps_ite | with_reducible apply keeps_foldl | intro _ | dsimp only | split | (simp (maxDischargeDepth := 40) only [keeps_setLeaf, keeps_issue, keeps_ite, keeps_mk, keeps_foldl, keeps_refl, hk]; done))

theorem keeps_vcvt (r0 : State) (fn : Nat) (op : Rnd → Word → FRes) (l : Nat) (f : RR) (s : State) (hk : Keeps r0 s) : Keeps r0 (vcvt fn op l f s) := by
  unfold vcvt
  repeat' (first | with_reducible exact hk | with_reducible exact keeps_refl _ | exact trivial | exact (fun u => keeps_refl u) | with_reducible apply keeps_issue | with_reducible apply keeps_fpLanes | with_reducible apply resKeeps_ite | with_reducible apply resKeeps_done | with_reducible apply resKeeps_hold | with_reducible apply resKeeps_jump | with_reducible apply resKeeps_faultIn | with_reducible apply keeps_ite | with_reducible apply keeps_foldl | intro _ | dsimp only | split | (simp (maxDischargeDepth := 40) only [keeps_issue, keeps_fpLanes, keeps_ite, keeps_mk, keeps_foldl, keeps_refl, hk]; done))

theorem keeps_vxfn (r0 : State) (fn : Nat) (op : Word → Word) (l : Nat) (f : RR) (s : State) (hk : Keeps r0 s) : Keeps r0 (vxfn fn op l f s) := by
  unfold vxfn
  repeat' (first | with_reducible exact hk | with_reducible exact keeps_refl _ | exact trivial | exact (fun u => keeps_refl u) | with_reducible apply keeps_issue | with_reducible apply keeps_fpLanes | with_reducible apply resKeeps_ite | with_reducible apply resKeeps_done | with_reducible apply resKeeps_hold | with_reducible apply resKeeps_jump | with_reducible apply resKeeps_faultIn | with_reducible apply keeps_ite | with_reducible apply keeps_foldl | intro _ | dsimp only | split | (simp (maxDischargeDepth := 40) only [keeps_issue, keeps_fpLanes, keeps_ite, keeps_mk, keeps_foldl, keeps_refl, hk]; done))

theorem keeps_execVadd (l : Nat) (f : RR) (s : State) (t : State) (e : execVadd l f s = .next t) : Keeps s t := by
  have hk : Keeps s s := keeps_refl _
  simp only [execVadd, Host.Outcome.next.injEq] at e
  subst e
  simp (maxDischargeDepth := 40) only [keeps_viRR, keeps_refl]

theorem keeps_execVsub (l : Nat) (f : RR) (s : State) (t : State) (e : execVsub l f s = .next t) : Keeps s t := by
  have hk : Keeps s s := keeps_refl _
  simp only [execVsub, Host.Outcome.next.injEq] at e
  subst e
  simp (maxDischargeDepth := 40) only [keeps_viRR, keeps_refl]

theorem keeps_execVmul (l : Nat) (f : RR) (s : State) (t : State) (e : execVmul l f s = .next t) : Keeps s t := by
  have hk : Keeps s s := keeps_refl _
  simp only [execVmul, Host.Outcome.next.injEq] at e
  subst e
  simp (maxDischargeDepth := 40) only [keeps_viRR, keeps_refl]

theorem keeps_execVmulh (l : Nat) (f : RR) (s : State) (t : State) (e : execVmulh l f s = .next t) : Keeps s t := by
  have hk : Keeps s s := keeps_refl _
  simp only [execVmulh, Host.Outcome.next.injEq] at e
  subst e
  simp (maxDischargeDepth := 40) only [keeps_viRR, keeps_refl]

theorem keeps_execVand (l : Nat) (f : RR) (s : State) (t : State) (e : execVand l f s = .next t) : Keeps s t := by
  have hk : Keeps s s := keeps_refl _
  simp only [execVand, Host.Outcome.next.injEq] at e
  subst e
  simp (maxDischargeDepth := 40) only [keeps_viRR, keeps_refl]

theorem keeps_execVor (l : Nat) (f : RR) (s : State) (t : State) (e : execVor l f s = .next t) : Keeps s t := by
  have hk : Keeps s s := keeps_refl _
  simp only [execVor, Host.Outcome.next.injEq] at e
  subst e
  simp (maxDischargeDepth := 40) only [keeps_viRR, keeps_refl]

theorem keeps_execVxor (l : Nat) (f : RR) (s : State) (t : State) (e : execVxor l f s = .next t) : Keeps s t := by
  have hk : Keeps s s := keeps_refl _
  simp only [execVxor, Host.Outcome.next.injEq] at e
  subst e
  simp (maxDischargeDepth := 40) only [keeps_viRR, keeps_refl]

theorem keeps_execVsll (l : Nat) (f : RR) (s : State) (t : State) (e : execVsll l f s = .next t) : Keeps s t := by
  have hk : Keeps s s := keeps_refl _
  simp only [execVsll, Host.Outcome.next.injEq] at e
  subst e
  simp (maxDischargeDepth := 40) only [keeps_viRR, keeps_refl]

theorem keeps_execVsrl (l : Nat) (f : RR) (s : State) (t : State) (e : execVsrl l f s = .next t) : Keeps s t := by
  have hk : Keeps s s := keeps_refl _
  simp only [execVsrl, Host.Outcome.next.injEq] at e
  subst e
  simp (maxDischargeDepth := 40) only [keeps_viRR, keeps_refl]

theorem keeps_execVsra (l : Nat) (f : RR) (s : State) (t : State) (e : execVsra l f s = .next t) : Keeps s t := by
  have hk : Keeps s s := keeps_refl _
  simp only [execVsra, Host.Outcome.next.injEq] at e
  subst e
  simp (maxDischargeDepth := 40) only [keeps_viRR, keeps_refl]

theorem keeps_execVmin (l : Nat) (f : RR) (s : State) (t : State) (e : execVmin l f s = .next t) : Keeps s t := by
  have hk : Keeps s s := keeps_refl _
  simp only [execVmin, Host.Outcome.next.injEq] at e
  subst e
  simp (maxDischargeDepth := 40) only [keeps_viRR, keeps_refl]

theorem keeps_execVmax (l : Nat) (f : RR) (s : State) (t : State) (e : execVmax l f s = .next t) : Keeps s t := by
  have hk : Keeps s s := keeps_refl _
  simp only [execVmax, Host.Outcome.next.injEq] at e
  subst e
  simp (maxDischargeDepth := 40) only [keeps_viRR, keeps_refl]

theorem keeps_execVminu (l : Nat) (f : RR) (s : State) (t : State) (e : execVminu l f s = .next t) : Keeps s t := by
  have hk : Keeps s s := keeps_refl _
  simp only [execVminu, Host.Outcome.next.injEq] at e
  subst e
  simp (maxDischargeDepth := 40) only [keeps_viRR, keeps_refl]

theorem keeps_execVmaxu (l : Nat) (f : RR) (s : State) (t : State) (e : execVmaxu l f s = .next t) : Keeps s t := by
  have hk : Keeps s s := keeps_refl _
  simp only [execVmaxu, Host.Outcome.next.injEq] at e
  subst e
  simp (maxDischargeDepth := 40) only [keeps_viRR, keeps_refl]

theorem keeps_execVabs (l : Nat) (f : RR) (s : State) (t : State) (e : execVabs l f s = .next t) : Keeps s t := by
  have hk : Keeps s s := keeps_refl _
  simp only [execVabs, Host.Outcome.next.injEq] at e
  subst e
  simp (maxDischargeDepth := 40) only [keeps_viR, keeps_refl]

theorem keeps_execVneg (l : Nat) (f : RR) (s : State) (t : State) (e : execVneg l f s = .next t) : Keeps s t := by
  have hk : Keeps s s := keeps_refl _
  simp only [execVneg, Host.Outcome.next.injEq] at e
  subst e
  simp (maxDischargeDepth := 40) only [keeps_viR, keeps_refl]

theorem keeps_execVfadd (l : Nat) (f : RR) (s : State) (t : State) (e : execVfadd l f s = .next t) : Keeps s t := by
  have hk : Keeps s s := keeps_refl _
  simp only [execVfadd, Host.Outcome.next.injEq] at e
  subst e
  simp (maxDischargeDepth := 40) only [keeps_vfRR, keeps_refl]

theorem keeps_execVfsub (l : Nat) (f : RR) (s : State) (t : State) (e : execVfsub l f s = .next t) : Keeps s t := by
  have hk : Keeps s s := keeps_refl _
  simp only [execVfsub, Host.Outcome.next.injEq] at e
  subst e
  simp (maxDischargeDepth := 40) only [keeps_vfRR, keeps_refl]

theorem keeps_execVfmul (l : Nat) (f : RR) (s : State) (t : State) (e : execVfmul l f s = .next t) : Keeps s t := by
  have hk : Keeps s s := keeps_refl _
  simp only [execVfmul, Host.Outcome.next.injEq] at e
  subst e
  simp (maxDischargeDepth := 40) only [keeps_vfRR, keeps_refl]

theorem keeps_execVfma (l : Nat) (f : RR) (s : State) (t : State) (e : execVfma l f s = .next t) : Keeps s t := by
  have hk : Keeps s s := keeps_refl _
  simp only [execVfma, Host.Outcome.next.injEq] at e
  subst e
  simp (maxDischargeDepth := 40) only [keeps_vfFma, keeps_refl]

theorem keeps_execVfms (l : Nat) (f : RR) (s : State) (t : State) (e : execVfms l f s = .next t) : Keeps s t := by
  have hk : Keeps s s := keeps_refl _
  simp only [execVfms, Host.Outcome.next.injEq] at e
  subst e
  simp (maxDischargeDepth := 40) only [keeps_vfFma, keeps_refl]

theorem keeps_execVfnma (l : Nat) (f : RR) (s : State) (t : State) (e : execVfnma l f s = .next t) : Keeps s t := by
  have hk : Keeps s s := keeps_refl _
  simp only [execVfnma, Host.Outcome.next.injEq] at e
  subst e
  simp (maxDischargeDepth := 40) only [keeps_vfFma, keeps_refl]

theorem keeps_execVfmin (l : Nat) (f : RR) (s : State) (t : State) (e : execVfmin l f s = .next t) : Keeps s t := by
  have hk : Keeps s s := keeps_refl _
  simp only [execVfmin, Host.Outcome.next.injEq] at e
  subst e
  simp (maxDischargeDepth := 40) only [keeps_vfRR, keeps_refl]

theorem keeps_execVfmax (l : Nat) (f : RR) (s : State) (t : State) (e : execVfmax l f s = .next t) : Keeps s t := by
  have hk : Keeps s s := keeps_refl _
  simp only [execVfmax, Host.Outcome.next.injEq] at e
  subst e
  simp (maxDischargeDepth := 40) only [keeps_vfRR, keeps_refl]

theorem keeps_execVfabs (l : Nat) (f : RR) (s : State) (t : State) (e : execVfabs l f s = .next t) : Keeps s t := by
  have hk : Keeps s s := keeps_refl _
  simp only [execVfabs, Host.Outcome.next.injEq] at e
  subst e
  simp (maxDischargeDepth := 40) only [keeps_vfR, keeps_refl]

theorem keeps_execVfneg (l : Nat) (f : RR) (s : State) (t : State) (e : execVfneg l f s = .next t) : Keeps s t := by
  have hk : Keeps s s := keeps_refl _
  simp only [execVfneg, Host.Outcome.next.injEq] at e
  subst e
  simp (maxDischargeDepth := 40) only [keeps_vfR, keeps_refl]

theorem keeps_execVfdiv (l : Nat) (f : RR) (s : State) (t : State) (e : execVfdiv l f s = .next t) : Keeps s t := by
  have hk : Keeps s s := keeps_refl _
  simp only [execVfdiv, Host.Outcome.next.injEq] at e
  subst e
  simp (maxDischargeDepth := 40) only [keeps_vfRR, keeps_refl]

theorem keeps_execVfsqrt (l : Nat) (f : RR) (s : State) (t : State) (e : execVfsqrt l f s = .next t) : Keeps s t := by
  have hk : Keeps s s := keeps_refl _
  simp only [execVfsqrt, Host.Outcome.next.injEq] at e
  subst e
  simp (maxDischargeDepth := 40) only [keeps_vfR, keeps_refl]

theorem keeps_execVeq (l : Nat) (f : RR) (s : State) (t : State) (e : execVeq l f s = .next t) : Keeps s t := by
  have hk : Keeps s s := keeps_refl _
  simp only [execVeq, Host.Outcome.next.injEq] at e
  subst e
  simp (maxDischargeDepth := 40) only [keeps_vcmp, keeps_refl]

theorem keeps_execVne (l : Nat) (f : RR) (s : State) (t : State) (e : execVne l f s = .next t) : Keeps s t := by
  have hk : Keeps s s := keeps_refl _
  simp only [execVne, Host.Outcome.next.injEq] at e
  subst e
  simp (maxDischargeDepth := 40) only [keeps_vcmp, keeps_refl]

theorem keeps_execVlt (l : Nat) (f : RR) (s : State) (t : State) (e : execVlt l f s = .next t) : Keeps s t := by
  have hk : Keeps s s := keeps_refl _
  simp only [execVlt, Host.Outcome.next.injEq] at e
  subst e
  simp (maxDischargeDepth := 40) only [keeps_vcmp, keeps_refl]

theorem keeps_execVltu (l : Nat) (f : RR) (s : State) (t : State) (e : execVltu l f s = .next t) : Keeps s t := by
  have hk : Keeps s s := keeps_refl _
  simp only [execVltu, Host.Outcome.next.injEq] at e
  subst e
  simp (maxDischargeDepth := 40) only [keeps_vcmp, keeps_refl]

theorem keeps_execVge (l : Nat) (f : RR) (s : State) (t : State) (e : execVge l f s = .next t) : Keeps s t := by
  have hk : Keeps s s := keeps_refl _
  simp only [execVge, Host.Outcome.next.injEq] at e
  subst e
  simp (maxDischargeDepth := 40) only [keeps_vcmp, keeps_refl]

theorem keeps_execVgeu (l : Nat) (f : RR) (s : State) (t : State) (e : execVgeu l f s = .next t) : Keeps s t := by
  have hk : Keeps s s := keeps_refl _
  simp only [execVgeu, Host.Outcome.next.injEq] at e
  subst e
  simp (maxDischargeDepth := 40) only [keeps_vcmp, keeps_refl]

theorem keeps_execVfeq (l : Nat) (f : RR) (s : State) (t : State) (e : execVfeq l f s = .next t) : Keeps s t := by
  have hk : Keeps s s := keeps_refl _
  simp only [execVfeq, Host.Outcome.next.injEq] at e
  subst e
  simp (maxDischargeDepth := 40) only [keeps_vcmp, keeps_refl]

theorem keeps_execVfne (l : Nat) (f : RR) (s : State) (t : State) (e : execVfne l f s = .next t) : Keeps s t := by
  have hk : Keeps s s := keeps_refl _
  simp only [execVfne, Host.Outcome.next.injEq] at e
  subst e
  simp (maxDischargeDepth := 40) only [keeps_vcmp, keeps_refl]

theorem keeps_execVflt (l : Nat) (f : RR) (s : State) (t : State) (e : execVflt l f s = .next t) : Keeps s t := by
  have hk : Keeps s s := keeps_refl _
  simp only [execVflt, Host.Outcome.next.injEq] at e
  subst e
  simp (maxDischargeDepth := 40) only [keeps_vcmp, keeps_refl]

theorem keeps_execVfle (l : Nat) (f : RR) (s : State) (t : State) (e : execVfle l f s = .next t) : Keeps s t := by
  have hk : Keeps s s := keeps_refl _
  simp only [execVfle, Host.Outcome.next.injEq] at e
  subst e
  simp (maxDischargeDepth := 40) only [keeps_vcmp, keeps_refl]

theorem keeps_execVfun (l : Nat) (f : RR) (s : State) (t : State) (e : execVfun l f s = .next t) : Keeps s t := by
  have hk : Keeps s s := keeps_refl _
  simp only [execVfun, Host.Outcome.next.injEq] at e
  subst e
  simp (maxDischargeDepth := 40) only [keeps_vcmp, keeps_refl]

theorem keeps_execVsel (l : Nat) (f : RR) (s : State) (t : State) (e : execVsel l f s = .next t) : Keeps s t := by
  have hk : Keeps s s := keeps_refl _
  simp only [execVsel, Host.Outcome.next.injEq] at e
  subst e
  repeat' (first | with_reducible exact hk | with_reducible exact keeps_refl _ | exact trivial | exact (fun u => keeps_refl u) | with_reducible apply keeps_issue | with_reducible apply keeps_vecBody | with_reducible apply resKeeps_ite | with_reducible apply resKeeps_done | with_reducible apply resKeeps_hold | with_reducible apply resKeeps_jump | with_reducible apply resKeeps_faultIn | with_reducible apply keeps_ite | with_reducible apply keeps_foldl | intro _ | dsimp only | split | (simp (maxDischargeDepth := 40) only [keeps_issue, keeps_vecBody, keeps_ite, keeps_mk, keeps_foldl, keeps_refl, hk, resKeeps_ite, resKeeps_done, resKeeps_hold, resKeeps_jump, resKeeps_faultIn, resKeeps_block, resKeeps_fault]; done))

theorem keeps_execVbcast (l : Nat) (f : RR) (s : State) (t : State) (e : execVbcast l f s = .next t) : Keeps s t := by
  have hk : Keeps s s := keeps_refl _
  simp only [execVbcast, Host.Outcome.next.injEq] at e
  subst e
  repeat' (first | with_reducible exact hk | with_reducible exact keeps_refl _ | exact trivial | exact (fun u => keeps_refl u) | with_reducible apply keeps_issue | with_reducible apply keeps_vecBody | with_reducible apply resKeeps_ite | with_reducible apply resKeeps_done | with_reducible apply resKeeps_hold | with_reducible apply resKeeps_jump | with_reducible apply resKeeps_faultIn | with_reducible apply keeps_ite | with_reducible apply keeps_foldl | intro _ | dsimp only | split | (simp (maxDischargeDepth := 40) only [keeps_issue, keeps_vecBody, keeps_ite, keeps_mk, keeps_foldl, keeps_refl, hk, resKeeps_ite, resKeeps_done, resKeeps_hold, resKeeps_jump, resKeeps_faultIn, resKeeps_block, resKeeps_fault]; done))

theorem keeps_execVext (l : Nat) (f : RR) (s : State) (t : State) (e : execVext l f s = .next t) : Keeps s t := by
  have hk : Keeps s s := keeps_refl _
  simp only [execVext, Host.Outcome.next.injEq] at e
  subst e
  repeat' (first | with_reducible exact hk | with_reducible exact keeps_refl _ | exact trivial | exact (fun u => keeps_refl u) | with_reducible apply keeps_setLeaf | with_reducible apply keeps_issue | with_reducible apply resKeeps_ite | with_reducible apply resKeeps_done | with_reducible apply resKeeps_hold | with_reducible apply resKeeps_jump | with_reducible apply resKeeps_faultIn | with_reducible apply keeps_ite | with_reducible apply keeps_foldl | intro _ | dsimp only | split | (simp (maxDischargeDepth := 40) only [keeps_setLeaf, keeps_issue, keeps_ite, keeps_mk, keeps_foldl, keeps_refl, hk, resKeeps_ite, resKeeps_done, resKeeps_hold, resKeeps_jump, resKeeps_faultIn, resKeeps_block, resKeeps_fault]; done))

theorem keeps_execVins (l : Nat) (f : RR) (s : State) (t : State) (e : execVins l f s = .next t) : Keeps s t := by
  have hk : Keeps s s := keeps_refl _
  simp only [execVins, Host.Outcome.next.injEq] at e
  subst e
  repeat' (first | with_reducible exact hk | with_reducible exact keeps_refl _ | exact trivial | exact (fun u => keeps_refl u) | with_reducible apply keeps_issue | with_reducible apply keeps_regBody | with_reducible apply resKeeps_ite | with_reducible apply resKeeps_done | with_reducible apply resKeeps_hold | with_reducible apply resKeeps_jump | with_reducible apply resKeeps_faultIn | with_reducible apply keeps_ite | with_reducible apply keeps_foldl | intro _ | dsimp only | split | (simp (maxDischargeDepth := 40) only [keeps_issue, keeps_regBody, keeps_ite, keeps_mk, keeps_foldl, keeps_refl, hk, resKeeps_ite, resKeeps_done, resKeeps_hold, resKeeps_jump, resKeeps_faultIn, resKeeps_block, resKeeps_fault]; done))

theorem keeps_execVperm (l : Nat) (f : RR) (s : State) (t : State) (e : execVperm l f s = .next t) : Keeps s t := by
  have hk : Keeps s s := keeps_refl _
  simp only [execVperm, Host.Outcome.next.injEq] at e
  subst e
  repeat' (first | with_reducible exact hk | with_reducible exact keeps_refl _ | exact trivial | exact (fun u => keeps_refl u) | with_reducible apply keeps_issue | with_reducible apply keeps_vecBody | with_reducible apply resKeeps_ite | with_reducible apply resKeeps_done | with_reducible apply resKeeps_hold | with_reducible apply resKeeps_jump | with_reducible apply resKeeps_faultIn | with_reducible apply keeps_ite | with_reducible apply keeps_foldl | intro _ | dsimp only | split | (simp (maxDischargeDepth := 40) only [keeps_issue, keeps_vecBody, keeps_ite, keeps_mk, keeps_foldl, keeps_refl, hk, resKeeps_ite, resKeeps_done, resKeeps_hold, resKeeps_jump, resKeeps_faultIn, resKeeps_block, resKeeps_fault]; done))

theorem keeps_execVrsum (l : Nat) (f : RR) (s : State) (t : State) (e : execVrsum l f s = .next t) : Keeps s t := by
  have hk : Keeps s s := keeps_refl _
  simp only [execVrsum, Host.Outcome.next.injEq] at e
  subst e
  simp (maxDischargeDepth := 40) only [keeps_vreduce, keeps_refl]

theorem keeps_execVrmax (l : Nat) (f : RR) (s : State) (t : State) (e : execVrmax l f s = .next t) : Keeps s t := by
  have hk : Keeps s s := keeps_refl _
  simp only [execVrmax, Host.Outcome.next.injEq] at e
  subst e
  simp (maxDischargeDepth := 40) only [keeps_vreduce, keeps_refl]

theorem keeps_execVfrsum (l : Nat) (f : RR) (s : State) (t : State) (e : execVfrsum l f s = .next t) : Keeps s t := by
  have hk : Keeps s s := keeps_refl _
  simp only [execVfrsum, Host.Outcome.next.injEq] at e
  subst e
  simp (maxDischargeDepth := 40) only [keeps_vreduce, keeps_refl]

theorem keeps_execVfrmax (l : Nat) (f : RR) (s : State) (t : State) (e : execVfrmax l f s = .next t) : Keeps s t := by
  have hk : Keeps s s := keeps_refl _
  simp only [execVfrmax, Host.Outcome.next.injEq] at e
  subst e
  simp (maxDischargeDepth := 40) only [keeps_vreduce, keeps_refl]

theorem keeps_execVfrmin (l : Nat) (f : RR) (s : State) (t : State) (e : execVfrmin l f s = .next t) : Keeps s t := by
  have hk : Keeps s s := keeps_refl _
  simp only [execVfrmin, Host.Outcome.next.injEq] at e
  subst e
  simp (maxDischargeDepth := 40) only [keeps_vreduce, keeps_refl]

theorem keeps_execMtm (l : Nat) (f : RR) (s : State) (t : State) (e : execMtm l f s = .next t) : Keeps s t := by
  have hk : Keeps s s := keeps_refl _
  simp only [execMtm, Host.Outcome.next.injEq] at e
  subst e
  repeat' (first | with_reducible exact hk | with_reducible exact keeps_refl _ | exact trivial | exact (fun u => keeps_refl u) | with_reducible apply keeps_issue | with_reducible apply keeps_regBody | with_reducible apply resKeeps_ite | with_reducible apply resKeeps_done | with_reducible apply resKeeps_hold | with_reducible apply resKeeps_jump | with_reducible apply resKeeps_faultIn | with_reducible apply keeps_ite | with_reducible apply keeps_foldl | intro _ | dsimp only | split | (simp (maxDischargeDepth := 40) only [keeps_issue, keeps_regBody, keeps_ite, keeps_mk, keeps_foldl, keeps_refl, hk, resKeeps_ite, resKeeps_done, resKeeps_hold, resKeeps_jump, resKeeps_faultIn, resKeeps_block, resKeeps_fault]; done))

theorem keeps_execMfm (l : Nat) (f : RR) (s : State) (t : State) (e : execMfm l f s = .next t) : Keeps s t := by
  have hk : Keeps s s := keeps_refl _
  simp only [execMfm, Host.Outcome.next.injEq] at e
  subst e
  repeat' (first | with_reducible exact hk | with_reducible exact keeps_refl _ | exact trivial | exact (fun u => keeps_refl u) | with_reducible apply keeps_issue | with_reducible apply keeps_regBody | with_reducible apply resKeeps_ite | with_reducible apply resKeeps_done | with_reducible apply resKeeps_hold | with_reducible apply resKeeps_jump | with_reducible apply resKeeps_faultIn | with_reducible apply keeps_ite | with_reducible apply keeps_foldl | intro _ | dsimp only | split | (simp (maxDischargeDepth := 40) only [keeps_issue, keeps_regBody, keeps_ite, keeps_mk, keeps_foldl, keeps_refl, hk, resKeeps_ite, resKeeps_done, resKeeps_hold, resKeeps_jump, resKeeps_faultIn, resKeeps_block, resKeeps_fault]; done))

theorem keeps_execMpopc (l : Nat) (f : RR) (s : State) (t : State) (e : execMpopc l f s = .next t) : Keeps s t := by
  have hk : Keeps s s := keeps_refl _
  simp only [execMpopc, Host.Outcome.next.injEq] at e
  subst e
  repeat' (first | with_reducible exact hk | with_reducible exact keeps_refl _ | exact trivial | exact (fun u => keeps_refl u) | with_reducible apply keeps_issue | with_reducible apply keeps_regBody | with_reducible apply resKeeps_ite | with_reducible apply resKeeps_done | with_reducible apply resKeeps_hold | with_reducible apply resKeeps_jump | with_reducible apply resKeeps_faultIn | with_reducible apply keeps_ite | with_reducible apply keeps_foldl | intro _ | dsimp only | split | (simp (maxDischargeDepth := 40) only [keeps_issue, keeps_regBody, keeps_ite, keeps_mk, keeps_foldl, keeps_refl, hk, resKeeps_ite, resKeeps_done, resKeeps_hold, resKeeps_jump, resKeeps_faultIn, resKeeps_block, resKeeps_fault]; done))

theorem keeps_execVf2i (l : Nat) (f : RR) (s : State) (t : State) (e : execVf2i l f s = .next t) : Keeps s t := by
  have hk : Keeps s s := keeps_refl _
  simp only [execVf2i, Host.Outcome.next.injEq] at e
  subst e
  simp (maxDischargeDepth := 40) only [keeps_vcvt, keeps_refl]

theorem keeps_execVi2f (l : Nat) (f : RR) (s : State) (t : State) (e : execVi2f l f s = .next t) : Keeps s t := by
  have hk : Keeps s s := keeps_refl _
  simp only [execVi2f, Host.Outcome.next.injEq] at e
  subst e
  simp (maxDischargeDepth := 40) only [keeps_vcvt, keeps_refl]

theorem keeps_execVf2u (l : Nat) (f : RR) (s : State) (t : State) (e : execVf2u l f s = .next t) : Keeps s t := by
  have hk : Keeps s s := keeps_refl _
  simp only [execVf2u, Host.Outcome.next.injEq] at e
  subst e
  simp (maxDischargeDepth := 40) only [keeps_vcvt, keeps_refl]

theorem keeps_execVu2f (l : Nat) (f : RR) (s : State) (t : State) (e : execVu2f l f s = .next t) : Keeps s t := by
  have hk : Keeps s s := keeps_refl _
  simp only [execVu2f, Host.Outcome.next.injEq] at e
  subst e
  simp (maxDischargeDepth := 40) only [keeps_vcvt, keeps_refl]

theorem keeps_execVf2h (l : Nat) (f : RR) (s : State) (t : State) (e : execVf2h l f s = .next t) : Keeps s t := by
  have hk : Keeps s s := keeps_refl _
  simp only [execVf2h, Host.Outcome.next.injEq] at e
  subst e
  simp (maxDischargeDepth := 40) only [keeps_vcvt, keeps_refl]

theorem keeps_execVh2f (l : Nat) (f : RR) (s : State) (t : State) (e : execVh2f l f s = .next t) : Keeps s t := by
  have hk : Keeps s s := keeps_refl _
  simp only [execVh2f, Host.Outcome.next.injEq] at e
  subst e
  simp (maxDischargeDepth := 40) only [keeps_vcvt, keeps_refl]

theorem keeps_execVf2bf (l : Nat) (f : RR) (s : State) (t : State) (e : execVf2bf l f s = .next t) : Keeps s t := by
  have hk : Keeps s s := keeps_refl _
  simp only [execVf2bf, Host.Outcome.next.injEq] at e
  subst e
  simp (maxDischargeDepth := 40) only [keeps_vcvt, keeps_refl]

theorem keeps_execVbf2f (l : Nat) (f : RR) (s : State) (t : State) (e : execVbf2f l f s = .next t) : Keeps s t := by
  have hk : Keeps s s := keeps_refl _
  simp only [execVbf2f, Host.Outcome.next.injEq] at e
  subst e
  simp (maxDischargeDepth := 40) only [keeps_vcvt, keeps_refl]

theorem keeps_execVf2e4 (l : Nat) (f : RR) (s : State) (t : State) (e : execVf2e4 l f s = .next t) : Keeps s t := by
  have hk : Keeps s s := keeps_refl _
  simp only [execVf2e4, Host.Outcome.next.injEq] at e
  subst e
  simp (maxDischargeDepth := 40) only [keeps_vcvt, keeps_refl]

theorem keeps_execVe42f (l : Nat) (f : RR) (s : State) (t : State) (e : execVe42f l f s = .next t) : Keeps s t := by
  have hk : Keeps s s := keeps_refl _
  simp only [execVe42f, Host.Outcome.next.injEq] at e
  subst e
  simp (maxDischargeDepth := 40) only [keeps_vcvt, keeps_refl]

theorem keeps_execVf2e5 (l : Nat) (f : RR) (s : State) (t : State) (e : execVf2e5 l f s = .next t) : Keeps s t := by
  have hk : Keeps s s := keeps_refl _
  simp only [execVf2e5, Host.Outcome.next.injEq] at e
  subst e
  simp (maxDischargeDepth := 40) only [keeps_vcvt, keeps_refl]

theorem keeps_execVe52f (l : Nat) (f : RR) (s : State) (t : State) (e : execVe52f l f s = .next t) : Keeps s t := by
  have hk : Keeps s s := keeps_refl _
  simp only [execVe52f, Host.Outcome.next.injEq] at e
  subst e
  simp (maxDischargeDepth := 40) only [keeps_vcvt, keeps_refl]

theorem keeps_execVrcp (l : Nat) (f : RR) (s : State) (t : State) (e : execVrcp l f s = .next t) : Keeps s t := by
  have hk : Keeps s s := keeps_refl _
  simp only [execVrcp, Host.Outcome.next.injEq] at e
  subst e
  simp (maxDischargeDepth := 40) only [keeps_vxfn, keeps_refl]

theorem keeps_execVrsq (l : Nat) (f : RR) (s : State) (t : State) (e : execVrsq l f s = .next t) : Keeps s t := by
  have hk : Keeps s s := keeps_refl _
  simp only [execVrsq, Host.Outcome.next.injEq] at e
  subst e
  simp (maxDischargeDepth := 40) only [keeps_vxfn, keeps_refl]

theorem keeps_execVexp2 (l : Nat) (f : RR) (s : State) (t : State) (e : execVexp2 l f s = .next t) : Keeps s t := by
  have hk : Keeps s s := keeps_refl _
  simp only [execVexp2, Host.Outcome.next.injEq] at e
  subst e
  simp (maxDischargeDepth := 40) only [keeps_vxfn, keeps_refl]

theorem keeps_execVlog2 (l : Nat) (f : RR) (s : State) (t : State) (e : execVlog2 l f s = .next t) : Keeps s t := by
  have hk : Keeps s s := keeps_refl _
  simp only [execVlog2, Host.Outcome.next.injEq] at e
  subst e
  simp (maxDischargeDepth := 40) only [keeps_vxfn, keeps_refl]

theorem keeps_execVtanh (l : Nat) (f : RR) (s : State) (t : State) (e : execVtanh l f s = .next t) : Keeps s t := by
  have hk : Keeps s s := keeps_refl _
  simp only [execVtanh, Host.Outcome.next.injEq] at e
  subst e
  simp (maxDischargeDepth := 40) only [keeps_vxfn, keeps_refl]

theorem keeps_execVsigm (l : Nat) (f : RR) (s : State) (t : State) (e : execVsigm l f s = .next t) : Keeps s t := by
  have hk : Keeps s s := keeps_refl _
  simp only [execVsigm, Host.Outcome.next.injEq] at e
  subst e
  simp (maxDischargeDepth := 40) only [keeps_vxfn, keeps_refl]

end Sys2Proof.Machine
end

