-- ==== Sys2Proof/Laws/KeepsUnits.lean ====
section
/-! SUPPORT. The operations and meanings of this part of the machine keep the queue, the memory and the event log in
order, one lemma each (Laws/Keeps.lean). -/
namespace Sys2Proof.Machine

theorem keeps_noteCollRefusal (r0 : State) (s : State) (off n : Nat) (write : Bool) (hk : Keeps r0 s) : Keeps r0 (noteCollRefusal s off n write) := by
  unfold noteCollRefusal
  (repeat' split) <;> simp (maxDischargeDepth := 40) only [keeps_windowRefuse, keeps_noteRefusal, keeps_ite, hk]

theorem keeps_noteHeld (r0 : State) (s : State) (off n : Nat) (hk : Keeps r0 s) : Keeps r0 (noteHeld s off n) := by
  unfold noteHeld
  simp (maxDischargeDepth := 40) only [keeps_mk, hk]

theorem keeps_collTry (r0 : State) (s : State) (f : State → State) (wait : State → State) (hk : Keeps r0 s)
    (hf : ∀ u, Keeps u (f u)) (hw : ∀ u, Keeps u (wait u)) : Keeps r0 (collTry s f wait) := by
  have hs : Keeps r0 (f { s with coll := { s.coll with asks := some [] } }) :=
    keeps_trans _ _ _ (keeps_mk _ _ hk _ _ _ _ _ _ _ _ _ _ _ _ _ _ _ _ _ _ _ rfl rfl rfl rfl) (hf _)
  have hv : Keeps r0 (wait s) := keeps_trans _ _ _ hk (hw _)
  unfold collTry
  simp only
  generalize f _ = t at hs
  split
  · split
    · exact keeps_modLeaf _ _ _ _ hv
    · exact hv
  · exact keeps_mk _ _ hs _ _ _ _ _ _ _ _ _ _ _ _ _ _ _ _ _ _ _ rfl rfl rfl rfl

theorem keeps_collCheck (r0 : State) (s : State) (off n : Nat) (write : Bool) (hk : Keeps r0 s) : Keeps r0 (collCheck s off n write).2 := by
  unfold collCheck
  (repeat' split) <;> simp (maxDischargeDepth := 40) only [keeps_drawCheck, hk]

theorem keeps_collReadAll (s0 : State) (s : State) (as : List (Nat × Nat)) (h : Keeps s0 s) :
    Keeps s0 (collReadAll s as).1 := by
  induction as generalizing s with
  | nil => exact h
  | cons a r ih =>
    have hf := keeps_readPlace s0 _ a.1 a.2 (collCheck s a.1 a.2 false).1 (keeps_collCheck _ _ a.1 a.2 false h)
    unfold collReadAll
    simp only
    (repeat' split) <;> first | exact keeps_noteCollRefusal _ _ _ _ _ h | exact keeps_noteHeld _ _ _ _ h | exact hf | exact ih _ hf

theorem keeps_collRead (r0 : State) (s : State) (off n : Nat) (hk : Keeps r0 s) : Keeps r0 (collRead s off n).1 := by
  unfold collRead
  simp (maxDischargeDepth := 40) only [keeps_collReadAll, hk]

theorem keeps_collWriteAll (s0 : State) (s : State) (as : List (Nat × Nat)) (bs : List Byte) (h : Keeps s0 s) :
    Keeps s0 (collWriteAll s as bs).1 := by
  induction as generalizing s bs with
  | nil => exact h
  | cons a r ih =>
    unfold collWriteAll
    (repeat' split) <;>
      first
      | exact keeps_noteCollRefusal _ _ _ _ _ h
      | exact keeps_noteHeld _ _ _ _ h
      | exact ih _ _ (keeps_writePlace _ _ _ _ _ _ (keeps_collCheck _ _ _ _ _ h))

theorem keeps_collWrite (r0 : State) (s : State) (off : Nat) (bs : List Byte) (hk : Keeps r0 s) : Keeps r0 (collWrite s off bs).1 := by
  unfold collWrite
  simp (maxDischargeDepth := 40) only [keeps_collWriteAll, hk]

theorem keeps_setCslot (r0 : State) (s : State) (k : Nat) (x : Option CSlot) (hk : Keeps r0 s) : Keeps r0 (setCslot s k x) := by
  unfold setCslot
  simp (maxDischargeDepth := 40) only [keeps_mk, hk]

theorem keeps_modCslot (r0 : State) (s : State) (k : Nat) (f : CSlot → CSlot) (hk : Keeps r0 s) : Keeps r0 (modCslot s k f) := by
  unfold modCslot
  (repeat' split) <;> simp (maxDischargeDepth := 40) only [keeps_setCslot, hk]

theorem keeps_bumpColl (r0 : State) (s : State) (i n : Nat) (hk : Keeps r0 s) : Keeps r0 (bumpColl s i n) := by
  unfold bumpColl
  simp (maxDischargeDepth := 40) only [keeps_mk, hk]

theorem keeps_collGc (r0 : State) (s : State) (g : Nat) (hk : Keeps r0 s) : Keeps r0 (collGc s g) := by
  unfold collGc
  simp (maxDischargeDepth := 40) only [keeps_gcAdd, keeps_ite, hk]

theorem keeps_sendColl (r0 : State) (s : State) (k : Nat) (x : CSlot) (t kind landing piece reason : Nat) (last : Bool) (data : List Byte) (extra : List (BitVec 128)) (hk : Keeps r0 s) : Keeps r0 (sendColl s k x t kind landing piece reason last data extra) := by
  unfold sendColl
  simp (maxDischargeDepth := 40) only [keeps_toRouter, keeps_ite, hk]

theorem keeps_putCollRecord (r0 : State) (s : State) (k : Nat) (x : CSlot) (result reason rank id : Nat) (hk : Keeps r0 s) : Keeps r0 (putCollRecord s k x result reason rank id) := by
  unfold putCollRecord
  simp (maxDischargeDepth := 40) only [keeps_collWrite, keeps_ite, hk]

theorem keeps_faultGc (r0 : State) (s : State) (hk : Keeps r0 s) : Keeps r0 (faultGc s) := by
  unfold faultGc
  simp (maxDischargeDepth := 40) only [keeps_collGc, keeps_ite, hk]

theorem keeps_failCounters (r0 : State) (s : State) (k : Nat) (x : CSlot) (result reason rank id : Nat) (hk : Keeps r0 s) : Keeps r0 (failCounters s k x result reason rank id) := by
  unfold failCounters
  simp (maxDischargeDepth := 40) only [keeps_collGc, keeps_putCollRecord, keeps_faultGc, keeps_ite, hk]

theorem keeps_sendPoison (r0 : State) (s : State) (k : Nat) (x : CSlot) (reason : Nat) (hk : Keeps r0 s) : Keeps r0 (sendPoison s k x reason) := by
  unfold sendPoison
  repeat' (first | with_reducible exact hk | with_reducible exact keeps_refl _ | exact trivial | exact (fun u => keeps_refl u) | with_reducible apply keeps_bumpColl | with_reducible apply keeps_sendColl | with_reducible apply keeps_ite | with_reducible apply keeps_foldl | intro _ | dsimp only | split | (simp (maxDischargeDepth := 40) only [keeps_bumpColl, keeps_sendColl, keeps_ite, keeps_mk, keeps_foldl, keeps_refl, hk]; done))

theorem keeps_collFail (r0 : State) (s : State) (k reason rank : Nat) (quiet skip : Bool) (hk : Keeps r0 s) : Keeps r0 (collFail s k reason rank quiet skip) := by
  unfold collFail
  (repeat' split) <;> simp (maxDischargeDepth := 40) only [keeps_raise, keeps_setCslot, keeps_bumpColl, keeps_failCounters, keeps_sendPoison, hk]

theorem keeps_collFailOwn (r0 : State) (s : State) (k reason : Nat) (hk : Keeps r0 s) : Keeps r0 (collFailOwn s k reason) := by
  unfold collFailOwn
  (repeat' split) <;> simp (maxDischargeDepth := 40) only [keeps_collFail, hk]

theorem keeps_collSettle (r0 : State) (s : State) (k : Nat) (hk : Keeps r0 s) : Keeps r0 (collSettle s k) := by
  unfold collSettle
  (repeat' split) <;> simp (maxDischargeDepth := 40) only [keeps_setCslot, keeps_bumpColl, keeps_collGc, keeps_putCollRecord, hk]

theorem keeps_tryConfirm (r0 : State) (s : State) (k : Nat) (hk : Keeps r0 s) : Keeps r0 (tryConfirm s k) := by
  unfold tryConfirm
  repeat' (first | with_reducible exact hk | with_reducible exact keeps_refl _ | exact trivial | exact (fun u => keeps_refl u) | with_reducible apply keeps_setCslot | with_reducible apply keeps_sendColl | with_reducible apply keeps_collSettle | with_reducible apply keeps_ite | with_reducible apply keeps_foldl | intro _ | dsimp only | split | (simp (maxDischargeDepth := 40) only [keeps_setCslot, keeps_sendColl, keeps_collSettle, keeps_ite, keeps_mk, keeps_foldl, keeps_refl, hk]; done))

theorem keeps_tryDone (r0 : State) (s : State) (k : Nat) (hk : Keeps r0 s) : Keeps r0 (tryDone s k) := by
  unfold tryDone
  (repeat' split) <;> simp (maxDischargeDepth := 40) only [keeps_setCslot, keeps_collGc, keeps_tryConfirm, hk]

theorem keeps_readOperands (s0 : State) (s : State) (d : BitVec 512) (n r p len : Nat) (ms : List Nat) (h : Keeps s0 s) :
    Keeps s0 (readOperands s d n r p len ms).1 := by
  induction ms generalizing s with
  | nil => exact h
  | cons m rest ih =>
    have hf := keeps_collRead s0 s (if m = r then cSrc d + r * cStride d n + 192 * p else cRecv d + m * cStride d n + 192 * p) len h
    unfold readOperands
    simp only
    generalize collRead s _ len = f at hf ⊢
    split
    · exact hf
    · exact ih _ hf

theorem keeps_writeList (s0 : State) (s : State) (ws : List (Nat × List Byte)) (h : Keeps s0 s) :
    Keeps s0 (writeList s ws).1 := by
  induction ws generalizing s with
  | nil => exact h
  | cons w r ih =>
    unfold writeList
    simp only
    split
    · exact ih _ (keeps_collWrite _ _ _ _ h)
    · exact keeps_collWrite _ _ _ _ h

theorem keeps_reducePiece (r0 : State) (k : Nat) (s : State) (p : Nat) (hk : Keeps r0 s) : Keeps r0 (reducePiece k s p) := by
  unfold reducePiece
  repeat' (first | with_reducible exact hk | with_reducible exact keeps_refl _ | exact trivial | exact (fun u => keeps_refl u) | with_reducible apply keeps_setCslot | with_reducible apply keeps_collFailOwn | with_reducible apply keeps_readOperands | with_reducible apply keeps_writeList | with_reducible apply keeps_ite | with_reducible apply keeps_foldl | intro _ | dsimp only | split | (simp (maxDischargeDepth := 40) only [keeps_setCslot, keeps_collFailOwn, keeps_readOperands, keeps_writeList, keeps_ite, keeps_mk, keeps_foldl, keeps_refl, hk]; done))

theorem keeps_reduceReady (r0 : State) (s : State) (k : Nat) (hk : Keeps r0 s) : Keeps r0 (reduceReady s k) := by
  unfold reduceReady
  repeat' (first | with_reducible exact hk | with_reducible exact keeps_refl _ | exact trivial | exact (fun u => keeps_refl u) | with_reducible apply keeps_reducePiece | with_reducible apply keeps_ite | with_reducible apply keeps_foldl | intro _ | dsimp only | split | (simp (maxDischargeDepth := 40) only [keeps_reducePiece, keeps_ite, keeps_mk, keeps_foldl, keeps_refl, hk]; done))

theorem keeps_partSize (r0 : State) (s : State) (x : CSlot) (t : Nat) (hk : Keeps r0 s) : Keeps r0 (partSize s x t).1 := by
  unfold partSize
  simp (maxDischargeDepth := 40) only [keeps_collRead, hk]

theorem keeps_sendTo (r0 : State) (s : State) (k t : Nat) (bases : Nat × Nat) (hk : Keeps r0 s) : Keeps r0 (sendTo s k t bases) := by
  unfold sendTo
  repeat' (first | with_reducible exact hk | with_reducible exact keeps_refl _ | exact trivial | exact (fun u => keeps_refl u) | with_reducible apply keeps_collRead | with_reducible apply keeps_sendColl | with_reducible apply keeps_collFailOwn | with_reducible apply keeps_partSize | with_reducible apply keeps_ite | with_reducible apply keeps_foldl | intro _ | dsimp only | split | (simp (maxDischargeDepth := 40) only [keeps_collRead, keeps_sendColl, keeps_collFailOwn, keeps_partSize, keeps_ite, keeps_mk, keeps_foldl, keeps_refl, hk]; done))

theorem keeps_pumpSends (s0 : State) (k fuel : Nat) (s : State) (h : Keeps s0 s) : Keeps s0 (pumpSends k fuel s) := by
  induction fuel generalizing s with
  | zero => exact h
  | succ fuel ih =>
    unfold pumpSends
    simp only
    (repeat' split) <;>
      first | exact h | exact ih _ (keeps_modCslot _ _ _ _ h) | exact ih _ (keeps_modCslot _ _ _ _ (keeps_sendTo _ _ _ _ _ h))

theorem keeps_pumpResults (s0 : State) (k fuel : Nat) (s : State) (h : Keeps s0 s) : Keeps s0 (pumpResults k fuel s) := by
  induction fuel generalizing s with
  | zero => exact h
  | succ fuel ih =>
    unfold pumpResults
    simp only
    (repeat' split) <;>
      first
      | exact h
      | exact keeps_collFailOwn _ _ _ _ (keeps_collRead _ _ _ _ h)
      | exact ih _ (keeps_modCslot _ _ _ _ (keeps_sendColl _ _ _ _ _ _ _ _ _ _ _ _ (keeps_collRead _ _ _ _ h)))

theorem keeps_pump (r0 : State) (s : State) (k : Nat) (hk : Keeps r0 s) : Keeps r0 (pump s k) := by
  unfold pump
  (repeat' split) <;> simp (maxDischargeDepth := 40) only [keeps_tryDone, keeps_reduceReady, keeps_pumpSends, keeps_pumpResults, hk]

theorem keeps_trySmall (r0 : State) (s : State) (k : Nat) (hk : Keeps r0 s) : Keeps r0 (trySmall s k) := by
  unfold trySmall
  (repeat' split) <;> simp (maxDischargeDepth := 40) only [keeps_collWrite, keeps_setCslot, keeps_collFailOwn, keeps_tryDone, keeps_ite, hk]

theorem keeps_takeContrib (r0 : State) (s : State) (k : Nat) (x : CSlot) (m : CollMsg) (hk : Keeps r0 s) : Keeps r0 (takeContrib s k x m) := by
  unfold takeContrib
  simp (maxDischargeDepth := 40) only [keeps_collWrite, keeps_setCslot, keeps_collFailOwn, keeps_pump, keeps_ite, hk]

theorem keeps_endPart (r0 : State) (s : State) (x : CSlot) (t sent len : Nat) (hk : Keeps r0 s) : Keeps r0 (endPart s x t sent len).1 := by
  unfold endPart
  simp (maxDischargeDepth := 40) only [keeps_writeList, hk]

theorem keeps_takeResult (r0 : State) (s : State) (k : Nat) (x : CSlot) (m : CollMsg) (hk : Keeps r0 s) : Keeps r0 (takeResult s k x m) := by
  unfold takeResult
  repeat' (first | with_reducible exact hk | with_reducible exact keeps_refl _ | exact trivial | exact (fun u => keeps_refl u) | with_reducible apply keeps_collWrite | with_reducible apply keeps_setCslot | with_reducible apply keeps_collFailOwn | with_reducible apply keeps_pump | with_reducible apply keeps_endPart | with_reducible apply keeps_ite | with_reducible apply keeps_foldl | intro _ | dsimp only | split | (simp (maxDischargeDepth := 40) only [keeps_collWrite, keeps_setCslot, keeps_collFailOwn, keeps_pump, keeps_endPart, keeps_ite, keeps_mk, keeps_foldl, keeps_refl, hk]; done))

theorem keeps_applyMsg (r0 : State) (s : State) (k kind : Nat) (m : CollMsg) (hk : Keeps r0 s) : Keeps r0 (applyMsg s k kind m) := by
  unfold applyMsg
  (repeat' split) <;> simp (maxDischargeDepth := 40) only [keeps_setCslot, keeps_bumpColl, keeps_collFail, keeps_collFailOwn, keeps_collSettle, keeps_pump, keeps_trySmall, keeps_takeContrib, keeps_takeResult, hk]

theorem keeps_holdEarly (r0 : State) (s : State) (kind : Nat) (m : CollMsg) (hk : Keeps r0 s) : Keeps r0 (holdEarly s kind m) := by
  unfold holdEarly
  (repeat' split) <;> simp (maxDischargeDepth := 40) only [keeps_raise, keeps_bumpColl, keeps_mk, hk]

theorem keeps_applyEarly (r0 : State) (s : State) (k : Nat) (x : CSlot) (hk : Keeps r0 s) : Keeps r0 (applyEarly s k x) := by
  unfold applyEarly
  repeat' (first | with_reducible exact hk | with_reducible exact keeps_refl _ | exact trivial | exact (fun u => keeps_refl u) | with_reducible apply keeps_applyMsg | with_reducible apply keeps_ite | with_reducible apply keeps_foldl | intro _ | dsimp only | split | (simp (maxDischargeDepth := 40) only [keeps_mk, hk]; done))

theorem keeps_takeInbox (r0 : State) (s : State) (kind : Nat) (m : CollMsg) (hk : Keeps r0 s) : Keeps r0 (takeInbox s kind m) := by
  unfold takeInbox
  repeat' (first | with_reducible exact hk | with_reducible exact keeps_refl _ | exact trivial | exact (fun u => keeps_refl u) | with_reducible apply keeps_ite | with_reducible apply keeps_foldl | intro _ | dsimp only | split | (simp (maxDischargeDepth := 40) only [keeps_mk, hk]; done))

theorem keeps_placeMsg (r0 : State) (kind : Nat) (m : CollMsg) (s : State) (hk : Keeps r0 s) : Keeps r0 (placeMsg kind m s) := by
  unfold placeMsg
  (repeat' split) <;> simp (maxDischargeDepth := 40) only [keeps_bumpColl, keeps_applyMsg, keeps_holdEarly, hk]

theorem keeps_collMsg (r0 : State) (kind : Nat) (m : CollMsg) (s0 : State) (hk : Keeps r0 s0) : Keeps r0 (collMsg kind m s0) := by
  unfold collMsg
  repeat' (first | with_reducible exact hk | with_reducible exact keeps_refl _ | exact trivial | exact (fun u => keeps_refl u) | with_reducible apply keeps_collTry | with_reducible apply keeps_takeInbox | with_reducible apply keeps_placeMsg | with_reducible apply keeps_ite | with_reducible apply keeps_foldl | intro _ | dsimp only | split | (simp (maxDischargeDepth := 40) only [keeps_takeInbox, keeps_mk, keeps_refl, hk]; done))

theorem keeps_execContrib (m : CollMsg) (s : State) (t : State) (e : execContrib m s = .next t) : Keeps s t := by
  have hk : Keeps s s := keeps_refl _
  simp only [execContrib, Host.Outcome.next.injEq] at e
  subst e
  simp (maxDischargeDepth := 40) only [keeps_collMsg, keeps_refl]

theorem keeps_execResult (m : CollMsg) (s : State) (t : State) (e : execResult m s = .next t) : Keeps s t := by
  have hk : Keeps s s := keeps_refl _
  simp only [execResult, Host.Outcome.next.injEq] at e
  subst e
  simp (maxDischargeDepth := 40) only [keeps_collMsg, keeps_refl]

theorem keeps_execSmall (m : CollMsg) (s : State) (t : State) (e : execSmall m s = .next t) : Keeps s t := by
  have hk : Keeps s s := keeps_refl _
  simp only [execSmall, Host.Outcome.next.injEq] at e
  subst e
  simp (maxDischargeDepth := 40) only [keeps_collMsg, keeps_refl]

theorem keeps_execGrant (m : CollMsg) (s : State) (t : State) (e : execGrant m s = .next t) : Keeps s t := by
  have hk : Keeps s s := keeps_refl _
  simp only [execGrant, Host.Outcome.next.injEq] at e
  subst e
  simp (maxDischargeDepth := 40) only [keeps_collMsg, keeps_refl]

theorem keeps_execConfirm (m : CollMsg) (s : State) (t : State) (e : execConfirm m s = .next t) : Keeps s t := by
  have hk : Keeps s s := keeps_refl _
  simp only [execConfirm, Host.Outcome.next.injEq] at e
  subst e
  simp (maxDischargeDepth := 40) only [keeps_collMsg, keeps_refl]

theorem keeps_execSettle (m : CollMsg) (s : State) (t : State) (e : execSettle m s = .next t) : Keeps s t := by
  have hk : Keeps s s := keeps_refl _
  simp only [execSettle, Host.Outcome.next.injEq] at e
  subst e
  simp (maxDischargeDepth := 40) only [keeps_collMsg, keeps_refl]

theorem keeps_execPoison (m : CollMsg) (s : State) (t : State) (e : execPoison m s = .next t) : Keeps s t := by
  have hk : Keeps s s := keeps_refl _
  simp only [execPoison, Host.Outcome.next.injEq] at e
  subst e
  simp (maxDischargeDepth := 40) only [keeps_collMsg, keeps_refl]

theorem keeps_collNak (r0 : State) (s : State) (tag : Nat) (hk : Keeps r0 s) : Keeps r0 (collNak s tag) := by
  unfold collNak
  repeat' (first | with_reducible exact hk | with_reducible exact keeps_refl _ | exact trivial | exact (fun u => keeps_refl u) | with_reducible apply keeps_collFailOwn | with_reducible apply keeps_ite | with_reducible apply keeps_foldl | intro _ | dsimp only | split | (simp (maxDischargeDepth := 40) only [keeps_collFailOwn, keeps_ite, keeps_mk, keeps_foldl, keeps_refl, hk]; done))

theorem keeps_copyOwn (r0 : State) (s : State) (k : Nat) (hk : Keeps r0 s) : Keeps r0 (copyOwn s k) := by
  unfold copyOwn
  repeat' (first | with_reducible exact hk | with_reducible exact keeps_refl _ | exact trivial | exact (fun u => keeps_refl u) | with_reducible apply keeps_collRead | with_reducible apply keeps_collWrite | with_reducible apply keeps_modCslot | with_reducible apply keeps_bumpColl | with_reducible apply keeps_collFailOwn | with_reducible apply keeps_writeList | with_reducible apply keeps_endPart | with_reducible apply keeps_ite | with_reducible apply keeps_foldl | intro _ | dsimp only | split | (simp (maxDischargeDepth := 40) only [keeps_collRead, keeps_collWrite, keeps_modCslot, keeps_bumpColl, keeps_collFailOwn, keeps_writeList, keeps_endPart, keeps_ite, keeps_mk, keeps_foldl, keeps_refl, hk]; done))

theorem keeps_sendGrants (r0 : State) (s : State) (k : Nat) (x : CSlot) (hk : Keeps r0 s) : Keeps r0 (sendGrants s k x) := by
  unfold sendGrants
  repeat' (first | with_reducible exact hk | with_reducible exact keeps_refl _ | exact trivial | exact (fun u => keeps_refl u) | with_reducible apply keeps_sendColl | with_reducible apply keeps_ite | with_reducible apply keeps_foldl | intro _ | dsimp only | split | (simp (maxDischargeDepth := 40) only [keeps_sendColl, keeps_ite, keeps_mk, keeps_foldl, keeps_refl, hk]; done))

theorem keeps_sendSmalls (r0 : State) (s : State) (k : Nat) (x : CSlot) (hk : Keeps r0 s) : Keeps r0 (sendSmalls s k x) := by
  unfold sendSmalls
  repeat' (first | with_reducible exact hk | with_reducible exact keeps_refl _ | exact trivial | exact (fun u => keeps_refl u) | with_reducible apply keeps_collRead | with_reducible apply keeps_setCslot | with_reducible apply keeps_sendColl | with_reducible apply keeps_collFailOwn | with_reducible apply keeps_trySmall | with_reducible apply keeps_ite | with_reducible apply keeps_foldl | intro _ | dsimp only | split | (simp (maxDischargeDepth := 40) only [keeps_collRead, keeps_setCslot, keeps_sendColl, keeps_collFailOwn, keeps_trySmall, keeps_ite, keeps_mk, keeps_foldl, keeps_refl, hk]; done))

theorem keeps_takePost (r0 : State) (s : State) (k p : Nat) (d : BitVec 512) (hk : Keeps r0 s) : Keeps r0 (takePost s k p d) := by
  unfold takePost
  repeat' (first | with_reducible exact hk | with_reducible exact keeps_refl _ | exact trivial | exact (fun u => keeps_refl u) | with_reducible apply keeps_raise | with_reducible apply keeps_setCslot | with_reducible apply keeps_bumpColl | with_reducible apply keeps_failCounters | with_reducible apply keeps_collFailOwn | with_reducible apply keeps_pump | with_reducible apply keeps_applyEarly | with_reducible apply keeps_copyOwn | with_reducible apply keeps_sendGrants | with_reducible apply keeps_sendSmalls | with_reducible apply keeps_ite | with_reducible apply keeps_foldl | intro _ | dsimp only | split | (simp (maxDischargeDepth := 40) only [keeps_setCslot, keeps_bumpColl, keeps_pump, keeps_copyOwn, keeps_sendGrants, keeps_sendSmalls, keeps_mk, hk]; done))

theorem keeps_execPostTake (s : State) (t : State) (e : execPostTake s = .next t) : Keeps s t := by
  have hk : Keeps s s := keeps_refl _
  simp only [execPostTake, Host.Outcome.next.injEq] at e
  subst e
  repeat' (first | with_reducible exact hk | with_reducible exact keeps_refl _ | exact trivial | exact (fun u => keeps_refl u) | with_reducible apply keeps_collTry | with_reducible apply keeps_collRead | with_reducible apply keeps_takePost | with_reducible apply resKeeps_ite | with_reducible apply resKeeps_done | with_reducible apply resKeeps_hold | with_reducible apply resKeeps_jump | with_reducible apply resKeeps_faultIn | with_reducible apply keeps_ite | with_reducible apply keeps_foldl | intro _ | dsimp only | split | (simp (maxDischargeDepth := 40) only [keeps_collTry, keeps_collRead, keeps_takePost, keeps_ite, keeps_mk, keeps_foldl, keeps_refl, hk, resKeeps_ite, resKeeps_done, resKeeps_hold, resKeeps_jump, resKeeps_faultIn, resKeeps_block, resKeeps_fault]; done))

theorem keeps_execCollTimeout (slot : Nat) (s : State) (t : State) (e : execCollTimeout slot s = .next t) : Keeps s t := by
  have hk : Keeps s s := keeps_refl _
  simp only [execCollTimeout, Host.Outcome.next.injEq] at e
  subst e
  repeat' (first | with_reducible exact hk | with_reducible exact keeps_refl _ | exact trivial | exact (fun u => keeps_refl u) | with_reducible apply keeps_collTry | with_reducible apply keeps_collFailOwn | with_reducible apply resKeeps_ite | with_reducible apply resKeeps_done | with_reducible apply resKeeps_hold | with_reducible apply resKeeps_jump | with_reducible apply resKeeps_faultIn | with_reducible apply keeps_ite | with_reducible apply keeps_foldl | intro _ | dsimp only | split | (simp (maxDischargeDepth := 40) only [keeps_collTry, keeps_collFailOwn, keeps_ite, keeps_mk, keeps_foldl, keeps_refl, hk, resKeeps_ite, resKeeps_done, resKeeps_hold, resKeeps_jump, resKeeps_faultIn, resKeeps_block, resKeeps_fault]; done))

theorem keeps_execSettleLost (slot : Nat) (s : State) (t : State) (e : execSettleLost slot s = .next t) : Keeps s t := by
  have hk : Keeps s s := keeps_refl _
  simp only [execSettleLost, Host.Outcome.next.injEq] at e
  subst e
  repeat' (first | with_reducible exact hk | with_reducible exact keeps_refl _ | exact trivial | exact (fun u => keeps_refl u) | with_reducible apply keeps_raise | with_reducible apply keeps_collTry | with_reducible apply keeps_setCslot | with_reducible apply keeps_bumpColl | with_reducible apply keeps_collGc | with_reducible apply keeps_putCollRecord | with_reducible apply keeps_faultGc | with_reducible apply resKeeps_ite | with_reducible apply resKeeps_done | with_reducible apply resKeeps_hold | with_reducible apply resKeeps_jump | with_reducible apply resKeeps_faultIn | with_reducible apply keeps_ite | with_reducible apply keeps_foldl | intro _ | dsimp only | split | (simp (maxDischargeDepth := 40) only [keeps_raise, keeps_collTry, keeps_setCslot, keeps_bumpColl, keeps_collGc, keeps_putCollRecord, keeps_faultGc, keeps_ite, keeps_mk, keeps_foldl, keeps_refl, hk, resKeeps_ite, resKeeps_done, resKeeps_hold, resKeeps_jump, resKeeps_faultIn, resKeeps_block, resKeeps_fault]; done))

theorem keeps_readEngRow (s0 : State) (b : Nat) (r : EngRead) (jr : Nat × Nat) (h : Keeps s0 r.s) :
    Keeps s0 (readEngRow b r jr).1.s := keeps_slotARead _ _ _ _ _ h

theorem keeps_readEngRows (s0 : State) (b : Nat) (r : EngRead) (rows : List (Nat × Nat)) (h : Keeps s0 r.s) :
    Keeps s0 (readEngRows b r rows).1.s := by
  unfold readEngRows
  have (acc : EngRead × List Byte) (ha : Keeps s0 acc.1.s) : Keeps s0 (rows.foldl (fun acc jr =>
      let o := readEngRow b acc.1 jr
      (o.1, acc.2 ++ o.2)) acc).1.s := by
    induction rows generalizing acc with
    | nil => exact ha
    | cons a r ih => exact ih _ (keeps_readEngRow _ _ _ _ ha)
  exact this _ h

theorem keeps_loadPanel (s0 : State) (b : Nat) (r : EngRead) (k : Counts) (p : PanelAt) (h : Keeps s0 r.s) :
    Keeps s0 (loadPanel b r k p).1.s := keeps_readEngRows _ _ _ _ (keeps_readEngRows _ _ _ _ h)

theorem keeps_initTile (s0 : State) (b : Nat) (d : BitVec 512) (i : Nat) (r : EngRead) (h : Keeps s0 r.s) :
    Keeps s0 (initTile b d i r).1.s := by
  unfold initTile
  simp only
  split
  · exact keeps_readEngRows _ _ _ _ h
  · exact h

theorem keeps_writeEngRow (r0 : State) (b : Nat) (s : State) (jr : Nat × Nat) (bs : List Byte) (hk : Keeps r0 s) : Keeps r0 (writeEngRow b s jr bs) := by
  unfold writeEngRow
  simp (maxDischargeDepth := 40) only [keeps_slotAWrite, hk]

theorem keeps_writeEngRows (r0 : State) (b : Nat) (s : State) (rows : List (Nat × Nat)) (bs : List Byte) (hk : Keeps r0 s) : Keeps r0 (writeEngRows b s rows bs) := by
  unfold writeEngRows
  repeat' (first | with_reducible exact hk | with_reducible exact keeps_refl _ | exact trivial | exact (fun u => keeps_refl u) | with_reducible apply keeps_writeEngRow | with_reducible apply keeps_ite | with_reducible apply keeps_foldl | intro _ | dsimp only | split | (simp (maxDischargeDepth := 40) only [keeps_writeEngRow, keeps_ite, keeps_mk, keeps_foldl, keeps_refl, hk]; done))

theorem keeps_storeTile (r0 : State) (b : Nat) (d : BitVec 512) (mode i : Nat) (g : StoreSt) (s : State) (t : List (List Word)) (hk : Keeps r0 s) : Keeps r0 (storeTile b d mode i g s t).1 := by
  unfold storeTile
  simp (maxDischargeDepth := 40) only [keeps_writeEngRows, keeps_ite, hk]

theorem keeps_runTile (s0 : State) (b : Nat) (d : BitVec 512) (x : EngRun) (i : Nat) (h : Keeps s0 x.r.s) :
    Keeps s0 (runTile b d x i).r.s := by
  have ha := keeps_loadPanel s0 b x.r x.load (panelA d i) h
  have hb := keeps_initTile s0 b d i _ (keeps_loadPanel s0 b _ (loadPanel b x.r x.load (panelA d i)).2.1 (panelB d i) ha)
  have hr := keeps_readEngRows s0 b x.r (streamRows (eALeaf d) (eALeaves d) (eARow d) 256) h
  have hs := keeps_readEngRows s0 b _ (streamRows (eBLeaf d) (eBLeaves d) (eBRow d) 256) hr
  unfold runTile
  dsimp only
  split
  · with_reducible exact hb
  · dsimp only
    split
    · with_reducible exact hr
    · with_reducible exact hs

theorem keeps_runEngine (s0 : State) (s : State) (b : Nat) (d : BitVec 512) (h : Keeps s0 s) : Keeps s0 (runEngine s b d).r.s :=
  keeps_foldlOf (fun x : EngRun => x.r.s) _ _ _ _ (fun _ _ => keeps_runTile _ _ _ _ _ (keeps_refl _)) h

theorem keeps_storeTiles (s0 : State) (s : State) (b : Nat) (d : BitVec 512) (x : Word) (ts : List (Nat × List (List Word)))
    (h : Keeps s0 s) : Keeps s0 (storeTiles s b d x ts).1 :=
  keeps_foldlOf Prod.fst _ _ _ _ (fun _ _ => keeps_storeTile _ _ _ _ _ _ _ _ (keeps_refl _)) h

theorem keeps_putRecord (r0 : State) (s : State) (b : Nat) (q : EDesc) (record : Nat) (hk : Keeps r0 s) : Keeps r0 (putRecord s b q record) := by
  unfold putRecord
  simp (maxDischargeDepth := 40) only [keeps_modEng, keeps_slotAWrite, keeps_ite, hk]

theorem keeps_advanceCount (r0 : State) (s : State) (b : Nat) (q : EDesc) (hk : Keeps r0 s) : Keeps r0 (advanceCount s b q) := by
  unfold advanceCount
  simp (maxDischargeDepth := 40) only [keeps_modEng, keeps_lcInc, keeps_ite, hk]

theorem keeps_postError (r0 : State) (s : State) (l post fpc c : Nat) (poison : Bool) (hk : Keeps r0 s) : Keeps r0 (postError s l post fpc c poison) := by
  unfold postError
  simp (maxDischargeDepth := 40) only [keeps_modLeaf, hk]

theorem keeps_bumpEng (r0 : State) (s : State) (b k : Nat) (hk : Keeps r0 s) : Keeps r0 (bumpEng s b k) := by
  unfold bumpEng
  simp (maxDischargeDepth := 40) only [keeps_modEng, hk]

theorem keeps_engineAsk (r0 : State) (s : State) (b : Nat) (write : Bool) (rows : Nat → List Nat) (hk : Keeps r0 s) : Keeps r0 (engineAsk s b write rows).2 := by
  unfold engineAsk
  repeat' (first | with_reducible exact hk | with_reducible exact keeps_refl _ | exact trivial | exact (fun u => keeps_refl u) | with_reducible apply keeps_slotAGrant | with_reducible apply keeps_slotALose | with_reducible apply keeps_ite | with_reducible apply keeps_foldl | intro _ | dsimp only | split | (simp (maxDischargeDepth := 40) only [keeps_slotAGrant, keeps_slotALose, keeps_ite, keeps_mk, keeps_foldl, keeps_refl, hk]; done))

theorem keeps_releaseOperands (r0 : State) (s : State) (b : Nat) (q : EDesc) (hk : Keeps r0 s) : Keeps r0 (releaseOperands s b q) := by
  unfold releaseOperands
  repeat' (first | with_reducible exact hk | with_reducible exact keeps_refl _ | exact trivial | exact (fun u => keeps_refl u) | with_reducible apply keeps_modLeaf | with_reducible apply keeps_ite | with_reducible apply keeps_foldl | intro _ | dsimp only | split | (simp (maxDischargeDepth := 40) only [keeps_modLeaf, keeps_ite, keeps_mk, keeps_foldl, keeps_refl, hk]; done))

theorem keeps_execEngineOpStart (b : Nat) (s : State) (t : State) (e : execEngineOpStart b s = .next t) : Keeps s t := by
  have hk : Keeps s s := keeps_refl _
  simp only [execEngineOpStart, Host.Outcome.next.injEq] at e
  subst e
  split
  · rename_i q _ _
    have ha := keeps_engineAsk s s b false (readRows q.bits) hk
    have hr := keeps_releaseOperands s _ b q (keeps_runEngine s _ b q.bits ha)
    with_reducible apply keeps_ite
    · with_reducible apply keeps_ite
      · with_reducible apply keeps_ite
        · with_reducible exact keeps_postError _ _ _ _ _ _ _ (keeps_modEng _ _ _ _ hr)
        · with_reducible exact keeps_modEng _ _ _ _ hr
      · with_reducible exact ha
    · with_reducible exact hk
  · with_reducible exact hk

theorem keeps_releaseResult (r0 : State) (s : State) (b : Nat) (q : EDesc) (hk : Keeps r0 s) : Keeps r0 (releaseResult s b q) := by
  unfold releaseResult
  repeat' (first | with_reducible exact hk | with_reducible exact keeps_refl _ | exact trivial | exact (fun u => keeps_refl u) | with_reducible apply keeps_modLeaf | with_reducible apply keeps_ite | with_reducible apply keeps_foldl | intro _ | dsimp only | split | (simp (maxDischargeDepth := 40) only [keeps_modLeaf, keeps_ite, keeps_mk, keeps_foldl, keeps_refl, hk]; done))

theorem keeps_finishEngine (r0 : State) (s : State) (b : Nat) (q : EDesc) (x : ERun) (g : StoreSt) (hk : Keeps r0 s) : Keeps r0 (finishEngine s b q x g) := by
  unfold finishEngine
  simp (maxDischargeDepth := 40) only [keeps_modEng, keeps_putRecord, keeps_advanceCount, keeps_bumpEng, keeps_releaseResult, keeps_ite, hk]

theorem keeps_execEngineOpComplete (b : Nat) (s : State) (t : State) (e : execEngineOpComplete b s = .next t) : Keeps s t := by
  have hk : Keeps s s := keeps_refl _
  simp only [execEngineOpComplete, Host.Outcome.next.injEq] at e
  subst e
  (repeat' split) <;> simp (maxDischargeDepth := 40) only [keeps_storeTiles, keeps_engineAsk, keeps_finishEngine, keeps_refl]

theorem keeps_execEngineRefusedAtHead (b : Nat) (s : State) (t : State) (e : execEngineRefusedAtHead b s = .next t) : Keeps s t := by
  have hk : Keeps s s := keeps_refl _
  simp only [execEngineRefusedAtHead, Host.Outcome.next.injEq] at e
  subst e
  (repeat' split) <;> simp (maxDischargeDepth := 40) only [keeps_modEng, keeps_raise, keeps_putRecord, keeps_advanceCount, keeps_bumpEng, keeps_engineAsk, keeps_refl]

theorem keeps_postAccepted (r0 : State) (s : State) (p : Poster) (hk : Keeps r0 s) : Keeps r0 (postAccepted s p) := by
  unfold postAccepted
  (repeat' split) <;> simp (maxDischargeDepth := 40) only [keeps_modLeaf, hk]

theorem keeps_enterPost (r0 : State) (s : State) (c : Nat) (d : DDesc) (u : State) (e : enterPost s c d = some u) (hk : Keeps r0 s) :
    Keeps r0 u := by
  have h : ∀ y, Keeps r0 (postAccepted (setCol s c y) d.poster) := fun y => keeps_postAccepted _ _ _ (keeps_setCol _ _ _ _ hk)
  unfold enterPost at e
  simp only at e
  split at e
  · cases e
  · injection e with e
    subst e
    split
    · exact keeps_modLeaf _ _ _ _ (keeps_bumpCol _ _ _ _ _ (h _))
    · split
      · exact h _
      · exact keeps_addSb _ _ _ _ (h _)

theorem keeps_execDmaDescriptorAccept (c : Nat) (s : State) (t : State) (e : execDmaDescriptorAccept c s = .next t) : Keeps s t := by
  simp only [execDmaDescriptorAccept, Host.Outcome.next.injEq] at e
  subst e
  split
  · rename_i d _
    split
    · cases h : enterPost s c d with
      | none => exact keeps_refl s
      | some u => exact keeps_enterPost _ _ _ _ _ h (keeps_refl s)
    · exact keeps_refl s
  · exact keeps_refl s

theorem keeps_execDpostRequest (r : Req) (s : State) (t : State) (e : execDpostRequest r s = .next t) : Keeps s t := by
  have ht : Keeps s (takeMsg s 6 r) := keeps_takeMsg _ _ _ _ (keeps_refl s)
  simp only [execDpostRequest, Host.Outcome.next.injEq] at e
  subst e
  (repeat' split) <;>
    first
    | exact keeps_keepMsg _ _ _ _ (keeps_refl s)
    | exact keeps_refuse _ _ _ _ ht
    | exact keeps_respond _ _ _ _ _ _ (keeps_modCol _ _ _ _ (keeps_enterPost _ _ _ _ _ ‹_› ht))

theorem keeps_modDescs (r0 : State) (s : State) (c dseq : Nat) (f : DDesc → DDesc) (hk : Keeps r0 s) : Keeps r0 (modDescs s c dseq f) := by
  unfold modDescs
  simp (maxDischargeDepth := 40) only [keeps_modCol, hk]

theorem keeps_refuseElem (r0 : State) (s : State) (c dseq e code : Nat) (hk : Keeps r0 s) : Keeps r0 (refuseElem s c dseq e code) := by
  unfold refuseElem
  (repeat' split) <;> simp (maxDischargeDepth := 40) only [keeps_bumpCol, keeps_modDescs, hk]

theorem keeps_nextElem (r0 : State) (s : State) (c dseq : Nat) (hk : Keeps r0 s) : Keeps r0 (nextElem s c dseq) := by
  unfold nextElem
  simp (maxDischargeDepth := 40) only [keeps_modCol, hk]

theorem keeps_landElems (r0 : State) (s : State) (c : Nat) (dseq : Nat) (hk : Keeps r0 s) : Keeps r0 (landElems s c dseq) := by
  unfold landElems
  split
  · exact hk
  · refine keeps_modDescs _ _ _ _ _ (keeps_foldlOf Prod.fst _ _ _ _ (fun r h => ?_) hk)
    dsimp only
    (repeat' split) <;>
      first
      | exact keeps_refl _
      | exact keeps_slotAWrite _ _ _ _ _ _ (keeps_slotAAsk _ _ _ _ _ _ (keeps_refl _))
      | exact keeps_slotAAsk _ _ _ _ _ _ (keeps_refl _)

theorem keeps_advanceElem (r0 : State) (s : State) (c : Nat) (d : DDesc) (n : Nat) (hk : Keeps r0 s) : Keeps r0 (advanceElem s c d n) := by
  unfold advanceElem
  simp (maxDischargeDepth := 40) only [keeps_modDescs, keeps_nextElem, keeps_landElems, keeps_ite, hk]

theorem keeps_sourceError (r0 : State) (s : State) (c dseq : Nat) (par : Bool) (hk : Keeps r0 s) : Keeps r0 (sourceError s c dseq par) := by
  unfold sourceError
  simp (maxDischargeDepth := 40) only [keeps_modDescs, hk]

theorem keeps_beginElem (r0 : State) (s : State) (c : Nat) (d : DDesc) (hk : Keeps r0 s) : Keeps r0 (beginElem s c d) := by
  unfold beginElem
  repeat' (first | with_reducible exact hk | with_reducible exact keeps_refl _ | exact trivial | exact (fun u => keeps_refl u) | with_reducible apply keeps_slotAAsk | with_reducible apply keeps_slotARead | with_reducible apply keeps_modDescs | with_reducible apply keeps_refuseElem | with_reducible apply keeps_nextElem | with_reducible apply keeps_landElems | with_reducible apply keeps_sourceError | with_reducible apply keeps_ite | with_reducible apply keeps_foldl | intro _ | dsimp only | split | (simp (maxDischargeDepth := 40) only [keeps_slotAAsk, keeps_slotARead, keeps_modDescs, keeps_refuseElem, keeps_nextElem, keeps_landElems, keeps_sourceError, keeps_ite, keeps_mk, keeps_foldl, keeps_refl, hk]; done))

theorem keeps_launchLine (r0 : State) (s : State) (c : Nat) (d : DDesc) (co : Nat) (hk : Keeps r0 s) : Keeps r0 (launchLine s c d co) := by
  unfold launchLine
  (repeat' split) <;> simp (maxDischargeDepth := 40) only [keeps_modCol, keeps_slotAAsk, keeps_slotARead, keeps_emptySlot, keeps_modDescs, keeps_advanceElem, keeps_sourceError, keeps_ite, hk]

theorem keeps_launchPiece (r0 : State) (s : State) (c : Nat) (d : DDesc) (hk : Keeps r0 s) : Keeps r0 (launchPiece s c d) := by
  unfold launchPiece
  (repeat' split) <;> simp (maxDischargeDepth := 40) only [keeps_modCol, keeps_slotAAsk, keeps_slotARead, keeps_launch, keeps_modDescs, keeps_advanceElem, keeps_sourceError, keeps_ite, hk]

theorem keeps_execLineLaunch (c : Nat) (s : State) (t : State) (e : execLineLaunch c s = .next t) : Keeps s t := by
  have hk : Keeps s s := keeps_refl _
  simp only [execLineLaunch, Host.Outcome.next.injEq] at e
  subst e
  (repeat' split) <;> simp (maxDischargeDepth := 40) only [keeps_beginElem, keeps_launchLine, keeps_launchPiece, keeps_refl]

theorem keeps_completeRead (r0 : State) (s : State) (c : Nat) (k : LineOp) (check : LineCheck) (hk : Keeps r0 s) : Keeps r0 (completeRead s c k check) := by
  unfold completeRead
  (repeat' split) <;> simp (maxDischargeDepth := 40) only [keeps_slotAWrite, keeps_lineFetch, keeps_modDescs, hk]

theorem keeps_lineAsk (r0 : State) (s : State) (c : Nat) (k : LineOp) (hk : Keeps r0 s) : Keeps r0 (lineAsk s c k).2 := by
  unfold lineAsk
  (repeat' split) <;> simp (maxDischargeDepth := 40) only [keeps_slotAAsk, hk]

theorem keeps_completeWrite (r0 : State) (s : State) (c : Nat) (k : LineOp) (check : LineCheck) (hk : Keeps r0 s) : Keeps r0 (completeWrite s c k check) := by
  unfold completeWrite
  (repeat' split) <;> simp (maxDischargeDepth := 40) only [keeps_lineWrite, keeps_gcAdd, keeps_modDescs, hk]

theorem keeps_execLineComplete (c : Nat) (check : LineCheck) (s : State) (t : State) (e : execLineComplete c check s = .next t) : Keeps s t := by
  have hk : Keeps s s := keeps_refl _
  simp only [execLineComplete, Host.Outcome.next.injEq] at e
  subst e
  (repeat' split) <;> simp (maxDischargeDepth := 40) only [keeps_modCol, keeps_completeRead, keeps_lineAsk, keeps_completeWrite, keeps_refl]

theorem keeps_putDmaRecord (r0 : State) (s : State) (c : Nat) (d : DDesc) (result : Nat) (hk : Keeps r0 s) : Keeps r0 (putDmaRecord s c d result) := by
  unfold putDmaRecord
  simp (maxDischargeDepth := 40) only [keeps_modCol, hk]

theorem keeps_dmaCount (r0 : State) (s : State) (c : Nat) (d : DDesc) (hk : Keeps r0 s) : Keeps r0 (dmaCount s c d) := by
  unfold dmaCount
  (repeat' split) <;> simp (maxDischargeDepth := 40) only [keeps_modCol, keeps_lcInc, hk]

theorem keeps_finishDma (r0 : State) (s : State) (c : Nat) (d : DDesc) (hk : Keeps r0 s) : Keeps r0 (finishDma s c d) := by
  unfold finishDma
  (repeat' split) <;> simp (maxDischargeDepth := 40) only [keeps_modLeaf, keeps_modCol, keeps_postError, keeps_putDmaRecord, keeps_dmaCount, hk]

theorem keeps_landHeld (r0 : State) (s : State) (c : Nat) (hk : Keeps r0 s) : Keeps r0 (landHeld s c) := by
  unfold landHeld
  repeat' (first | with_reducible exact hk | with_reducible exact keeps_refl _ | exact trivial | exact (fun u => keeps_refl u) | with_reducible apply keeps_landElems | with_reducible apply keeps_ite | with_reducible apply keeps_foldl | intro _ | dsimp only | split | (simp (maxDischargeDepth := 40) only [keeps_landElems, keeps_ite, keeps_mk, keeps_foldl, keeps_refl, hk]; done))

theorem keeps_execDmaComplete (c : Nat) (s : State) (t : State) (e : execDmaComplete c s = .next t) : Keeps s t := by
  have hk : Keeps s s := keeps_refl _
  simp only [execDmaComplete, Host.Outcome.next.injEq] at e
  subst e
  (repeat' split) <;> simp (maxDischargeDepth := 40) only [keeps_finishDma, keeps_landHeld, keeps_refl]

theorem keeps_execDmaRefusedAtHead (c : Nat) (s : State) (t : State) (e : execDmaRefusedAtHead c s = .next t) : Keeps s t := by
  have hk : Keeps s s := keeps_refl _
  simp only [execDmaRefusedAtHead, Host.Outcome.next.injEq] at e
  subst e
  (repeat' split) <;> simp (maxDischargeDepth := 40) only [keeps_modCol, keeps_raise, keeps_putDmaRecord, keeps_dmaCount, keeps_refl]

theorem keeps_pieceDone (r0 : State) (s : State) (c : Nat) (p : PieceOp) (nak : Option Nat) (data : List Word) (hk : Keeps r0 s) : Keeps r0 (pieceDone s c p nak data) := by
  unfold pieceDone
  (repeat' split) <;> simp (maxDischargeDepth := 40) only [keeps_modCol, keeps_modDescs, keeps_refuseElem, keeps_landElems, hk]

theorem keeps_execRefresh (c : Nat) (s : State) (t : State) (e : execRefresh c s = .next t) : Keeps s t := by
  have hk : Keeps s s := keeps_refl _
  simp only [execRefresh, Host.Outcome.next.injEq] at e
  subst e
  simp (maxDischargeDepth := 40) only [keeps_setCol, keeps_ite, keeps_refl]

theorem keeps_execPatrolScrub (c : Nat) (check : LineCheck) (s : State) (t : State) (e : execPatrolScrub c check s = .next t) : Keeps s t := by
  have hk : Keeps s s := keeps_refl _
  simp only [execPatrolScrub, Host.Outcome.next.injEq] at e
  subst e
  (repeat' split) <;> simp (maxDischargeDepth := 40) only [keeps_modCol, keeps_bumpCol, keeps_noteRead, keeps_refl]

theorem keeps_execCorrectionWriteBack (c : Nat) (s : State) (t : State) (e : execCorrectionWriteBack c s = .next t) : Keeps s t := by
  have hk : Keeps s s := keeps_refl _
  simp only [execCorrectionWriteBack, Host.Outcome.next.injEq] at e
  subst e
  (repeat' split) <;> simp (maxDischargeDepth := 40) only [keeps_mwrite, keeps_setCol, keeps_refl]

theorem keeps_retireDone (r0 : State) (s : State) (c : Nat) (r : Retire) (hk : Keeps r0 s) : Keeps r0 (retireDone s c r) := by
  unfold retireDone
  simp (maxDischargeDepth := 40) only [keeps_modCol, keeps_raise, keeps_addDefect, hk]

theorem keeps_execRetirementCopy (c : Nat) (s : State) (t : State) (e : execRetirementCopy c s = .next t) : Keeps s t := by
  have hk : Keeps s s := keeps_refl _
  simp only [execRetirementCopy, Host.Outcome.next.injEq] at e
  subst e
  (repeat' split) <;> simp (maxDischargeDepth := 40) only [keeps_mwrite, keeps_modCol, keeps_drawCheck, keeps_noteRead, keeps_setPoison, keeps_retireDone, keeps_refl]

theorem keeps_deliverTimed (r0 : State) (s : State) (l q : Nat) (t : Tok) (c : Nat) (hk : Keeps r0 s) : Keeps r0 (deliverTimed s l q t c) := by
  unfold deliverTimed
  simp (maxDischargeDepth := 40) only [keeps_setLeaf, keeps_raise, keeps_bumpNet, keeps_ite, hk]

theorem keeps_sendSlot (r0 : State) (s : State) (l d p : Nat) (t : Option Tok) (hk : Keeps r0 s) : Keeps r0 (sendSlot s l d p t) := by
  unfold sendSlot
  (repeat' split) <;> simp (maxDischargeDepth := 40) only [keeps_setLeaf, keeps_bumpNet, keeps_ite, hk]

theorem keeps_takeSources (r0 : State) (s : State) (l p c : Nat) (e : BitVec 64) (hk : Keeps r0 s) : Keeps r0 (takeSources s l p c e) := by
  unfold takeSources
  simp (maxDischargeDepth := 40) only [keeps_modLeaf, hk]

theorem keeps_planeCycle (r0 : State) (s : State) (l p c : Nat) (e : BitVec 64) (hk : Keeps r0 s) : Keeps r0 (planeCycle s l p c e) := by
  unfold planeCycle
  repeat' (first | with_reducible exact hk | with_reducible exact keeps_refl _ | exact trivial | exact (fun u => keeps_refl u) | with_reducible apply keeps_modLeaf | with_reducible apply keeps_bumpNet | with_reducible apply keeps_deliverTimed | with_reducible apply keeps_sendSlot | with_reducible apply keeps_takeSources | with_reducible apply keeps_ite | with_reducible apply keeps_foldl | intro _ | dsimp only | split | (simp (maxDischargeDepth := 40) only [keeps_modLeaf, keeps_bumpNet, keeps_deliverTimed, keeps_sendSlot, keeps_takeSources, keeps_ite, keeps_mk, keeps_foldl, keeps_refl, hk]; done))

theorem keeps_performCycle (r0 : State) (s : State) (l : Nat) (hk : Keeps r0 s) : Keeps r0 (performCycle s l) := by
  unfold performCycle
  simp (maxDischargeDepth := 40) only [keeps_modLeaf, keeps_planeCycle, hk]

theorem keeps_execGroupCycleAdvance (l : Nat) (s : State) (t : State) (e : execGroupCycleAdvance l s = .next t) : Keeps s t := by
  have hk : Keeps s s := keeps_refl _
  simp only [execGroupCycleAdvance, Host.Outcome.next.injEq] at e
  subst e
  simp (maxDischargeDepth := 40) only [keeps_performCycle, keeps_ite, keeps_refl]

theorem keeps_slotStarts (r0 : State) (s : State) (l : Nat) (x : Leaf) (hk : Keeps r0 s) : Keeps r0 (slotStarts s l x) := by
  unfold slotStarts
  simp (maxDischargeDepth := 40) only [keeps_setLeaf, hk]

theorem keeps_execSlotComplete (l : Nat) (s : State) (t : State) (e : execSlotComplete l s = .next t) : Keeps s t := by
  have hk : Keeps s s := keeps_refl _
  simp only [execSlotComplete, Host.Outcome.next.injEq] at e
  subst e
  simp (maxDischargeDepth := 40) only [keeps_setLeaf, keeps_slotStarts, keeps_ite, keeps_refl]

theorem keeps_zeroRows (s0 : State) (s : State) (l lo hi : Nat) (h : Keeps s0 s) : Keeps s0 (zeroRows s l lo hi) := by
  unfold zeroRows
  exact keeps_modLeaf _ _ _ _ (keeps_mem _ _ h _ (memWf_zeroRange _ _ _))

theorem keeps_resizeCache (r0 : State) (s : State) (l : Nat) (n : BitVec 2) (hk : Keeps r0 s) : Keeps r0 (resizeCache s l n) := by
  unfold resizeCache
  simp (maxDischargeDepth := 40) only [keeps_modLeaf, keeps_zeroRows, keeps_ite, hk]

theorem keeps_imageStarts (r0 : State) (s : State) (l : Nat) (hk : Keeps r0 s) : Keeps r0 (imageStarts s l) := by
  unfold imageStarts
  simp (maxDischargeDepth := 40) only [keeps_ite, keeps_mk, hk]

theorem keeps_startLeaf (r0 : State) (s0 : State) (l : Nat) (hk : Keeps r0 s0) : Keeps r0 (startLeaf s0 l) := by
  unfold startLeaf
  simp (maxDischargeDepth := 40) only [keeps_modLeaf, keeps_resizeCache, keeps_imageStarts, hk]

theorem keeps_execReadyReport (l : Nat) (s : State) (t : State) (e : execReadyReport l s = .next t) : Keeps s t := by
  have hk : Keeps s s := keeps_refl _
  simp only [execReadyReport, Host.Outcome.next.injEq] at e
  subst e
  simp (maxDischargeDepth := 40) only [keeps_setLeaf, keeps_setGroup, keeps_stopGroup, keeps_ite, keeps_refl]

theorem keeps_execGo (g : Nat) (s : State) (t : State) (e : execGo g s = .next t) : Keeps s t := by
  have hk : Keeps s s := keeps_refl _
  simp only [execGo, Host.Outcome.next.injEq] at e
  subst e
  simp (maxDischargeDepth := 40) only [keeps_setGroup, keeps_ite, keeps_refl]

theorem keeps_goMember (r0 : State) (s : State) (l : Nat) (hk : Keeps r0 s) : Keeps r0 (goMember s l) := by
  unfold goMember
  simp (maxDischargeDepth := 40) only [keeps_slotStarts, keeps_startLeaf, keeps_ite, hk]

theorem keeps_execGoArrival (g : Nat) (s : State) (t : State) (e : execGoArrival g s = .next t) : Keeps s t := by
  have hk : Keeps s s := keeps_refl _
  simp only [execGoArrival, Host.Outcome.next.injEq] at e
  subst e
  repeat' (first | with_reducible exact hk | with_reducible exact keeps_refl _ | exact trivial | exact (fun u => keeps_refl u) | with_reducible apply keeps_setGroup | with_reducible apply keeps_goMember | with_reducible apply resKeeps_ite | with_reducible apply resKeeps_done | with_reducible apply resKeeps_hold | with_reducible apply resKeeps_jump | with_reducible apply resKeeps_faultIn | with_reducible apply keeps_ite | with_reducible apply keeps_foldl | intro _ | dsimp only | split | (simp (maxDischargeDepth := 40) only [keeps_setGroup, keeps_goMember, keeps_ite, keeps_mk, keeps_foldl, keeps_refl, hk, resKeeps_ite, resKeeps_done, resKeeps_hold, resKeeps_jump, resKeeps_faultIn, resKeeps_block, resKeeps_fault]; done))

theorem keeps_execRejoin (l : Nat) (s : State) (t : State) (e : execRejoin l s = .next t) : Keeps s t := by
  have hk : Keeps s s := keeps_refl _
  simp only [execRejoin, Host.Outcome.next.injEq] at e
  subst e
  (repeat' split) <;> simp (maxDischargeDepth := 40) only [keeps_setLeaf, keeps_raise, keeps_bumpNet, keeps_performCycle, keeps_refl]

theorem keeps_countPacket (r0 : State) (s : State) (l : Nat) (p : Canopy) (hk : Keeps r0 s) : Keeps r0 (countPacket s l p) := by
  unfold countPacket
  simp (maxDischargeDepth := 40) only [keeps_lcInc, keeps_ite, hk]

theorem keeps_noteTarget (r0 : State) (s : State) (l : Nat) (p : Canopy) (hk : Keeps r0 s) : Keeps r0 (noteTarget s l p) := by
  unfold noteTarget
  simp (maxDischargeDepth := 40) only [keeps_modLeaf, hk]

theorem keeps_acceptPkt (r0 : State) (s : State) (l : Nat) (p : Canopy) (f : Leaf → Leaf) (hk : Keeps r0 s) : Keeps r0 (acceptPkt s l p f) := by
  unfold acceptPkt
  simp (maxDischargeDepth := 40) only [keeps_modLeaf, keeps_countPacket, keeps_noteTarget, hk]

theorem keeps_spadAt (r0 : State) (s : State) (l : Nat) (p : Canopy) (hk : Keeps r0 s) : Keeps r0 (spadAt s l p) := by
  unfold spadAt
  simp (maxDischargeDepth := 40) only [keeps_modLeaf, keeps_bumpLeaf, keeps_bumpNet, keeps_noteTarget, keeps_ite, hk]

theorem keeps_istoreAt (r0 : State) (s : State) (l : Nat) (p : Canopy) (hk : Keeps r0 s) : Keeps r0 (istoreAt s l p) := by
  unfold istoreAt
  simp (maxDischargeDepth := 40) only [keeps_bumpNet, keeps_acceptPkt, keeps_ite, hk]

theorem keeps_checkSlot (r0 : State) (s : State) (l : Nat) (hk : Keeps r0 s) : Keeps r0 (checkSlot s l) := by
  unfold checkSlot
  simp (maxDischargeDepth := 40) only [keeps_setLeaf, keeps_raise, keeps_bumpNet, keeps_ite, hk]

theorem keeps_switchNextAt (r0 : State) (s : State) (l : Nat) (p : Canopy) (hk : Keeps r0 s) : Keeps r0 (switchNextAt s l p) := by
  unfold switchNextAt
  simp (maxDischargeDepth := 40) only [keeps_setLeaf, keeps_bumpNet, keeps_acceptPkt, keeps_checkSlot, keeps_ite, hk]

theorem keeps_leafRecordAt (r0 : State) (s : State) (l : Nat) (p : Canopy) (hk : Keeps r0 s) : Keeps r0 (leafRecordAt s l p) := by
  unfold leafRecordAt
  simp (maxDischargeDepth := 40) only [keeps_bumpNet, keeps_acceptPkt, keeps_ite, hk]

theorem keeps_report (r0 : State) (s : State) (l seq : Nat) (image : BitVec 16) (hk : Keeps r0 s) : Keeps r0 (report s l seq image) := by
  unfold report
  simp (maxDischargeDepth := 40) only [keeps_raise, keeps_mk, hk]

theorem keeps_noteComplete (r0 : State) (s : State) (l : Nat) (hk : Keeps r0 s) : Keeps r0 (noteComplete s l) := by
  unfold noteComplete
  simp (maxDischargeDepth := 40) only [keeps_mk, hk]

theorem keeps_endAt (r0 : State) (s : State) (l : Nat) (p : Canopy) (hk : Keeps r0 s) : Keeps r0 (endAt s l p) := by
  unfold endAt
  repeat' (first | with_reducible exact hk | with_reducible exact keeps_refl _ | exact trivial | exact (fun u => keeps_refl u) | with_reducible apply keeps_setLeaf | with_reducible apply keeps_modLeaf | with_reducible apply keeps_launch | with_reducible apply keeps_report | with_reducible apply keeps_noteComplete | with_reducible apply keeps_ite | with_reducible apply keeps_foldl | intro _ | dsimp only | split | (simp (maxDischargeDepth := 40) only [keeps_setLeaf, keeps_modLeaf, keeps_launch, keeps_report, keeps_noteComplete, keeps_ite, keeps_mk, keeps_foldl, keeps_refl, hk]; done))

theorem keeps_leafPacket (r0 : State) (s0 : State) (kind : Nat) (p : Canopy) (forced : Bool) (l : Nat) (hk : Keeps r0 s0) : Keeps r0 (leafPacket s0 kind p forced l) := by
  unfold leafPacket
  (repeat' split) <;> simp (maxDischargeDepth := 40) only [keeps_modLeaf, keeps_bumpNet, keeps_lcInc, keeps_spadAt, keeps_istoreAt, keeps_switchNextAt, keeps_leafRecordAt, keeps_endAt, keeps_ite, hk]

theorem keeps_takeBus (r0 : State) (s : State) (leaf : Option Nat) (kind : BitVec 4) (p : Canopy) (hk : Keeps r0 s) : Keeps r0 (takeBus s leaf kind p) := by
  unfold takeBus
  simp (maxDischargeDepth := 40) only [keeps_mk, hk]

theorem keeps_broadcast (r0 : State) (s : State) (kind : BitVec 4) (p : Canopy) (hk : Keeps r0 s) : Keeps r0 (broadcast s kind p) := by
  unfold broadcast
  repeat' (first | with_reducible exact hk | with_reducible exact keeps_refl _ | exact trivial | exact (fun u => keeps_refl u) | with_reducible apply keeps_leafPacket | with_reducible apply keeps_takeBus | with_reducible apply keeps_ite | with_reducible apply keeps_foldl | intro _ | dsimp only | split | (simp (maxDischargeDepth := 40) only [keeps_leafPacket, keeps_takeBus, keeps_ite, keeps_mk, keeps_foldl, keeps_refl, hk]; done))

theorem keeps_execSpad (p : Canopy) (s : State) (t : State) (e : execSpad p s = .next t) : Keeps s t := by
  have hk : Keeps s s := keeps_refl _
  simp only [execSpad, Host.Outcome.next.injEq] at e
  subst e
  simp (maxDischargeDepth := 40) only [keeps_broadcast, keeps_refl]

theorem keeps_execIstore (p : Canopy) (s : State) (t : State) (e : execIstore p s = .next t) : Keeps s t := by
  have hk : Keeps s s := keeps_refl _
  simp only [execIstore, Host.Outcome.next.injEq] at e
  subst e
  simp (maxDischargeDepth := 40) only [keeps_broadcast, keeps_refl]

theorem keeps_execSwitchNext (p : Canopy) (s : State) (t : State) (e : execSwitchNext p s = .next t) : Keeps s t := by
  have hk : Keeps s s := keeps_refl _
  simp only [execSwitchNext, Host.Outcome.next.injEq] at e
  subst e
  simp (maxDischargeDepth := 40) only [keeps_broadcast, keeps_refl]

theorem keeps_execLeafRecord (p : Canopy) (s : State) (t : State) (e : execLeafRecord p s = .next t) : Keeps s t := by
  have hk : Keeps s s := keeps_refl _
  simp only [execLeafRecord, Host.Outcome.next.injEq] at e
  subst e
  simp (maxDischargeDepth := 40) only [keeps_broadcast, keeps_refl]

theorem keeps_execEndPkt (p : Canopy) (s : State) (t : State) (e : execEndPkt p s = .next t) : Keeps s t := by
  have hk : Keeps s s := keeps_refl _
  simp only [execEndPkt, Host.Outcome.next.injEq] at e
  subst e
  (repeat' split) <;> simp (maxDischargeDepth := 40) only [keeps_broadcast, keeps_mk, keeps_refl]

theorem keeps_groupAtHub (r0 : State) (s : State) (p : Canopy) (hk : Keeps r0 s) : Keeps r0 (groupAtHub s p) := by
  unfold groupAtHub
  simp (maxDischargeDepth := 40) only [keeps_setGroup, keeps_raise, keeps_stopGroup, keeps_ite, hk]

theorem keeps_execGroupPkt (p : Canopy) (s : State) (t : State) (e : execGroupPkt p s = .next t) : Keeps s t := by
  have hk : Keeps s s := keeps_refl _
  simp only [execGroupPkt, Host.Outcome.next.injEq] at e
  subst e
  simp (maxDischargeDepth := 40) only [keeps_broadcast, keeps_groupAtHub, keeps_ite, keeps_refl]

theorem keeps_execCanopyRepairPacket (l : Nat) (kind : BitVec 4) (p : Canopy) (s : State) (t : State) (e : execCanopyRepairPacket l kind p s = .next t) : Keeps s t := by
  have hk : Keeps s s := keeps_refl _
  simp only [execCanopyRepairPacket, Host.Outcome.next.injEq] at e
  subst e
  simp (maxDischargeDepth := 40) only [keeps_leafPacket, keeps_takeBus, keeps_ite, keeps_refl]

theorem keeps_failLeaf (r0 : State) (g : GraftLoad) (s : State) (l : Nat) (hk : Keeps r0 s) : Keeps r0 (failLeaf g s l) := by
  unfold failLeaf
  simp (maxDischargeDepth := 40) only [keeps_failUnit, keeps_ite, hk]

theorem keeps_failLoad (r0 : State) (s : State) (g : GraftLoad) (hk : Keeps r0 s) : Keeps r0 (failLoad s g) := by
  unfold failLoad
  simp (maxDischargeDepth := 40) only [keeps_mk, hk]

theorem keeps_execRepairRound (s : State) (t : State) (e : execRepairRound s = .next t) : Keeps s t := by
  simp only [execRepairRound, Host.Outcome.next.injEq] at e
  subst e
  split
  · rename_i g _
    have hf : Keeps s (g.targets.foldl (failLeaf g) s) :=
      keeps_foldl _ _ _ _ (fun u l => keeps_failLeaf _ _ _ _ (keeps_refl u)) (keeps_refl s)
    (repeat' with_reducible apply keeps_ite) <;> first
      | exact keeps_refl s
      | exact keeps_mk _ _ (keeps_refl s) _ _ _ _ _ _ _ _ _ _ _ _ _ _ _ _ _ _ _ rfl rfl rfl rfl
      | exact keeps_mk _ _ hf _ _ _ _ _ _ _ _ _ _ _ _ _ _ _ _ _ _ _ rfl rfl rfl rfl
  · exact keeps_refl s

theorem keeps_execLeafStart (l : Nat) (s : State) (t : State) (e : execLeafStart l s = .next t) : Keeps s t := by
  have hk : Keeps s s := keeps_refl _
  simp only [execLeafStart, Host.Outcome.next.injEq] at e
  subst e
  simp (maxDischargeDepth := 40) only [keeps_setLeaf, keeps_startLeaf, keeps_ite, keeps_refl]

theorem keeps_takeFlow (r0 : State) (s : State) (l p src : Nat) (hk : Keeps r0 s) : Keeps r0 (takeFlow s l p src) := by
  unfold takeFlow
  repeat' (first | with_reducible exact hk | with_reducible exact keeps_refl _ | exact trivial | exact (fun u => keeps_refl u) | with_reducible apply keeps_modLeaf | with_reducible apply keeps_ite | with_reducible apply keeps_foldl | intro _ | dsimp only | split | (simp (maxDischargeDepth := 40) only [keeps_modLeaf, keeps_ite, keeps_mk, keeps_foldl, keeps_refl, hk]; done))

theorem keeps_sendFlow (r0 : State) (s : State) (l p d : Nat) (t : Tok) (hk : Keeps r0 s) : Keeps r0 (sendFlow s l p d t) := by
  unfold sendFlow
  (repeat' split) <;> simp (maxDischargeDepth := 40) only [keeps_setLeaf, keeps_modLeaf, keeps_bumpNet, keeps_ite, hk]

theorem keeps_enterSink (r0 : State) (s : State) (l p i : Nat) (next : Bool) (t : Tok) (hk : Keeps r0 s) : Keeps r0 (enterSink s l p i next t) := by
  unfold enterSink
  simp (maxDischargeDepth := 40) only [keeps_modLeaf, keeps_sendFlow, keeps_ite, hk]

theorem keeps_doMove (r0 : State) (l : Nat) (s : State) (m : FlowMove) (hk : Keeps r0 s) : Keeps r0 (doMove l s m) := by
  unfold doMove
  (repeat' split) <;> simp (maxDischargeDepth := 40) only [keeps_raise, keeps_bumpNet, keeps_takeFlow, keeps_enterSink, hk]

theorem keeps_execFlowTransfer (l : Nat) (s : State) (t : State) (e : execFlowTransfer l s = .next t) : Keeps s t := by
  have hk : Keeps s s := keeps_refl _
  simp only [execFlowTransfer, Host.Outcome.next.injEq] at e
  subst e
  repeat' (first | with_reducible exact hk | with_reducible exact keeps_refl _ | exact trivial | exact (fun u => keeps_refl u) | with_reducible apply keeps_modLeaf | with_reducible apply keeps_doMove | with_reducible apply resKeeps_ite | with_reducible apply resKeeps_done | with_reducible apply resKeeps_hold | with_reducible apply resKeeps_jump | with_reducible apply resKeeps_faultIn | with_reducible apply keeps_ite | with_reducible apply keeps_foldl | intro _ | dsimp only | split | (simp (maxDischargeDepth := 40) only [keeps_modLeaf, keeps_doMove, keeps_ite, keeps_mk, keeps_foldl, keeps_refl, hk, resKeeps_ite, resKeeps_done, resKeeps_hold, resKeeps_jump, resKeeps_faultIn, resKeeps_block, resKeeps_fault]; done))

theorem keeps_execFlowCreditReturn (l sink : Nat) (s : State) (t : State) (e : execFlowCreditReturn l sink s = .next t) : Keeps s t := by
  have hk : Keeps s s := keeps_refl _
  simp only [execFlowCreditReturn, Host.Outcome.next.injEq] at e
  subst e
  (repeat' split) <;> simp (maxDischargeDepth := 40) only [keeps_setLeaf, keeps_modLeaf, keeps_refl]

theorem keeps_execRingMarker (l : Nat) (s : State) (t : State) (e : execRingMarker l s = .next t) : Keeps s t := by
  have hk : Keeps s s := keeps_refl _
  simp only [execRingMarker, Host.Outcome.next.injEq] at e
  subst e
  simp (maxDischargeDepth := 40) only [keeps_setLeaf, keeps_ite, keeps_refl]

theorem keeps_execNextSlotCurrent (l : Nat) (s : State) (t : State) (e : execNextSlotCurrent l s = .next t) : Keeps s t := by
  have hk : Keeps s s := keeps_refl _
  simp only [execNextSlotCurrent, Host.Outcome.next.injEq] at e
  subst e
  simp (maxDischargeDepth := 40) only [keeps_slotStarts, keeps_ite, keeps_refl]

theorem keeps_landRefill (r0 : State) (s : State) (l : Nat) (r : Refill) (hk : Keeps r0 s) : Keeps r0 (landRefill s l r) := by
  unfold landRefill
  simp (maxDischargeDepth := 40) only [keeps_modLeaf, hk]

theorem keeps_landRefills (r0 : State) (s : State) (l : Nat) (hk : Keeps r0 s) : Keeps r0 (landRefills s l) := by
  unfold landRefills
  repeat' (first | with_reducible exact hk | with_reducible exact keeps_refl _ | exact trivial | exact (fun u => keeps_refl u) | with_reducible apply keeps_landRefill | with_reducible apply keeps_ite | with_reducible apply keeps_foldl | intro _ | dsimp only | split | (simp (maxDischargeDepth := 40) only [keeps_landRefill, keeps_ite, keeps_mk, keeps_foldl, keeps_refl, hk]; done))

theorem keeps_refillAsk (r0 : State) (s : State) (l q : Nat) (hk : Keeps r0 s) : Keeps r0 (refillAsk s l q) := by
  unfold refillAsk
  simp (maxDischargeDepth := 40) only [keeps_modLeaf, keeps_slotAAsk, keeps_slotARead, keeps_ite, hk]

theorem keeps_execRefill (l q : Nat) (s : State) (t : State) (e : execRefill l q s = .next t) : Keeps s t := by
  have hk : Keeps s s := keeps_refl _
  simp only [execRefill, Host.Outcome.next.injEq] at e
  subst e
  simp (maxDischargeDepth := 40) only [keeps_landRefills, keeps_refillAsk, keeps_ite, keeps_refl]

theorem keeps_execJoin (l : Nat) (s : State) (t : State) (e : execJoin l s = .next t) : Keeps s t := by
  have hk : Keeps s s := keeps_refl _
  simp only [execJoin, Host.Outcome.next.injEq] at e
  subst e
  (repeat' split) <;> simp (maxDischargeDepth := 40) only [keeps_setLeaf, keeps_setRegion, keeps_refl]

theorem keeps_execLeave (l : Nat) (s : State) (t : State) (e : execLeave l s = .next t) : Keeps s t := by
  have hk : Keeps s s := keeps_refl _
  simp only [execLeave, Host.Outcome.next.injEq] at e
  subst e
  (repeat' split) <;> simp (maxDischargeDepth := 40) only [keeps_setLeaf, keeps_setRegion, keeps_refl]

theorem keeps_execQuiet (l : Nat) (s : State) (t : State) (e : execQuiet l s = .next t) : Keeps s t := by
  have hk : Keeps s s := keeps_refl _
  simp only [execQuiet, Host.Outcome.next.injEq] at e
  subst e
  simp (maxDischargeDepth := 40) only [keeps_setLeaf, keeps_ite, keeps_refl]

theorem keeps_flagAtHub (r0 : State) (s : State) (l : Nat) (quiet : Bool) (f : Region → Region) (hk : Keeps r0 s) : Keeps r0 (flagAtHub s l quiet f) := by
  unfold flagAtHub
  repeat' (first | with_reducible exact hk | with_reducible exact keeps_refl _ | exact trivial | exact (fun u => keeps_refl u) | with_reducible apply keeps_setLeaf | with_reducible apply keeps_setRegion | with_reducible apply keeps_ite | with_reducible apply keeps_foldl | intro _ | dsimp only | split | (simp (maxDischargeDepth := 40) only [keeps_setLeaf, keeps_setRegion, keeps_ite, keeps_mk, keeps_foldl, keeps_refl, hk]; done))

theorem keeps_execQuietAtHub (l : Nat) (s : State) (t : State) (e : execQuietAtHub l s = .next t) : Keeps s t := by
  have hk : Keeps s s := keeps_refl _
  simp only [execQuietAtHub, Host.Outcome.next.injEq] at e
  subst e
  simp (maxDischargeDepth := 40) only [keeps_flagAtHub, keeps_refl]

theorem keeps_execClearAtHub (l : Nat) (s : State) (t : State) (e : execClearAtHub l s = .next t) : Keeps s t := by
  have hk : Keeps s s := keeps_refl _
  simp only [execClearAtHub, Host.Outcome.next.injEq] at e
  subst e
  simp (maxDischargeDepth := 40) only [keeps_flagAtHub, keeps_refl]

theorem keeps_execConfirmationWindowEnd (g : Nat) (s : State) (t : State) (e : execConfirmationWindowEnd g s = .next t) : Keeps s t := by
  have hk : Keeps s s := keeps_refl _
  simp only [execConfirmationWindowEnd, Host.Outcome.next.injEq] at e
  subst e
  repeat' (first | with_reducible exact hk | with_reducible exact keeps_refl _ | exact trivial | exact (fun u => keeps_refl u) | with_reducible apply keeps_modLeaf | with_reducible apply keeps_setRegion | with_reducible apply resKeeps_ite | with_reducible apply resKeeps_done | with_reducible apply resKeeps_hold | with_reducible apply resKeeps_jump | with_reducible apply resKeeps_faultIn | with_reducible apply keeps_ite | with_reducible apply keeps_foldl | intro _ | dsimp only | split | (simp (maxDischargeDepth := 40) only [keeps_modLeaf, keeps_setRegion, keeps_ite, keeps_mk, keeps_foldl, keeps_refl, hk, resKeeps_ite, resKeeps_done, resKeeps_hold, resKeeps_jump, resKeeps_faultIn, resKeeps_block, resKeeps_fault]; done))

theorem keeps_execSpill (l : Nat) (s : State) (t : State) (e : execSpill l s = .next t) : Keeps s t := by
  have hk : Keeps s s := keeps_refl _
  simp only [execSpill, Host.Outcome.next.injEq] at e
  subst e
  (repeat' split) <;> simp (maxDischargeDepth := 40) only [keeps_setLeaf, keeps_setRegion, keeps_refl]

theorem keeps_execAnswer (g : Nat) (s : State) (t : State) (e : execAnswer g s = .next t) : Keeps s t := by
  have hk : Keeps s s := keeps_refl _
  simp only [execAnswer, Host.Outcome.next.injEq] at e
  subst e
  repeat' (first | with_reducible exact hk | with_reducible exact keeps_refl _ | exact trivial | exact (fun u => keeps_refl u) | with_reducible apply keeps_modLeaf | with_reducible apply keeps_setRegion | with_reducible apply keeps_raise | with_reducible apply resKeeps_ite | with_reducible apply resKeeps_done | with_reducible apply resKeeps_hold | with_reducible apply resKeeps_jump | with_reducible apply resKeeps_faultIn | with_reducible apply keeps_ite | with_reducible apply keeps_foldl | intro _ | dsimp only | split | (simp (maxDischargeDepth := 40) only [keeps_modLeaf, keeps_setRegion, keeps_raise, keeps_ite, keeps_mk, keeps_foldl, keeps_refl, hk, resKeeps_ite, resKeeps_done, resKeeps_hold, resKeeps_jump, resKeeps_faultIn, resKeeps_block, resKeeps_fault]; done))

theorem keeps_execAbort (l : Nat) (s : State) (t : State) (e : execAbort l s = .next t) : Keeps s t := by
  have hk : Keeps s s := keeps_refl _
  simp only [execAbort, Host.Outcome.next.injEq] at e
  subst e
  simp (maxDischargeDepth := 40) only [keeps_setLeaf, keeps_leafFault, keeps_ite, keeps_refl]

end Sys2Proof.Machine
end

