-- ==== Sys2Proof/Laws/KeepsPort.lean ====
section
/-! SUPPORT. The operations and meanings of this part of the machine keep the queue, the memory and the event log in
order, one lemma each (Laws/Keeps.lean). -/
namespace Sys2Proof.Machine

theorem keeps_setCmdStatus (r0 : State) (s : State) (sub st status seq : Nat) (hk : Keeps r0 s) : Keeps r0 (setCmdStatus s sub st status seq) := by
  unfold setCmdStatus
  simp (maxDischargeDepth := 40) only [keeps_mk, hk]

theorem keeps_finishCmd (r0 : State) (s : State) (p : PendCmd) (status : Nat) (hk : Keeps r0 s) : Keeps r0 (finishCmd s p status) := by
  unfold finishCmd
  simp (maxDischargeDepth := 40) only [keeps_raise, keeps_setCmdStatus, keeps_mk, hk]

theorem keeps_abortCmd (r0 : State) (s : State) (hk : Keeps r0 s) : Keeps r0 (abortCmd s) := by
  unfold abortCmd
  (repeat' split) <;> simp (maxDischargeDepth := 40) only [keeps_finishCmd, keeps_mk, hk]

theorem keeps_addNew (r0 : State) (s : State) (x : Site) (hk : Keeps r0 s) : Keeps r0 (addNew s x) := by
  unfold addNew
  simp (maxDischargeDepth := 40) only [keeps_addDefect, keeps_ite, hk]

theorem keeps_applyClears (r0 : State) (s : State) (porst : Bool) (hk : Keeps r0 s) : Keeps r0 (applyClears s porst) := by
  unfold applyClears
  simp (maxDischargeDepth := 40) only [keeps_raise, keeps_ite, keeps_mk, hk]

theorem keeps_setStep (r0 : State) (s : State) (k : Nat) (hk : Keeps r0 s) : Keeps r0 (setStep s k) := by
  unfold setStep
  simp (maxDischargeDepth := 40) only [keeps_mk, hk]

theorem keeps_enterStartTest (r0 : State) (s : State) (hk : Keeps r0 s) : Keeps r0 (enterStartTest s) := by
  unfold enterStartTest
  simp (maxDischargeDepth := 40) only [keeps_setPhase, keeps_setStep, hk]

theorem keeps_enterCompute (r0 : State) (s : State) (hk : Keeps r0 s) : Keeps r0 (enterCompute s) := by
  unfold enterCompute
  simp (maxDischargeDepth := 40) only [keeps_setPhase, keeps_setStep, hk]

theorem keeps_drainLine (r0 : State) (c : Nat) (s : State) (k : LineOp) (hk : Keeps r0 s) : Keeps r0 (drainLine c s k) := by
  unfold drainLine
  simp (maxDischargeDepth := 40) only [keeps_drawCheck, keeps_lineWrite, keeps_lineFetch, keeps_ite, hk]

theorem keeps_resetColumn (r0 : State) (s : State) (c : Nat) (hk : Keeps r0 s) : Keeps r0 (resetColumn s c) := by
  unfold resetColumn
  repeat' (first | with_reducible exact hk | with_reducible exact keeps_refl _ | exact trivial | exact (fun u => keeps_refl u) | with_reducible apply keeps_modCol | with_reducible apply keeps_drainLine | with_reducible apply keeps_ite | with_reducible apply keeps_foldl | intro _ | dsimp only | split | (simp (maxDischargeDepth := 40) only [keeps_modCol, keeps_drainLine, keeps_ite, keeps_mk, keeps_foldl, keeps_refl, hk]; done))

theorem keeps_resetColl (r0 : State) (s : State) (k : Nat) (hk : Keeps r0 s) : Keeps r0 (resetColl s k) := by
  unfold resetColl
  (repeat' split) <;> simp (maxDischargeDepth := 40) only [keeps_collFail, keeps_mk, hk]

theorem keeps_applyProfile (r0 : State) (s : State) (hk : Keeps r0 s) : Keeps r0 (applyProfile s) := by
  unfold applyProfile
  simp (maxDischargeDepth := 40) only [keeps_raise, keeps_ite, keeps_mk, hk]

theorem keeps_clearCrown (s0 : State) (s : State) (h : Keeps s0 s) : Keeps s0 (clearCrown s) := by
  have h1 : Keeps s0 ((List.range 144).foldl resetColumn s) :=
    keeps_foldl _ _ _ _ (fun u c => keeps_resetColumn _ _ _ (keeps_refl u)) h
  unfold clearCrown
  simp only
  generalize (List.range 144).foldl resetColumn s = u at h1
  exact ⟨h1.pending, fun m => memWf_zeroRange _ _ _ (h1.mem m), h1.log, h1.ready, h1.blown, h1.wrap⟩

theorem keeps_beginCrownReset (r0 : State) (s : State) (cause : Nat) (hk : Keeps r0 s) : Keeps r0 (beginCrownReset s cause) := by
  unfold beginCrownReset
  repeat' (first | with_reducible exact hk | with_reducible exact keeps_refl _ | exact trivial | exact (fun u => keeps_refl u) | with_reducible apply keeps_raise | with_reducible apply keeps_setPhase | with_reducible apply keeps_abortCmd | with_reducible apply keeps_applyClears | with_reducible apply keeps_resetColl | with_reducible apply keeps_ite | with_reducible apply keeps_foldl | intro _ | dsimp only | split | (simp (maxDischargeDepth := 40) only [keeps_abortCmd, keeps_mk, hk]; done))

theorem keeps_dropCrown (r0 : State) (s : State) (hk : Keeps r0 s) : Keeps r0 (dropCrown s) := by
  unfold dropCrown
  simp (maxDischargeDepth := 40) only [keeps_fenceLeaves, keeps_setPhase, keeps_mk, hk]

theorem keeps_porstReset (s0 : State) (s : State) (h : Keeps s0 s) : Keeps s0 (porstReset s) :=
  ⟨h.pending, h.mem, fun _ => ⟨Nat.zero_le _, rfl, rfl⟩, fun _ => rfl, h.blown, h.wrap⟩

theorem keeps_startUp (r0 : State) (s : State) (hk : Keeps r0 s) : Keeps r0 (startUp s) := by
  unfold startUp
  simp (maxDischargeDepth := 40) only [keeps_raise, keeps_applyClears, keeps_ite, keeps_mk, hk]

theorem keeps_tryStart (r0 : State) (s : State) (hk : Keeps r0 s) : Keeps r0 (tryStart s) := by
  unfold tryStart
  simp (maxDischargeDepth := 40) only [keeps_startUp, keeps_ite, hk]

theorem keeps_execPorstNAssert (s : State) (t : State) (e : execPorstNAssert s = .next t) : Keeps s t := by
  have hk : Keeps s s := keeps_refl _
  simp only [execPorstNAssert, Host.Outcome.next.injEq] at e
  subst e
  simp (maxDischargeDepth := 40) only [keeps_porstReset, keeps_mk, keeps_refl]

theorem keeps_execPorstNRelease (slotId : BitVec 6) (profSel : BitVec 2) (s : State) (t : State) (e : execPorstNRelease slotId profSel s = .next t) : Keeps s t := by
  have hk : Keeps s s := keeps_refl _
  simp only [execPorstNRelease, Host.Outcome.next.injEq] at e
  subst e
  simp (maxDischargeDepth := 40) only [keeps_tryStart, keeps_ite, keeps_mk, keeps_refl]

theorem keeps_execSupplyFault (_rail : Nat) (s : State) (t : State) (e : execSupplyFault _rail s = .next t) : Keeps s t := by
  have hk : Keeps s s := keeps_refl _
  simp only [execSupplyFault, Host.Outcome.next.injEq] at e
  subst e
  simp (maxDischargeDepth := 40) only [keeps_porstReset, keeps_mk, keeps_refl]

theorem keeps_execSupplyRestored (s : State) (t : State) (e : execSupplyRestored s = .next t) : Keeps s t := by
  have hk : Keeps s s := keeps_refl _
  simp only [execSupplyRestored, Host.Outcome.next.injEq] at e
  subst e
  simp (maxDischargeDepth := 40) only [keeps_tryStart, keeps_mk, keeps_refl]

theorem keeps_execRefclkLoss (s : State) (t : State) (e : execRefclkLoss s = .next t) : Keeps s t := by
  have hk : Keeps s s := keeps_refl _
  simp only [execRefclkLoss, Host.Outcome.next.injEq] at e
  subst e
  simp (maxDischargeDepth := 40) only [keeps_porstReset, keeps_mk, keeps_refl]

theorem keeps_execRefclkRestored (s : State) (t : State) (e : execRefclkRestored s = .next t) : Keeps s t := by
  have hk : Keeps s s := keeps_refl _
  simp only [execRefclkRestored, Host.Outcome.next.injEq] at e
  subst e
  simp (maxDischargeDepth := 40) only [keeps_tryStart, keeps_mk, keeps_refl]

theorem keeps_execRomBoot (s : State) (t : State) (e : execRomBoot s = .next t) : Keeps s t := by
  have hk : Keeps s s := keeps_refl _
  simp only [execRomBoot, Host.Outcome.next.injEq] at e
  subst e
  simp (maxDischargeDepth := 40) only [keeps_setPhase, keeps_ite, keeps_refl]

theorem keeps_runFirmware (r0 : State) (s : State) (k : Nat) (hk : Keeps r0 s) : Keeps r0 (runFirmware s k) := by
  unfold runFirmware
  simp (maxDischargeDepth := 40) only [keeps_setPhase, keeps_mk, hk]

theorem keeps_execFwVerify (s : State) (t : State) (e : execFwVerify s = .next t) : Keeps s t := by
  have hk : Keeps s s := keeps_refl _
  simp only [execFwVerify, Host.Outcome.next.injEq] at e
  subst e
  simp (maxDischargeDepth := 40) only [keeps_raise, keeps_setPhase, keeps_runFirmware, keeps_ite, keeps_mk, keeps_refl]

theorem keeps_execOdAssembly (s : State) (t : State) (e : execOdAssembly s = .next t) : Keeps s t := by
  have hk : Keeps s s := keeps_refl _
  simp only [execOdAssembly, Host.Outcome.next.injEq] at e
  subst e
  simp (maxDischargeDepth := 40) only [keeps_setPhase, keeps_ite, keeps_mk, keeps_refl]

theorem keeps_execProfileApply (s : State) (t : State) (e : execProfileApply s = .next t) : Keeps s t := by
  have hk : Keeps s s := keeps_refl _
  simp only [execProfileApply, Host.Outcome.next.injEq] at e
  subst e
  repeat' (first | with_reducible exact hk | with_reducible exact keeps_refl _ | exact trivial | exact (fun u => keeps_refl u) | with_reducible apply keeps_modPort | with_reducible apply keeps_setPhase | with_reducible apply resKeeps_ite | with_reducible apply resKeeps_done | with_reducible apply resKeeps_hold | with_reducible apply resKeeps_jump | with_reducible apply resKeeps_faultIn | with_reducible apply keeps_ite | with_reducible apply keeps_foldl | intro _ | dsimp only | split | (simp (maxDischargeDepth := 40) only [keeps_mk, keeps_refl]; done))

theorem keeps_execCalibration (found : List Site) (s : State) (t : State) (e : execCalibration found s = .next t) : Keeps s t := by
  have hk : Keeps s s := keeps_refl _
  simp only [execCalibration, Host.Outcome.next.injEq] at e
  subst e
  repeat' (first | with_reducible exact hk | with_reducible exact keeps_refl _ | exact trivial | exact (fun u => keeps_refl u) | with_reducible apply keeps_setPhase | with_reducible apply keeps_addNew | with_reducible apply resKeeps_ite | with_reducible apply resKeeps_done | with_reducible apply resKeeps_hold | with_reducible apply resKeeps_jump | with_reducible apply resKeeps_faultIn | with_reducible apply keeps_ite | with_reducible apply keeps_foldl | intro _ | dsimp only | split | (simp (maxDischargeDepth := 40) only [keeps_setPhase, keeps_addNew, keeps_ite, keeps_mk, keeps_foldl, keeps_refl, hk, resKeeps_ite, resKeeps_done, resKeeps_hold, resKeeps_jump, resKeeps_faultIn, resKeeps_block, resKeeps_fault]; done))

theorem keeps_useSpare (r0 : State) (s : State) (pos : Nat) (hk : Keeps r0 s) : Keeps r0 (useSpare s pos) := by
  unfold useSpare
  simp (maxDischargeDepth := 40) only [keeps_modCol, hk]

theorem keeps_marchRetire (r0 : State) (s : State) (x : Site) (hk : Keeps r0 s) : Keeps r0 (marchRetire s x) := by
  unfold marchRetire
  simp (maxDischargeDepth := 40) only [keeps_raise, keeps_addNew, keeps_useSpare, keeps_ite, hk]

theorem keeps_execMemoryInit (retire found : List Site) (s : State) (t : State) (e : execMemoryInit retire found s = .next t) :
    Keeps s t := by
  simp only [execMemoryInit, Host.Outcome.next.injEq] at e
  subst e
  have h1 : Keeps s { s with
      mem := zeroRange s.mem 0 (spadBase + 2304 * 0x40000), hwPoison := [], leaves := [], columns := [] } :=
    ⟨rfl, memWf_zeroRange _ _ _, id, id, id, id⟩
  have h2 (ds : List Defect) := keeps_foldl _ _ (fun v d => useSpare v d.position.toNat) ds
    (fun u d => keeps_useSpare _ _ _ (keeps_refl u)) h1
  have h3 (ds : List Defect) := keeps_foldl _ _ marchRetire retire (fun u x => keeps_marchRetire _ _ _ (keeps_refl u)) (h2 ds)
  have h4 (ds : List Defect) (l : List Site) := keeps_foldl _ _ addNew l (fun u x => keeps_addNew _ _ _ (keeps_refl u)) (h3 ds)
  (repeat' with_reducible apply keeps_ite)
  · exact keeps_refl s
  · exact keeps_enterStartTest _ _ (h4 _ _)
  · exact keeps_setPhase _ _ _ (keeps_mk _ _ (h4 _ _) _ _ _ _ _ _ _ _ _ _ _ _ _ _ _ _ _ _ _ rfl rfl rfl rfl)

theorem keeps_execStartTest (found : List Site) (s : State) (t : State) (e : execStartTest found s = .next t) : Keeps s t := by
  have hk : Keeps s s := keeps_refl _
  simp only [execStartTest, Host.Outcome.next.injEq] at e
  subst e
  repeat' (first | with_reducible exact hk | with_reducible exact keeps_refl _ | exact trivial | exact (fun u => keeps_refl u) | with_reducible apply keeps_setPhase | with_reducible apply keeps_addNew | with_reducible apply resKeeps_ite | with_reducible apply resKeeps_done | with_reducible apply resKeeps_hold | with_reducible apply resKeeps_jump | with_reducible apply resKeeps_faultIn | with_reducible apply keeps_ite | with_reducible apply keeps_foldl | intro _ | dsimp only | split | (simp (maxDischargeDepth := 40) only [keeps_setPhase, keeps_addNew, keeps_ite, keeps_mk, keeps_foldl, keeps_refl, hk, resKeeps_ite, resKeeps_done, resKeeps_hold, resKeeps_jump, resKeeps_faultIn, resKeeps_block, resKeeps_fault]; done))

theorem keeps_execGridBuild (s : State) (t : State) (e : execGridBuild s = .next t) : Keeps s t := by
  have hk : Keeps s s := keeps_refl _
  simp only [execGridBuild, Host.Outcome.next.injEq] at e
  subst e
  simp (maxDischargeDepth := 40) only [keeps_raise, keeps_setPhase, keeps_enterCompute, keeps_ite, keeps_mk, keeps_refl]

theorem keeps_execCrownRstN (s : State) (t : State) (e : execCrownRstN s = .next t) : Keeps s t := by
  have hk : Keeps s s := keeps_refl _
  simp only [execCrownRstN, Host.Outcome.next.injEq] at e
  subst e
  simp (maxDischargeDepth := 40) only [keeps_beginCrownReset, keeps_ite, keeps_mk, keeps_refl]

theorem keeps_execCrownRstNRelease (s : State) (t : State) (e : execCrownRstNRelease s = .next t) : Keeps s t := by
  have hk : Keeps s s := keeps_refl _
  simp only [execCrownRstNRelease, Host.Outcome.next.injEq] at e
  subst e
  simp (maxDischargeDepth := 40) only [keeps_enterStartTest, keeps_ite, keeps_mk, keeps_refl]

theorem keeps_execCrownResetPhase (s : State) (t : State) (e : execCrownResetPhase s = .next t) : Keeps s t := by
  have hk : Keeps s s := keeps_refl _
  simp only [execCrownResetPhase, Host.Outcome.next.injEq] at e
  subst e
  simp (maxDischargeDepth := 40) only [keeps_enterStartTest, keeps_applyProfile, keeps_clearCrown, keeps_ite, keeps_mk, keeps_refl]

theorem keeps_loseUnit (r0 : State) (s : State) (site : Site) (hk : Keeps r0 s) : Keeps r0 (loseUnit s site) := by
  unfold loseUnit
  repeat' (first | with_reducible exact hk | with_reducible exact keeps_refl _ | exact trivial | exact (fun u => keeps_refl u) | with_reducible apply keeps_failRouter | with_reducible apply keeps_failTrunk | with_reducible apply keeps_ite | with_reducible apply keeps_foldl | intro _ | dsimp only | split | (simp (maxDischargeDepth := 40) only [keeps_failRouter, keeps_failTrunk, keeps_ite, keeps_mk, keeps_foldl, keeps_refl, hk]; done))

theorem keeps_execUnitFailure (site : Site) (s : State) (t : State) (e : execUnitFailure site s = .next t) : Keeps s t := by
  have hk : Keeps s s := keeps_refl _
  simp only [execUnitFailure, Host.Outcome.next.injEq] at e
  subst e
  simp (maxDischargeDepth := 40) only [keeps_failUnit, keeps_dropCrown, keeps_loseUnit, keeps_ite, keeps_refl]

theorem keeps_execCrownDown (core : Nat) (s : State) (t : State) (e : execCrownDown core s = .next t) : Keeps s t := by
  have hk : Keeps s s := keeps_refl _
  simp only [execCrownDown, Host.Outcome.next.injEq] at e
  subst e
  simp (maxDischargeDepth := 40) only [keeps_failUnit, keeps_dropCrown, keeps_ite, keeps_refl]

theorem keeps_sendRsp (r0 : State) (s : State) (h : ConasHdr) (r : ConasRsp) (hk : Keeps r0 s) : Keeps r0 (sendRsp s h r) := by
  unfold sendRsp
  (repeat' split) <;> simp (maxDischargeDepth := 40) only [keeps_toRouter, keeps_mk, hk]

theorem keeps_setSession (r0 : State) (s : State) (k : Nat) (x : Option Session) (hk : Keeps r0 s) : Keeps r0 (setSession s k x) := by
  unfold setSession
  simp (maxDischargeDepth := 40) only [keeps_mk, hk]

theorem keeps_sessionViolation (r0 : State) (s : State) (h : ConasHdr) (hk : Keeps r0 s) : Keeps r0 (sessionViolation s h) := by
  unfold sessionViolation
  (repeat' split) <;> simp (maxDischargeDepth := 40) only [keeps_raise, keeps_setSession, keeps_ite, hk]

theorem keeps_violate (r0 : State) (s : State) (h : ConasHdr) (code status ix sub : Nat) (hk : Keeps r0 s) : Keeps r0 (violate s h code status ix sub) := by
  unfold violate
  simp (maxDischargeDepth := 40) only [keeps_raise, keeps_sendRsp, keeps_sessionViolation, keeps_mk, hk]

theorem keeps_discardMgmt (r0 : State) (s : State) (hk : Keeps r0 s) : Keeps r0 (discardMgmt s) := by
  unfold discardMgmt
  simp (maxDischargeDepth := 40) only [keeps_mk, hk]

theorem keeps_acceptMsg (r0 : State) (s : State) (m : ConasMsg) (hk : Keeps r0 s) : Keeps r0 (acceptMsg s m) := by
  unfold acceptMsg
  simp (maxDischargeDepth := 40) only [keeps_mk, hk]

theorem keeps_conasArrives (r0 : State) (s : State) (tr : Transport) (address : BitVec 17) (tag : BitVec 15) (bytes : List Byte) (hk : Keeps r0 s) : Keeps r0 (conasArrives s tr address tag bytes) := by
  unfold conasArrives
  simp (maxDischargeDepth := 40) only [keeps_violate, keeps_discardMgmt, keeps_acceptMsg, keeps_ite, hk]

theorem keeps_returnCredits (r0 : State) (s : State) (p k n : Nat) (hk : Keeps r0 s) : Keeps r0 (returnCredits s p k n) := by
  unfold returnCredits
  simp (maxDischargeDepth := 40) only [keeps_modPort, hk]

theorem keeps_freeBuffer (r0 : State) (s : State) (p k n : Nat) (hk : Keeps r0 s) : Keeps r0 (freeBuffer s p k n) := by
  unfold freeBuffer
  simp (maxDischargeDepth := 40) only [keeps_modPort, keeps_returnCredits, hk]

theorem keeps_sendOut (r0 : State) (s : State) (p m : Nat) (q : SPkt) (hk : Keeps r0 s) : Keeps r0 (sendOut s p m q) := by
  unfold sendOut
  simp (maxDischargeDepth := 40) only [keeps_modPort, keeps_mk, hk]

theorem keeps_sendFlit (r0 : State) (s : State) (p m : Nat) (hk : Keeps r0 s) : Keeps r0 (sendFlit s p m) := by
  unfold sendFlit
  simp (maxDischargeDepth := 40) only [keeps_modPort, keeps_ite, keeps_mk, hk]

theorem keeps_sendFlits (r0 : State) (s : State) (hk : Keeps r0 s) : Keeps r0 (sendFlits s) := by
  unfold sendFlits
  repeat' (first | with_reducible exact hk | with_reducible exact keeps_refl _ | exact trivial | exact (fun u => keeps_refl u) | with_reducible apply keeps_sendFlit | with_reducible apply keeps_ite | with_reducible apply keeps_foldl | intro _ | dsimp only | split | (simp (maxDischargeDepth := 40) only [keeps_sendFlit, keeps_ite, keeps_mk, keeps_foldl, keeps_refl, hk]; done))

theorem keeps_intoRouter (r0 : State) (s : State) (p : Nat) (q : SPkt) (hk : Keeps r0 s) : Keeps r0 (intoRouter s p q) := by
  unfold intoRouter
  simp (maxDischargeDepth := 40) only [keeps_mk, hk]

theorem keeps_tryOpen (r0 : State) (s : State) (p : Nat) (hk : Keeps r0 s) : Keeps r0 (tryOpen s p) := by
  unfold tryOpen
  repeat' (first | with_reducible exact hk | with_reducible exact keeps_refl _ | exact trivial | exact (fun u => keeps_refl u) | with_reducible apply keeps_setPort | with_reducible apply keeps_intoRouter | with_reducible apply keeps_ite | with_reducible apply keeps_foldl | intro _ | dsimp only | split | (simp (maxDischargeDepth := 40) only [keeps_setPort, keeps_intoRouter, keeps_ite, keeps_mk, keeps_foldl, keeps_refl, hk]; done))

theorem keeps_checkParam (r0 : State) (s : State) (p : Nat) (hk : Keeps r0 s) : Keeps r0 (checkParam s p) := by
  unfold checkParam
  repeat' (first | with_reducible exact hk | with_reducible exact keeps_refl _ | exact trivial | exact (fun u => keeps_refl u) | with_reducible apply keeps_setPort | with_reducible apply keeps_raise | with_reducible apply keeps_ite | with_reducible apply keeps_foldl | intro _ | dsimp only | split | (simp (maxDischargeDepth := 40) only [keeps_setPort, keeps_raise, keeps_ite, keeps_mk, keeps_foldl, keeps_refl, hk]; done))

theorem keeps_armTrained (r0 : State) (s : State) (p : Nat) (hk : Keeps r0 s) : Keeps r0 (armTrained s p) := by
  unfold armTrained
  simp (maxDischargeDepth := 40) only [keeps_setPort, keeps_sendOut, keeps_tryOpen, keeps_checkParam, keeps_ite, hk]

theorem keeps_moduleUntrained (r0 : State) (lanes : List Byte) (p : Nat) (s : State) (m : Nat) (hk : Keeps r0 s) : Keeps r0 (moduleUntrained lanes p s m) := by
  unfold moduleUntrained
  simp (maxDischargeDepth := 40) only [keeps_raise, keeps_addDefect, hk]

theorem keeps_execPortTrainingComplete (port : Nat) (partner : Bool) (modules : BitVec 8) (lanes : List Byte) (s : State) (t : State) (e : execPortTrainingComplete port partner modules lanes s = .next t) : Keeps s t := by
  have hk : Keeps s s := keeps_refl _
  simp only [execPortTrainingComplete, Host.Outcome.next.injEq] at e
  subst e
  repeat' (first | with_reducible exact hk | with_reducible exact keeps_refl _ | exact trivial | exact (fun u => keeps_refl u) | with_reducible apply keeps_setPort | with_reducible apply keeps_raise | with_reducible apply keeps_armTrained | with_reducible apply keeps_moduleUntrained | with_reducible apply resKeeps_ite | with_reducible apply resKeeps_done | with_reducible apply resKeeps_hold | with_reducible apply resKeeps_jump | with_reducible apply resKeeps_faultIn | with_reducible apply keeps_ite | with_reducible apply keeps_foldl | intro _ | dsimp only | split | (simp (maxDischargeDepth := 40) only [keeps_mk, keeps_refl]; done))

theorem keeps_execLinkTrainingRetry (port : Nat) (s : State) (t : State) (e : execLinkTrainingRetry port s = .next t) : Keeps s t := by
  have hk : Keeps s s := keeps_refl _
  simp only [execLinkTrainingRetry, Host.Outcome.next.injEq] at e
  subst e
  simp (maxDischargeDepth := 40) only [keeps_setPort, keeps_ite, keeps_refl]

theorem keeps_portDue (r0 : State) (s : State) (p : Nat) (hk : Keeps r0 s) : Keeps r0 (portDue s p) := by
  unfold portDue
  simp (maxDischargeDepth := 40) only [keeps_setPort, keeps_ite, hk]

theorem keeps_quarantineCount (r0 : State) (s : State) (p : Nat) (hk : Keeps r0 s) : Keeps r0 (quarantineCount s p) := by
  unfold quarantineCount
  simp (maxDischargeDepth := 40) only [keeps_setPort, keeps_raise, keeps_ite, hk]

theorem keeps_nakPacket (r0 : State) (s : State) (q : SPkt) (nak : Nat) (hk : Keeps r0 s) : Keeps r0 (nakPacket s q nak) := by
  unfold nakPacket
  simp (maxDischargeDepth := 40) only [keeps_toRouter, keeps_ite, hk]

theorem keeps_violation (r0 : State) (s : State) (p code : Nat) (q : SPkt) (hk : Keeps r0 s) : Keeps r0 (violation s p code q) := by
  unfold violation
  simp (maxDischargeDepth := 40) only [keeps_countViolation, keeps_quarantineCount, keeps_nakPacket, keeps_ite, hk]

theorem keeps_receiveParam (r0 : State) (s : State) (p : Nat) (q : SPkt) (hk : Keeps r0 s) : Keeps r0 (receiveParam s p q) := by
  unfold receiveParam
  simp (maxDischargeDepth := 40) only [keeps_setPort, keeps_armTrained, keeps_violation, keeps_ite, hk]

theorem keeps_receivePacket (r0 : State) (p : Nat) (s : State) (q : SPkt) (hk : Keeps r0 s) : Keeps r0 (receivePacket p s q) := by
  unfold receivePacket
  (repeat' split) <;> simp (maxDischargeDepth := 40) only [keeps_modPort, keeps_returnCredits, keeps_intoRouter, keeps_violation, keeps_receiveParam, keeps_ite, hk]

theorem keeps_execLinkParam (port : Nat) (p : SPkt) (s : State) (t : State) (e : execLinkParam port p s = .next t) : Keeps s t := by
  have hk : Keeps s s := keeps_refl _
  simp only [execLinkParam, Host.Outcome.next.injEq] at e
  subst e
  simp (maxDischargeDepth := 40) only [keeps_receivePacket, keeps_ite, keeps_refl]

theorem keeps_returnLost (r0 : State) (s : State) (p : Nat) (a : FlitAsm) (hk : Keeps r0 s) : Keeps r0 (returnLost s p a) := by
  unfold returnLost
  repeat' (first | with_reducible exact hk | with_reducible exact keeps_refl _ | exact trivial | exact (fun u => keeps_refl u) | with_reducible apply keeps_returnCredits | with_reducible apply keeps_ite | with_reducible apply keeps_foldl | intro _ | dsimp only | split | (simp (maxDischargeDepth := 40) only [keeps_returnCredits, keeps_ite, keeps_mk, keeps_foldl, keeps_refl, hk]; done))

theorem keeps_dropFlit (r0 : State) (s : State) (p m : Nat) (a : FlitAsm) (hk : Keeps r0 s) : Keeps r0 (dropFlit s p m a) := by
  unfold dropFlit
  repeat' (first | with_reducible exact hk | with_reducible exact keeps_refl _ | exact trivial | exact (fun u => keeps_refl u) | with_reducible apply keeps_modPort | with_reducible apply keeps_returnCredits | with_reducible apply keeps_violation | with_reducible apply keeps_returnLost | with_reducible apply keeps_ite | with_reducible apply keeps_foldl | intro _ | dsimp only | split | (simp (maxDischargeDepth := 40) only [keeps_modPort, keeps_returnCredits, keeps_violation, keeps_returnLost, keeps_ite, keeps_mk, keeps_foldl, keeps_refl, hk]; done))

theorem keeps_execFlitReceive (port mod retries : Nat) (flit : Flit) (s : State) (t : State) (e : execFlitReceive port mod retries flit s = .next t) : Keeps s t := by
  have hk : Keeps s s := keeps_refl _
  simp only [execFlitReceive, Host.Outcome.next.injEq] at e
  subst e
  repeat' (first | with_reducible exact hk | with_reducible exact keeps_refl _ | exact trivial | exact (fun u => keeps_refl u) | with_reducible apply keeps_modPort | with_reducible apply keeps_receivePacket | with_reducible apply keeps_returnLost | with_reducible apply keeps_dropFlit | with_reducible apply resKeeps_ite | with_reducible apply resKeeps_done | with_reducible apply resKeeps_hold | with_reducible apply resKeeps_jump | with_reducible apply resKeeps_faultIn | with_reducible apply keeps_ite | with_reducible apply keeps_foldl | intro _ | dsimp only | split | (simp (maxDischargeDepth := 40) only [keeps_mk, keeps_refl]; done))

theorem keeps_localResponse (r0 : State) (s : State) (i : Nat) (q : SPkt) (hk : Keeps r0 s) : Keeps r0 (localResponse s i q) := by
  unfold localResponse
  (repeat' split) <;> simp (maxDischargeDepth := 40) only [keeps_mk, hk]

theorem keeps_deliverLocal (r0 : State) (s : State) (i : Nat) (q : SPkt) (hk : Keeps r0 s) : Keeps r0 (deliverLocal s i q) := by
  unfold deliverLocal
  simp (maxDischargeDepth := 40) only [keeps_conasArrives, keeps_localResponse, keeps_ite, keeps_mk, hk]

theorem keeps_takeRouter (r0 : State) (s : State) (iq : Nat × SPkt) (hk : Keeps r0 s) : Keeps r0 (takeRouter s iq) := by
  unfold takeRouter
  simp (maxDischargeDepth := 40) only [keeps_freeBuffer, keeps_ite, keeps_mk, hk]

theorem keeps_forward (r0 : State) (s : State) (iq : Nat × SPkt) (hk : Keeps r0 s) : Keeps r0 (forward s iq) := by
  unfold forward
  (repeat' split) <;> simp (maxDischargeDepth := 40) only [keeps_modPort, keeps_sendOut, keeps_nakPacket, keeps_violation, keeps_deliverLocal, keeps_takeRouter, hk]

theorem keeps_execPacketForward (s : State) (t : State) (e : execPacketForward s = .next t) : Keeps s t := by
  have hk : Keeps s s := keeps_refl _
  simp only [execPacketForward, Host.Outcome.next.injEq] at e
  subst e
  (repeat' split) <;> simp (maxDischargeDepth := 40) only [keeps_forward, keeps_refl]

theorem keeps_dropModule (r0 : State) (s : State) (p m : Nat) (hk : Keeps r0 s) : Keeps r0 (dropModule s p m) := by
  unfold dropModule
  repeat' (first | with_reducible exact hk | with_reducible exact keeps_refl _ | exact trivial | exact (fun u => keeps_refl u) | with_reducible apply keeps_modPort | with_reducible apply keeps_returnCredits | with_reducible apply keeps_ite | with_reducible apply keeps_foldl | intro _ | dsimp only | split | (simp (maxDischargeDepth := 40) only [keeps_modPort, keeps_returnCredits, keeps_ite, keeps_mk, keeps_foldl, keeps_refl, hk]; done))

theorem keeps_failPort (r0 : State) (s : State) (p : Nat) (hk : Keeps r0 s) : Keeps r0 (failPort s p) := by
  unfold failPort
  simp (maxDischargeDepth := 40) only [keeps_setPort, keeps_ite, keeps_mk, hk]

theorem keeps_execModuleFailure (port mod : Nat) (s : State) (t : State) (e : execModuleFailure port mod s = .next t) : Keeps s t := by
  have hk : Keeps s s := keeps_refl _
  simp only [execModuleFailure, Host.Outcome.next.injEq] at e
  subst e
  simp (maxDischargeDepth := 40) only [keeps_raise, keeps_failUnit, keeps_dropModule, keeps_failPort, keeps_ite, keeps_refl]

theorem keeps_execModuleRetrained (port mod : Nat) (ok : Bool) (lanes : Byte) (s : State) (t : State) (e : execModuleRetrained port mod ok lanes s = .next t) : Keeps s t := by
  have hk : Keeps s s := keeps_refl _
  simp only [execModuleRetrained, Host.Outcome.next.injEq] at e
  subst e
  simp (maxDischargeDepth := 40) only [keeps_modPort, keeps_moduleUntrained, keeps_failPort, keeps_ite, keeps_mk, keeps_refl]

theorem keeps_govRaise (r0 : State) (s : State) (unit cause : Nat) (measured limit : Word) (target : Nat) (advisory : Bool) (hk : Keeps r0 s) : Keeps r0 (govRaise s unit cause measured limit target advisory) := by
  unfold govRaise
  simp (maxDischargeDepth := 40) only [keeps_raise, hk]

theorem keeps_beginChange (r0 : State) (s : State) (c : StepChange) (hk : Keeps r0 s) : Keeps r0 (beginChange s c) := by
  unfold beginChange
  simp (maxDischargeDepth := 40) only [keeps_mk, hk]

theorem keeps_execStepPoint (barrier : Bool) (s : State) (t : State) (e : execStepPoint barrier s = .next t) : Keeps s t := by
  have hk : Keeps s s := keeps_refl _
  simp only [execStepPoint, Host.Outcome.next.injEq] at e
  subst e
  (repeat' split) <;> simp (maxDischargeDepth := 40) only [keeps_beginChange, keeps_refl]

theorem keeps_execStepDeadline (s : State) (t : State) (e : execStepDeadline s = .next t) : Keeps s t := by
  have hk : Keeps s s := keeps_refl _
  simp only [execStepDeadline, Host.Outcome.next.injEq] at e
  subst e
  (repeat' split) <;> simp (maxDischargeDepth := 40) only [keeps_beginChange, keeps_refl]

theorem keeps_toStepThree (r0 : State) (s : State) (hk : Keeps r0 s) : Keeps r0 (toStepThree s) := by
  unfold toStepThree
  simp (maxDischargeDepth := 40) only [keeps_govRaise, keeps_beginChange, keeps_ite, hk]

theorem keeps_endChange (r0 : State) (s : State) (hk : Keeps r0 s) : Keeps r0 (endChange s) := by
  unfold endChange
  simp (maxDischargeDepth := 40) only [keeps_toStepThree, keeps_ite, keeps_mk, hk]

theorem keeps_execPllRelockDone (s : State) (t : State) (e : execPllRelockDone s = .next t) : Keeps s t := by
  have hk : Keeps s s := keeps_refl _
  simp only [execPllRelockDone, Host.Outcome.next.injEq] at e
  subst e
  (repeat' split) <;> simp (maxDischargeDepth := 40) only [keeps_govRaise, keeps_endChange, keeps_mk, keeps_refl]

theorem keeps_execVcrSlewDone (s : State) (t : State) (e : execVcrSlewDone s = .next t) : Keeps s t := by
  have hk : Keeps s s := keeps_refl _
  simp only [execVcrSlewDone, Host.Outcome.next.injEq] at e
  subst e
  (repeat' split) <;> simp (maxDischargeDepth := 40) only [keeps_endChange, keeps_mk, keeps_refl]

theorem keeps_overtemp (r0 : State) (s : State) (r : Readings) (hk : Keeps r0 s) : Keeps r0 (overtemp s r) := by
  unfold overtemp
  repeat' (first | with_reducible exact hk | with_reducible exact keeps_refl _ | exact trivial | exact (fun u => keeps_refl u) | with_reducible apply keeps_raise | with_reducible apply keeps_ite | with_reducible apply keeps_foldl | intro _ | dsimp only | split | (simp (maxDischargeDepth := 40) only [keeps_raise, keeps_ite, keeps_mk, keeps_foldl, keeps_refl, hk]; done))

theorem keeps_noteTemps (r0 : State) (s : State) (r : Readings) (hk : Keeps r0 s) : Keeps r0 (noteTemps s r) := by
  unfold noteTemps
  simp (maxDischargeDepth := 40) only [keeps_mk, hk]

theorem keeps_beginEmergency (r0 : State) (s : State) (hk : Keeps r0 s) : Keeps r0 (beginEmergency s) := by
  unfold beginEmergency
  simp (maxDischargeDepth := 40) only [keeps_govRaise, keeps_toStepThree, keeps_ite, keeps_mk, hk]

theorem keeps_tryCalm (r0 : State) (s : State) (r : Readings) (hk : Keeps r0 s) : Keeps r0 (tryCalm s r) := by
  unfold tryCalm
  (repeat' split) <;> simp (maxDischargeDepth := 40) only [keeps_govRaise, keeps_mk, hk]

theorem keeps_execSensorSample (r : Readings) (s : State) (t : State) (e : execSensorSample r s = .next t) : Keeps s t := by
  have hk : Keeps s s := keeps_refl _
  simp only [execSensorSample, Host.Outcome.next.injEq] at e
  subst e
  simp (maxDischargeDepth := 40) only [keeps_overtemp, keeps_noteTemps, keeps_beginEmergency, keeps_tryCalm, keeps_ite, keeps_refl]

theorem keeps_execThermalTrip (sensor : Nat) (reading : Word) (s : State) (t : State) (e : execThermalTrip sensor reading s = .next t) : Keeps s t := by
  have hk : Keeps s s := keeps_refl _
  simp only [execThermalTrip, Host.Outcome.next.injEq] at e
  subst e
  simp (maxDischargeDepth := 40) only [keeps_raise, keeps_dropCrown, keeps_ite, keeps_mk, keeps_refl]

theorem keeps_decide1 (r0 : State) (s : State) (hk : Keeps r0 s) : Keeps r0 (decide1 s) := by
  unfold decide1
  simp (maxDischargeDepth := 40) only [keeps_ite, keeps_mk, hk]

theorem keeps_policyWritten (r0 : State) (s : State) (hk : Keeps r0 s) : Keeps r0 (policyWritten s) := by
  unfold policyWritten
  simp (maxDischargeDepth := 40) only [keeps_decide1, keeps_ite, hk]

theorem keeps_advise (r0 : State) (s : State) (p : Proposal) (hk : Keeps r0 s) : Keeps r0 (advise s p) := by
  unfold advise
  simp (maxDischargeDepth := 40) only [keeps_govRaise, keeps_ite, hk]

theorem keeps_floorCheck (r0 : State) (s : State) (hk : Keeps r0 s) : Keeps r0 (floorCheck s) := by
  unfold floorCheck
  simp (maxDischargeDepth := 40) only [keeps_govRaise, keeps_ite, keeps_mk, hk]

theorem keeps_evalStep (r0 : State) (s : State) (hk : Keeps r0 s) : Keeps r0 (evalStep s) := by
  unfold evalStep
  simp (maxDischargeDepth := 40) only [keeps_decide1, keeps_advise, keeps_floorCheck, keeps_ite, hk]

theorem keeps_evalScrub (r0 : State) (s : State) (c : Nat) (hk : Keeps r0 s) : Keeps r0 (evalScrub s c) := by
  unfold evalScrub
  (repeat' split) <;> simp (maxDischargeDepth := 40) only [keeps_setCol, keeps_govRaise, keeps_ite, hk]

theorem keeps_startRetire (r0 : State) (s : State) (c key errors : Nat) (hk : Keeps r0 s) : Keeps r0 (startRetire s c key errors) := by
  unfold startRetire
  simp (maxDischargeDepth := 40) only [keeps_setCol, keeps_raise, keeps_ite, hk]

theorem keeps_evalRetire (r0 : State) (s : State) (c : Nat) (hk : Keeps r0 s) : Keeps r0 (evalRetire s c) := by
  unfold evalRetire
  repeat' (first | with_reducible exact hk | with_reducible exact keeps_refl _ | exact trivial | exact (fun u => keeps_refl u) | with_reducible apply keeps_setCol | with_reducible apply keeps_retire | with_reducible apply keeps_govRaise | with_reducible apply keeps_startRetire | with_reducible apply keeps_ite | with_reducible apply keeps_foldl | intro _ | dsimp only | split | (simp (maxDischargeDepth := 40) only [keeps_setCol, keeps_retire, keeps_govRaise, keeps_startRetire, keeps_ite, keeps_mk, keeps_foldl, keeps_refl, hk]; done))

theorem keeps_evalSpare (r0 : State) (s : State) (k : Nat) (hk : Keeps r0 s) : Keeps r0 (evalSpare s k) := by
  unfold evalSpare
  simp (maxDischargeDepth := 40) only [keeps_raise, keeps_dropModule, keeps_govRaise, keeps_ite, keeps_mk, hk]

theorem keeps_refreshReadings (r0 : State) (s : State) (hk : Keeps r0 s) : Keeps r0 (refreshReadings s) := by
  unfold refreshReadings
  repeat' (first | with_reducible exact hk | with_reducible exact keeps_refl _ | exact trivial | exact (fun u => keeps_refl u) | with_reducible apply keeps_ite | with_reducible apply keeps_foldl | intro _ | dsimp only | split | (simp (maxDischargeDepth := 40) only [keeps_mk, hk]; done))

theorem keeps_execGovernorEvaluation (s : State) (t : State) (e : execGovernorEvaluation s = .next t) : Keeps s t := by
  simp only [execGovernorEvaluation, Host.Outcome.next.injEq] at e
  subst e
  have h1 := keeps_foldl _ _ (fun v c => evalRetire (evalScrub v c) c) (List.range 144)
    (fun u c => keeps_evalRetire _ _ _ (keeps_evalScrub _ _ _ (keeps_refl u)))
    (keeps_evalStep _ _ (keeps_refreshReadings _ _ (keeps_refl s)))
  have h2 := keeps_foldl _ _ evalSpare (List.range 32) (fun u k => keeps_evalSpare _ _ _ (keeps_refl u)) h1
  with_reducible apply keeps_ite
  · exact keeps_refl s
  · exact keeps_mk _ _ h2 _ _ _ _ _ _ _ _ _ _ _ _ _ _ _ _ _ _ _ rfl rfl rfl rfl

theorem keeps_openSession (r0 : State) (s : State) (h : ConasHdr) (body : List Byte) (hk : Keeps r0 s) : Keeps r0 (openSession s h body).1 := by
  unfold openSession
  repeat' (first | with_reducible exact hk | with_reducible exact keeps_refl _ | exact trivial | exact (fun u => keeps_refl u) | with_reducible apply keeps_setSession | with_reducible apply keeps_ite | with_reducible apply keeps_foldl | intro _ | dsimp only | split | (simp (maxDischargeDepth := 40) only [keeps_setSession, keeps_ite, keeps_mk, keeps_foldl, keeps_refl, hk]; done))

theorem keeps_closeSession (r0 : State) (s : State) (h : ConasHdr) (hk : Keeps r0 s) : Keeps r0 (closeSession s h).1 := by
  unfold closeSession
  simp (maxDischargeDepth := 40) only [keeps_setSession, hk]

theorem keeps_readObject (r0 : State) (s : State) (h : ConasHdr) (body : List Byte) (hk : Keeps r0 s) : Keeps r0 (readObject s h body).1 := by
  unfold readObject
  (repeat' split) <;> simp (maxDischargeDepth := 40) only [hk]

theorem keeps_readEvents (r0 : State) (s : State) (h : ConasHdr) (body : List Byte) (hk : Keeps r0 s) : Keeps r0 (readEvents s h body).1 := by
  unfold readEvents
  (repeat' split) <;> simp (maxDischargeDepth := 40) only [hk]

theorem keeps_writeObject (r0 : State) (s : State) (key off : Nat) (bs : List Byte) (hk : Keeps r0 s) : Keeps r0 (writeObject s key off bs) := by
  unfold writeObject
  simp (maxDischargeDepth := 40) only [keeps_refreshAlert, keeps_policyWritten, keeps_ite, keeps_mk, hk]

theorem keeps_execDynamicAddressAssignment (addr : BitVec 7) (s : State) (t : State) (e : execDynamicAddressAssignment addr s = .next t) : Keeps s t := by
  have hk : Keeps s s := keeps_refl _
  simp only [execDynamicAddressAssignment, Host.Outcome.next.injEq] at e
  subst e
  simp (maxDischargeDepth := 40) only [keeps_ite, keeps_mk, keeps_refl]

theorem keeps_ctlAnswer (r0 : State) (s : State) (m : MctpCtl) (bytes : List Byte) (hk : Keeps r0 s) : Keeps r0 (ctlAnswer s m bytes) := by
  unfold ctlAnswer
  simp (maxDischargeDepth := 40) only [keeps_mk, hk]

theorem keeps_ctlSetEid (r0 : State) (s : State) (m : MctpCtl) (eid : Byte) (hk : Keeps r0 s) : Keeps r0 (ctlSetEid s m eid) := by
  unfold ctlSetEid
  simp (maxDischargeDepth := 40) only [keeps_ctlAnswer, keeps_ite, keeps_mk, hk]

theorem keeps_ctlGetEid (r0 : State) (s : State) (m : MctpCtl) (hk : Keeps r0 s) : Keeps r0 (ctlGetEid s m) := by
  unfold ctlGetEid
  simp (maxDischargeDepth := 40) only [keeps_ctlAnswer, hk]

theorem keeps_ctlVersion (r0 : State) (s : State) (m : MctpCtl) (hk : Keeps r0 s) : Keeps r0 (ctlVersion s m) := by
  unfold ctlVersion
  simp (maxDischargeDepth := 40) only [keeps_draw, keeps_ctlAnswer, hk]

theorem keeps_ctlTypes (r0 : State) (s : State) (m : MctpCtl) (hk : Keeps r0 s) : Keeps r0 (ctlTypes s m) := by
  unfold ctlTypes
  simp (maxDischargeDepth := 40) only [keeps_ctlAnswer, hk]

theorem keeps_ctlVendor (r0 : State) (s : State) (m : MctpCtl) (hk : Keeps r0 s) : Keeps r0 (ctlVendor s m) := by
  unfold ctlVendor
  simp (maxDischargeDepth := 40) only [keeps_draw, keeps_ctlAnswer, hk]

theorem keeps_execSetEndpointId (m : MctpCtl) (eid : Byte) (s : State) (t : State) (e : execSetEndpointId m eid s = .next t) : Keeps s t := by
  have hk : Keeps s s := keeps_refl _
  simp only [execSetEndpointId, Host.Outcome.next.injEq] at e
  subst e
  simp (maxDischargeDepth := 40) only [keeps_ctlSetEid, keeps_ite, keeps_refl]

theorem keeps_execGetEndpointId (m : MctpCtl) (s : State) (t : State) (e : execGetEndpointId m s = .next t) : Keeps s t := by
  have hk : Keeps s s := keeps_refl _
  simp only [execGetEndpointId, Host.Outcome.next.injEq] at e
  subst e
  simp (maxDischargeDepth := 40) only [keeps_ctlGetEid, keeps_ite, keeps_refl]

theorem keeps_execGetMctpVersionSupport (m : MctpCtl) (s : State) (t : State) (e : execGetMctpVersionSupport m s = .next t) : Keeps s t := by
  have hk : Keeps s s := keeps_refl _
  simp only [execGetMctpVersionSupport, Host.Outcome.next.injEq] at e
  subst e
  simp (maxDischargeDepth := 40) only [keeps_ctlVersion, keeps_ite, keeps_refl]

theorem keeps_execGetMessageTypeSupport (m : MctpCtl) (s : State) (t : State) (e : execGetMessageTypeSupport m s = .next t) : Keeps s t := by
  have hk : Keeps s s := keeps_refl _
  simp only [execGetMessageTypeSupport, Host.Outcome.next.injEq] at e
  subst e
  simp (maxDischargeDepth := 40) only [keeps_ctlTypes, keeps_ite, keeps_refl]

theorem keeps_execGetVendorDefinedMessageSupport (m : MctpCtl) (s : State) (t : State) (e : execGetVendorDefinedMessageSupport m s = .next t) : Keeps s t := by
  have hk : Keeps s s := keeps_refl _
  simp only [execGetVendorDefinedMessageSupport, Host.Outcome.next.injEq] at e
  subst e
  simp (maxDischargeDepth := 40) only [keeps_ctlVendor, keeps_ite, keeps_refl]

theorem keeps_ctlMessage (r0 : State) (s : State) (m : MctpCtl) (bytes : List Byte) (hk : Keeps r0 s) : Keeps r0 (ctlMessage s m bytes) := by
  unfold ctlMessage
  (repeat' split) <;> simp (maxDischargeDepth := 40) only [keeps_ctlAnswer, keeps_ctlSetEid, keeps_ctlGetEid, keeps_ctlVersion, keeps_ctlTypes, keeps_ctlVendor, hk]

theorem keeps_mctpMessage (r0 : State) (s : State) (src : Byte) (tag : BitVec 3) (bytes : List Byte) (hk : Keeps r0 s) : Keeps r0 (mctpMessage s src tag bytes) := by
  unfold mctpMessage
  (repeat' split) <;> simp (maxDischargeDepth := 40) only [keeps_discardMgmt, keeps_conasArrives, keeps_ctlMessage, hk]

theorem keeps_setAssembling (r0 : State) (s : State) (as : List Assembly) (hk : Keeps r0 s) : Keeps r0 (setAssembling s as) := by
  unfold setAssembling
  simp (maxDischargeDepth := 40) only [keeps_mk, hk]

theorem keeps_execMctpPacket (u : MctpUnit) (s : State) (t : State) (e : execMctpPacket u s = .next t) : Keeps s t := by
  have hk : Keeps s s := keeps_refl _
  simp only [execMctpPacket, Host.Outcome.next.injEq] at e
  subst e
  (repeat' split) <;> simp (maxDischargeDepth := 40) only [keeps_discardMgmt, keeps_mctpMessage, keeps_setAssembling, keeps_refl]

theorem keeps_trustFail (r0 : State) (s : State) (reason : Nat) (hk : Keeps r0 s) : Keeps r0 (trustFail s reason).1 := by
  unfold trustFail
  simp (maxDischargeDepth := 40) only [hk]

theorem keeps_rejectSig (r0 : State) (s : State) (unit reason extra : Nat) (m : List Byte) (hk : Keeps r0 s) : Keeps r0 (rejectSig s unit reason extra m) := by
  unfold rejectSig
  simp (maxDischargeDepth := 40) only [keeps_raise, hk]

theorem keeps_docRead (r0 : State) (s : State) (h : ConasHdr) (doc : List Byte) (off : Nat) (hk : Keeps r0 s) : Keeps r0 (docRead s h doc off).1 := by
  unfold docRead
  simp (maxDischargeDepth := 40) only [hk]

theorem keeps_getIdentity (r0 : State) (s : State) (h : ConasHdr) (body : List Byte) (hk : Keeps r0 s) : Keeps r0 (getIdentity s h body).1 := by
  unfold getIdentity
  simp (maxDischargeDepth := 40) only [keeps_docRead, hk]

theorem keeps_setQuote (r0 : State) (s : State) (h : ConasHdr) (q : Quote) (hk : Keeps r0 s) : Keeps r0 (setQuote s h q) := by
  unfold setQuote
  (repeat' split) <;> simp (maxDischargeDepth := 40) only [keeps_setSession, keeps_mk, hk]

theorem keeps_getQuote (r0 : State) (s : State) (h : ConasHdr) (body : List Byte) (hk : Keeps r0 s) : Keeps r0 (getQuote s h body).1 := by
  unfold getQuote
  repeat' (first | with_reducible exact hk | with_reducible exact keeps_refl _ | exact trivial | exact (fun u => keeps_refl u) | with_reducible apply keeps_trustFail | with_reducible apply keeps_docRead | with_reducible apply keeps_setQuote | with_reducible apply keeps_ite | with_reducible apply keeps_foldl | intro _ | dsimp only | split | (simp (maxDischargeDepth := 40) only [keeps_trustFail, keeps_docRead, keeps_setQuote, keeps_ite, keeps_mk, keeps_foldl, keeps_refl, hk]; done))

theorem keeps_moveLifecycle (r0 : State) (s : State) (goal : BitVec 8) (hk : Keeps r0 s) : Keeps r0 (moveLifecycle s goal) := by
  refine keeps_raise _ _ _ _ _ _ ⟨hk.pending, hk.mem, hk.log, hk.ready, fun b => ?_, fun _ h => ?_⟩
  · simp [hk.blown b]
  · rcases h with h | h <;> simp only at h <;> simp [h]

theorem keeps_ownerProvision (r0 : State) (s : State) (body : List Byte) (hk : Keeps r0 s) : Keeps r0 (ownerProvision s body).1 := by
  unfold ownerProvision
  repeat' (first | with_reducible exact hk | with_reducible exact keeps_refl _ | exact trivial | exact (fun u => keeps_refl u) | with_reducible apply keeps_trustFail | with_reducible apply keeps_rejectSig | with_reducible apply keeps_moveLifecycle | with_reducible apply keeps_ite | with_reducible apply keeps_foldl | intro _ | dsimp only | split | (simp (maxDischargeDepth := 40) only [keeps_mk, hk]; done))

theorem keeps_newChallenge (r0 : State) (s : State) (hk : Keeps r0 s) : Keeps r0 (newChallenge s).1 := by
  unfold newChallenge
  simp (maxDischargeDepth := 40) only [keeps_mk, hk]

theorem keeps_unlockMove (r0 : State) (s : State) (body : List Byte) (hk : Keeps r0 s) : Keeps r0 (unlockMove s body).1 := by
  unfold unlockMove
  repeat' (first | with_reducible exact hk | with_reducible exact keeps_refl _ | exact trivial | exact (fun u => keeps_refl u) | with_reducible apply keeps_trustFail | with_reducible apply keeps_rejectSig | with_reducible apply keeps_moveLifecycle | with_reducible apply keeps_ite | with_reducible apply keeps_foldl | intro _ | dsimp only | split | (simp (maxDischargeDepth := 40) only [keeps_mk, hk]; done))

theorem keeps_debugUnlock (r0 : State) (s : State) (body : List Byte) (hk : Keeps r0 s) : Keeps r0 (debugUnlock s body).1 := by
  unfold debugUnlock
  (repeat' split) <;> simp (maxDischargeDepth := 40) only [keeps_newChallenge, keeps_unlockMove, hk]

theorem keeps_installFirmware (r0 : State) (s : State) (slot : Nat) (hk : Keeps r0 s) : Keeps r0 (installFirmware s slot).1 := by
  unfold installFirmware
  repeat' (first | with_reducible exact hk | with_reducible exact keeps_refl _ | exact trivial | exact (fun u => keeps_refl u) | with_reducible apply keeps_rejectSig | with_reducible apply keeps_ite | with_reducible apply keeps_foldl | intro _ | dsimp only | split | (simp (maxDischargeDepth := 40) only [keeps_mk, hk]; done))

theorem keeps_lockedOp (r0 : State) (s : State) (t : Tap) (hk : Keeps r0 s) : Keeps r0 (lockedOp s t) := by
  unfold lockedOp
  simp (maxDischargeDepth := 40) only [keeps_ite, keeps_mk, hk]

theorem keeps_execTestAccessPort (op : TapOp) (s : State) (t : State) (e : execTestAccessPort op s = .next t) : Keeps s t := by
  have hk : Keeps s s := keeps_refl _
  simp only [execTestAccessPort, Host.Outcome.next.injEq] at e
  subst e
  (repeat' split) <;> simp (maxDischargeDepth := 40) only [keeps_lockedOp, keeps_mk, keeps_refl]

theorem keeps_nvCommit (r0 : State) (s : State) (hk : Keeps r0 s) : Keeps r0 (nvCommit s) := by
  unfold nvCommit
  simp (maxDischargeDepth := 40) only [keeps_raise, keeps_mk, hk]

theorem keeps_factoryRestore (r0 : State) (s : State) (which : Nat) (hk : Keeps r0 s) : Keeps r0 (factoryRestore s which) := by
  unfold factoryRestore
  simp (maxDischargeDepth := 40) only [keeps_mk, hk]

theorem keeps_profileStore (r0 : State) (s : State) (p : Nat) (hk : Keeps r0 s) : Keeps r0 (profileStore s p) := by
  unfold profileStore
  simp (maxDischargeDepth := 40) only [keeps_mk, hk]

theorem keeps_runBegin (r0 : State) (s : State) (hk : Keeps r0 s) : Keeps r0 (runBegin s) := by
  unfold runBegin
  simp (maxDischargeDepth := 40) only [keeps_mk, hk]

theorem keeps_portReset (r0 : State) (s : State) (p : Nat) (hk : Keeps r0 s) : Keeps r0 (portReset s p) := by
  unfold portReset
  simp (maxDischargeDepth := 40) only [keeps_setPort, keeps_mk, hk]

theorem keeps_portsOpen (r0 : State) (s : State) (hk : Keeps r0 s) : Keeps r0 (portsOpen s) := by
  unfold portsOpen
  repeat' (first | with_reducible exact hk | with_reducible exact keeps_refl _ | exact trivial | exact (fun u => keeps_refl u) | with_reducible apply keeps_modPort | with_reducible apply keeps_armTrained | with_reducible apply keeps_ite | with_reducible apply keeps_foldl | intro _ | dsimp only | split | (simp (maxDischargeDepth := 40) only [keeps_modPort, keeps_armTrained, keeps_ite, keeps_mk, keeps_foldl, keeps_refl, hk]; done))

theorem keeps_groupRead (r0 : State) (s : State) (arg : Nat) (hk : Keeps r0 s) : Keeps r0 (groupRead s arg).1 := by
  unfold groupRead
  repeat' (first | with_reducible exact hk | with_reducible exact keeps_refl _ | exact trivial | exact (fun u => keeps_refl u) | with_reducible apply keeps_collRead | with_reducible apply keeps_ite | with_reducible apply keeps_foldl | intro _ | dsimp only | split | (simp (maxDischargeDepth := 40) only [keeps_collRead, keeps_ite, keeps_mk, keeps_foldl, keeps_refl, hk]; done))

theorem keeps_groupInstall (r0 : State) (s : State) (arg : Nat) (ws : List Nat) (hk : Keeps r0 s) : Keeps r0 (groupInstall s arg ws) := by
  unfold groupInstall
  simp (maxDischargeDepth := 40) only [keeps_mk, hk]

theorem keeps_graftLoad (r0 : State) (s : State) (arg : Nat) (hk : Keeps r0 s) : Keeps r0 (graftLoad s arg) := by
  unfold graftLoad
  simp (maxDischargeDepth := 40) only [keeps_rejectSig, keeps_ite, keeps_mk, hk]

theorem keeps_graftDone (r0 : State) (s : State) (g : GraftLoad) (hk : Keeps r0 s) : Keeps r0 (graftDone s g) := by
  unfold graftDone
  simp (maxDischargeDepth := 40) only [keeps_mk, hk]

theorem keeps_commandNow (r0 : State) (s : State) (sub arg : Nat) (hk : Keeps r0 s) : Keeps r0 (commandNow s sub arg) := by
  unfold commandNow
  (repeat' split) <;> simp (maxDischargeDepth := 40) only [keeps_runBegin, keeps_portReset, keeps_portsOpen, keeps_mk, hk]

theorem keeps_commandStart (r0 : State) (s : State) (sub arg : Nat) (hk : Keeps r0 s) : Keeps r0 (commandStart s sub arg) := by
  unfold commandStart
  (repeat' split) <;> simp (maxDischargeDepth := 40) only [keeps_beginCrownReset, keeps_graftLoad, hk]

theorem keeps_runCommand (r0 : State) (s : State) (h : ConasHdr) (sub : Nat) (bs : List Byte) (hk : Keeps r0 s) : Keeps r0 (runCommand s h sub bs).1 := by
  unfold runCommand
  repeat' (first | with_reducible exact hk | with_reducible exact keeps_refl _ | exact trivial | exact (fun u => keeps_refl u) | with_reducible apply keeps_setCmdStatus | with_reducible apply keeps_commandNow | with_reducible apply keeps_commandStart | with_reducible apply keeps_ite | with_reducible apply keeps_foldl | intro _ | dsimp only | split | (simp (maxDischargeDepth := 40) only [keeps_mk, hk]; done))

theorem keeps_completion (s0 : State) (s : State) (p : PendCmd) (h : Keeps s0 s) (r : State × Nat)
    (e : completion s p = some r) : Keeps s0 r.1 := by
  have hg := keeps_groupRead s0 s (ofLe p.arg) h
  unfold completion at e
  simp only at e
  (repeat' split at e) <;> first
    | (injection e with e; subst e
       first
         | with_reducible exact h
         | with_reducible exact keeps_nvCommit _ _ h
         | with_reducible exact keeps_factoryRestore _ _ _ h
         | with_reducible exact keeps_profileStore _ _ _ h
         | (simp only [‹groupRead s (ofLe p.arg) = _›] at hg; first | with_reducible exact hg | with_reducible exact keeps_groupInstall _ _ _ _ hg)
         | with_reducible exact keeps_graftDone _ _ _ h
         | with_reducible exact keeps_installFirmware _ _ _ h
         | with_reducible exact keeps_mk _ _ h _ _ _ _ _ _ _ _ _ _ _ _ _ _ _ _ _ _ _ rfl rfl rfl rfl)
    | simp at e

theorem keeps_execCmdDone (s : State) (t : State) (e : execCmdDone s = .next t) : Keeps s t := by
  simp only [execCmdDone, Host.Outcome.next.injEq] at e
  subst e
  split
  · split
    · exact keeps_finishCmd _ _ _ _ (keeps_completion _ _ _ (keeps_refl s) _ ‹_›)
    · exact keeps_refl s
  · exact keeps_refl s

theorem keeps_performWrite (r0 : State) (s : State) (h : ConasHdr) (body : List Byte) (hk : Keeps r0 s) : Keeps r0 (performWrite s h body).1 := by
  unfold performWrite
  (repeat' split) <;> simp (maxDischargeDepth := 40) only [keeps_writeObject, keeps_runCommand, hk]

theorem keeps_perform (r0 : State) (s : State) (h : ConasHdr) (code : Nat) (body : List Byte) (hk : Keeps r0 s) : Keeps r0 (perform s h code body).1 := by
  unfold perform
  (repeat' split) <;> simp (maxDischargeDepth := 40) only [keeps_openSession, keeps_closeSession, keeps_readObject, keeps_readEvents, keeps_getIdentity, keeps_getQuote, keeps_ownerProvision, keeps_debugUnlock, keeps_performWrite, hk]

theorem keeps_accepted (r0 : State) (s : State) (h : ConasHdr) (code : Nat) (body : List Byte) (hk : Keeps r0 s) : Keeps r0 (accepted s h code body) := by
  unfold accepted
  repeat' (first | with_reducible exact hk | with_reducible exact keeps_refl _ | exact trivial | exact (fun u => keeps_refl u) | with_reducible apply keeps_sendRsp | with_reducible apply keeps_setSession | with_reducible apply keeps_perform | with_reducible apply keeps_ite | with_reducible apply keeps_foldl | intro _ | dsimp only | split | (simp (maxDischargeDepth := 40) only [keeps_sendRsp, keeps_setSession, keeps_perform, keeps_ite, keeps_mk, keeps_foldl, keeps_refl, hk]; done))

theorem keeps_serve (r0 : State) (s0 : State) (h : ConasHdr) (code : Nat) (body : List Byte) (hk : Keeps r0 s0) : Keeps r0 (serve s0 h code body) := by
  unfold serve
  repeat' (first | with_reducible exact hk | with_reducible exact keeps_refl _ | exact trivial | exact (fun u => keeps_refl u) | with_reducible apply keeps_refuse | with_reducible apply keeps_sendRsp | with_reducible apply keeps_violate | with_reducible apply keeps_discardMgmt | with_reducible apply keeps_acceptMsg | with_reducible apply keeps_accepted | with_reducible apply keeps_ite | with_reducible apply keeps_foldl | intro _ | dsimp only | split | (simp (maxDischargeDepth := 40) only [keeps_mk, hk]; done))

theorem keeps_serveWrite (r0 : State) (s : State) (ix sub : Nat) (q : CmdReq) (hk : Keeps r0 s) : Keeps r0 (serveWrite s ix sub q) := by
  unfold serveWrite
  simp (maxDischargeDepth := 40) only [keeps_serve, hk]

theorem keeps_execSessionOpen (q : Conas) (s : State) (t : State) (e : execSessionOpen q s = .next t) : Keeps s t := by
  have hk : Keeps s s := keeps_refl _
  simp only [execSessionOpen, Host.Outcome.next.injEq] at e
  subst e
  simp (maxDischargeDepth := 40) only [keeps_serve, keeps_refl]

theorem keeps_execSessionClose (q : Conas) (s : State) (t : State) (e : execSessionClose q s = .next t) : Keeps s t := by
  have hk : Keeps s s := keeps_refl _
  simp only [execSessionClose, Host.Outcome.next.injEq] at e
  subst e
  simp (maxDischargeDepth := 40) only [keeps_serve, keeps_refl]

theorem keeps_execOdRead (q : OdReq) (s : State) (t : State) (e : execOdRead q s = .next t) : Keeps s t := by
  have hk : Keeps s s := keeps_refl _
  simp only [execOdRead, Host.Outcome.next.injEq] at e
  subst e
  simp (maxDischargeDepth := 40) only [keeps_serve, keeps_refl]

theorem keeps_execOdWrite (q : OdReq) (s : State) (t : State) (e : execOdWrite q s = .next t) : Keeps s t := by
  have hk : Keeps s s := keeps_refl _
  simp only [execOdWrite, Host.Outcome.next.injEq] at e
  subst e
  simp (maxDischargeDepth := 40) only [keeps_serve, keeps_refl]

theorem keeps_execGroveId (q : CmdReq) (s : State) (t : State) (e : execGroveId q s = .next t) : Keeps s t := by
  have hk : Keeps s s := keeps_refl _
  simp only [execGroveId, Host.Outcome.next.injEq] at e
  subst e
  simp (maxDischargeDepth := 40) only [keeps_serveWrite, keeps_refl]

theorem keeps_execAlertAckSeq (q : CmdReq) (s : State) (t : State) (e : execAlertAckSeq q s = .next t) : Keeps s t := by
  have hk : Keeps s s := keeps_refl _
  simp only [execAlertAckSeq, Host.Outcome.next.injEq] at e
  subst e
  simp (maxDischargeDepth := 40) only [keeps_serveWrite, keeps_refl]

theorem keeps_execGovPowerBudget (q : CmdReq) (s : State) (t : State) (e : execGovPowerBudget q s = .next t) : Keeps s t := by
  have hk : Keeps s s := keeps_refl _
  simp only [execGovPowerBudget, Host.Outcome.next.injEq] at e
  subst e
  simp (maxDischargeDepth := 40) only [keeps_serveWrite, keeps_refl]

theorem keeps_execGovStepsPermitted (q : CmdReq) (s : State) (t : State) (e : execGovStepsPermitted q s = .next t) : Keeps s t := by
  have hk : Keeps s s := keeps_refl _
  simp only [execGovStepsPermitted, Host.Outcome.next.injEq] at e
  subst e
  simp (maxDischargeDepth := 40) only [keeps_serveWrite, keeps_refl]

theorem keeps_execEventRead (q : Conas) (s : State) (t : State) (e : execEventRead q s = .next t) : Keeps s t := by
  have hk : Keeps s s := keeps_refl _
  simp only [execEventRead, Host.Outcome.next.injEq] at e
  subst e
  simp (maxDischargeDepth := 40) only [keeps_serve, keeps_refl]

theorem keeps_execEventsSuppressed (s : State) (t : State) (e : execEventsSuppressed s = .next t) : Keeps s t := by
  have hk : Keeps s s := keeps_refl _
  simp only [execEventsSuppressed, Host.Outcome.next.injEq] at e
  subst e
  simp (maxDischargeDepth := 40) only [keeps_rollSecond, keeps_flushSuppressed, keeps_ite, keeps_refl]

theorem keeps_execTrustGetIdentity (q : Conas) (s : State) (t : State) (e : execTrustGetIdentity q s = .next t) : Keeps s t := by
  have hk : Keeps s s := keeps_refl _
  simp only [execTrustGetIdentity, Host.Outcome.next.injEq] at e
  subst e
  simp (maxDischargeDepth := 40) only [keeps_serve, keeps_refl]

theorem keeps_execQuoteBuild (q : Conas) (s : State) (t : State) (e : execQuoteBuild q s = .next t) : Keeps s t := by
  have hk : Keeps s s := keeps_refl _
  simp only [execQuoteBuild, Host.Outcome.next.injEq] at e
  subst e
  simp (maxDischargeDepth := 40) only [keeps_serve, keeps_ite, keeps_refl]

theorem keeps_execQuoteRead (q : Conas) (s : State) (t : State) (e : execQuoteRead q s = .next t) : Keeps s t := by
  have hk : Keeps s s := keeps_refl _
  simp only [execQuoteRead, Host.Outcome.next.injEq] at e
  subst e
  simp (maxDischargeDepth := 40) only [keeps_serve, keeps_ite, keeps_refl]

theorem keeps_execTrustOwnerProvision (q : Conas) (s : State) (t : State) (e : execTrustOwnerProvision q s = .next t) : Keeps s t := by
  have hk : Keeps s s := keeps_refl _
  simp only [execTrustOwnerProvision, Host.Outcome.next.injEq] at e
  subst e
  simp (maxDischargeDepth := 40) only [keeps_serve, keeps_refl]

theorem keeps_execDebugUnlockChallenge (q : Conas) (s : State) (t : State) (e : execDebugUnlockChallenge q s = .next t) : Keeps s t := by
  have hk : Keeps s s := keeps_refl _
  simp only [execDebugUnlockChallenge, Host.Outcome.next.injEq] at e
  subst e
  simp (maxDischargeDepth := 40) only [keeps_serve, keeps_ite, keeps_refl]

theorem keeps_execDebugUnlockTransition (q : Conas) (s : State) (t : State) (e : execDebugUnlockTransition q s = .next t) : Keeps s t := by
  have hk : Keeps s s := keeps_refl _
  simp only [execDebugUnlockTransition, Host.Outcome.next.injEq] at e
  subst e
  simp (maxDischargeDepth := 40) only [keeps_serve, keeps_ite, keeps_refl]

theorem keeps_execNvCommit (q : CmdReq) (s : State) (t : State) (e : execNvCommit q s = .next t) : Keeps s t := by
  have hk : Keeps s s := keeps_refl _
  simp only [execNvCommit, Host.Outcome.next.injEq] at e
  subst e
  simp (maxDischargeDepth := 40) only [keeps_serveWrite, keeps_refl]

theorem keeps_execFactoryRestore (q : CmdReq) (s : State) (t : State) (e : execFactoryRestore q s = .next t) : Keeps s t := by
  have hk : Keeps s s := keeps_refl _
  simp only [execFactoryRestore, Host.Outcome.next.injEq] at e
  subst e
  simp (maxDischargeDepth := 40) only [keeps_serveWrite, keeps_refl]

theorem keeps_execProfileSelect (q : CmdReq) (s : State) (t : State) (e : execProfileSelect q s = .next t) : Keeps s t := by
  have hk : Keeps s s := keeps_refl _
  simp only [execProfileSelect, Host.Outcome.next.injEq] at e
  subst e
  simp (maxDischargeDepth := 40) only [keeps_serveWrite, keeps_refl]

theorem keeps_execProfileStore (q : CmdReq) (s : State) (t : State) (e : execProfileStore q s = .next t) : Keeps s t := by
  have hk : Keeps s s := keeps_refl _
  simp only [execProfileStore, Host.Outcome.next.injEq] at e
  subst e
  simp (maxDischargeDepth := 40) only [keeps_serveWrite, keeps_refl]

theorem keeps_execProfileClear (q : CmdReq) (s : State) (t : State) (e : execProfileClear q s = .next t) : Keeps s t := by
  have hk : Keeps s s := keeps_refl _
  simp only [execProfileClear, Host.Outcome.next.injEq] at e
  subst e
  simp (maxDischargeDepth := 40) only [keeps_serveWrite, keeps_refl]

theorem keeps_execCrownReset (q : CmdReq) (s : State) (t : State) (e : execCrownReset q s = .next t) : Keeps s t := by
  have hk : Keeps s s := keeps_refl _
  simp only [execCrownReset, Host.Outcome.next.injEq] at e
  subst e
  simp (maxDischargeDepth := 40) only [keeps_serveWrite, keeps_refl]

theorem keeps_execPortReset (q : CmdReq) (s : State) (t : State) (e : execPortReset q s = .next t) : Keeps s t := by
  have hk : Keeps s s := keeps_refl _
  simp only [execPortReset, Host.Outcome.next.injEq] at e
  subst e
  simp (maxDischargeDepth := 40) only [keeps_serveWrite, keeps_refl]

theorem keeps_execPortsOpen (q : CmdReq) (s : State) (t : State) (e : execPortsOpen q s = .next t) : Keeps s t := by
  have hk : Keeps s s := keeps_refl _
  simp only [execPortsOpen, Host.Outcome.next.injEq] at e
  subst e
  simp (maxDischargeDepth := 40) only [keeps_serveWrite, keeps_refl]

theorem keeps_execRunBegin (q : CmdReq) (s : State) (t : State) (e : execRunBegin q s = .next t) : Keeps s t := by
  have hk : Keeps s s := keeps_refl _
  simp only [execRunBegin, Host.Outcome.next.injEq] at e
  subst e
  simp (maxDischargeDepth := 40) only [keeps_serveWrite, keeps_refl]

theorem keeps_execGroupInstall (q : CmdReq) (s : State) (t : State) (e : execGroupInstall q s = .next t) : Keeps s t := by
  have hk : Keeps s s := keeps_refl _
  simp only [execGroupInstall, Host.Outcome.next.injEq] at e
  subst e
  simp (maxDischargeDepth := 40) only [keeps_serveWrite, keeps_refl]

theorem keeps_execGroupRemove (q : CmdReq) (s : State) (t : State) (e : execGroupRemove q s = .next t) : Keeps s t := by
  have hk : Keeps s s := keeps_refl _
  simp only [execGroupRemove, Host.Outcome.next.injEq] at e
  subst e
  simp (maxDischargeDepth := 40) only [keeps_serveWrite, keeps_refl]

theorem keeps_execGraftLoad (q : CmdReq) (s : State) (t : State) (e : execGraftLoad q s = .next t) : Keeps s t := by
  have hk : Keeps s s := keeps_refl _
  simp only [execGraftLoad, Host.Outcome.next.injEq] at e
  subst e
  simp (maxDischargeDepth := 40) only [keeps_serveWrite, keeps_refl]

theorem keeps_execDefectClear (q : CmdReq) (s : State) (t : State) (e : execDefectClear q s = .next t) : Keeps s t := by
  have hk : Keeps s s := keeps_refl _
  simp only [execDefectClear, Host.Outcome.next.injEq] at e
  subst e
  simp (maxDischargeDepth := 40) only [keeps_serveWrite, keeps_refl]

theorem keeps_execFwInstall (q : CmdReq) (s : State) (t : State) (e : execFwInstall q s = .next t) : Keeps s t := by
  have hk : Keeps s s := keeps_refl _
  simp only [execFwInstall, Host.Outcome.next.injEq] at e
  subst e
  simp (maxDischargeDepth := 40) only [keeps_serveWrite, keeps_refl]

theorem keeps_takeResp (r0 : State) (s : State) (op : Nat) (r : Resp) (hk : Keeps r0 s) : Keeps r0 (takeResp s op r) := by
  unfold takeResp
  simp (maxDischargeDepth := 40) only [keeps_mk, hk]

theorem keeps_keepResp (r0 : State) (s : State) (op : Nat) (r : Resp) (hk : Keeps r0 s) : Keeps r0 (keepResp s op r) := by
  unfold keepResp
  simp (maxDischargeDepth := 40) only [keeps_ite, keeps_mk, hk]

theorem keeps_discardResp (r0 : State) (s : State) (r : Resp) (hk : Keeps r0 s) : Keeps r0 (discardResp s r) := by
  unfold discardResp
  (repeat' split) <;> simp (maxDischargeDepth := 40) only [keeps_mk, hk]

theorem keeps_receiveResp (r0 : State) (s : State) (op : Nat) (r : Resp) (use : State → State) (hk : Keeps r0 s) (huse : ∀ u, Keeps u (use u)) : Keeps r0 (receiveResp s op r use) := by
  unfold receiveResp
  repeat' (first | with_reducible exact hk | with_reducible exact keeps_refl _ | exact trivial | exact (fun u => keeps_refl u) | exact keeps_trans _ _ _ (by simp (maxDischargeDepth := 40) only [keeps_takeResp, keeps_keepResp, keeps_discardResp, keeps_ite, keeps_mk, keeps_foldl, keeps_refl, hk]) (huse _) | with_reducible apply keeps_takeResp | with_reducible apply keeps_keepResp | with_reducible apply keeps_discardResp | with_reducible apply keeps_ite | with_reducible apply keeps_foldl | intro _ | dsimp only | split | (simp (maxDischargeDepth := 40) only [keeps_takeResp, hk]; done))

theorem keeps_refuseLoad (r0 : State) (s : State) (l : Nat) (p : PendLoad) (hk : Keeps r0 s) : Keeps r0 (refuseLoad s l p) := by
  unfold refuseLoad
  simp (maxDischargeDepth := 40) only [keeps_modLeaf, keeps_leafFault, keeps_ite, hk]

theorem keeps_refuseRem (r0 : State) (s : State) (l : Nat) (r : RemOp) (code : Nat) (hk : Keeps r0 s) : Keeps r0 (refuseRem s l r code) := by
  unfold refuseRem
  simp (maxDischargeDepth := 40) only [keeps_modLeaf, hk]

theorem keeps_execAck (r : Resp) (s : State) (t : State) (e : execAck r s = .next t) : Keeps s t := by
  have hk : Keeps s s := keeps_refl _
  simp only [execAck, Host.Outcome.next.injEq] at e
  subst e
  repeat' (first | with_reducible exact hk | with_reducible exact keeps_refl _ | exact trivial | exact (fun u => keeps_refl u) | with_reducible apply keeps_modLeaf | with_reducible apply keeps_pieceDone | with_reducible apply keeps_discardResp | with_reducible apply keeps_receiveResp | with_reducible apply resKeeps_ite | with_reducible apply resKeeps_done | with_reducible apply resKeeps_hold | with_reducible apply resKeeps_jump | with_reducible apply resKeeps_faultIn | with_reducible apply keeps_ite | with_reducible apply keeps_foldl | intro _ | dsimp only | split | (simp (maxDischargeDepth := 40) only [keeps_modLeaf, keeps_pieceDone, keeps_discardResp, keeps_receiveResp, keeps_ite, keeps_mk, keeps_foldl, keeps_refl, hk, resKeeps_ite, resKeeps_done, resKeeps_hold, resKeeps_jump, resKeeps_faultIn, resKeeps_block, resKeeps_fault]; done))

theorem keeps_execData (r : Resp) (s : State) (t : State) (e : execData r s = .next t) : Keeps s t := by
  have hk : Keeps s s := keeps_refl _
  simp only [execData, Host.Outcome.next.injEq] at e
  subst e
  repeat' (first | with_reducible exact hk | with_reducible exact keeps_refl _ | exact trivial | exact (fun u => keeps_refl u) | with_reducible apply keeps_modLeaf | with_reducible apply keeps_pieceDone | with_reducible apply keeps_discardResp | with_reducible apply keeps_receiveResp | with_reducible apply resKeeps_ite | with_reducible apply resKeeps_done | with_reducible apply resKeeps_hold | with_reducible apply resKeeps_jump | with_reducible apply resKeeps_faultIn | with_reducible apply keeps_ite | with_reducible apply keeps_foldl | intro _ | dsimp only | split | (simp (maxDischargeDepth := 40) only [keeps_modLeaf, keeps_pieceDone, keeps_discardResp, keeps_receiveResp, keeps_ite, keeps_mk, keeps_foldl, keeps_refl, hk, resKeeps_ite, resKeeps_done, resKeeps_hold, resKeeps_jump, resKeeps_faultIn, resKeeps_block, resKeeps_fault]; done))

theorem keeps_refusedAt (s0 : State) (s : State) (ep : Nat) (tag : BitVec 15) (code : Nat) (h : Keeps s0 s) (u : State)
    (e : refusedAt s ep tag code = some u) : Keeps s0 u := by
  unfold refusedAt at e
  (repeat' split at e) <;> first
    | (injection e with e; subst e
       first
         | exact keeps_refuseRem _ _ _ _ _ h
         | exact keeps_refuseLoad _ _ _ _ h
         | exact keeps_pieceDone _ _ _ _ _ _ h)
    | simp at e

theorem keeps_execNak (r : Resp) (s : State) (t : State) (e : execNak r s = .next t) : Keeps s t := by
  simp only [execNak, Host.Outcome.next.injEq] at e
  subst e
  refine keeps_receiveResp _ _ _ _ _ (keeps_refl s) (fun u => ?_)
  split
  · exact keeps_collTry _ _ _ _ (keeps_refl u) (fun v => keeps_collNak _ _ _ (keeps_refl v))
      (fun v => keeps_keepResp _ _ _ _ (keeps_refl v))
  · split
    · exact keeps_refusedAt _ _ _ _ _ (keeps_refl u) _ ‹_›
    · exact keeps_discardResp _ _ _ (keeps_refl u)

theorem keeps_execResponseTimeout (ep tag : Nat) (s : State) (t : State) (e : execResponseTimeout ep tag s = .next t) :
    Keeps s t := by
  simp only [execResponseTimeout, Host.Outcome.next.injEq] at e
  subst e
  split
  · exact keeps_refl _
  · rename_i a _
    have h2 (c u d p : Nat) : Keeps s (raise { s with net := { s.net with
        refusals := mmod 0 s.net.refusals 0x0C (fun n => sat32 (n + 1)) } } c u d p) :=
      keeps_raise _ _ _ _ _ _ (keeps_mk _ _ (keeps_refl s) _ _ _ _ _ _ _ _ _ _ _ _ _ _ _ _ _ _ _ rfl rfl rfl rfl)
    split
    · exact keeps_refusedAt _ _ _ _ _ (h2 _ _ _ _) _ ‹_›
    · exact h2 _ _ _ _

theorem keeps_after (s0 : State) (f : State → Out) (s : State) (h : Keeps s0 s) (hf : ∀ t, f s = .next t → Keeps s t) :
    Keeps s0 (after f s) := by
  unfold after
  split
  · exact keeps_trans _ _ _ h (hf _ ‹_›)
  · exact h

theorem keeps_eachLeaf (s0 : State) (f : Nat → State → State) (s : State) (h : Keeps s0 s) (hf : ∀ u l, Keeps u (f l u)) :
    Keeps s0 (eachLeaf f s) := keeps_foldl _ _ _ _ (fun u p => hf u p.1) h

theorem keeps_eachColumn (s0 : State) (f : Nat → State → State) (s : State) (h : Keeps s0 s) (hf : ∀ u c, Keeps u (f c u)) :
    Keeps s0 (eachColumn f s) := keeps_foldl _ _ _ _ (fun u p => hf u p.1) h

theorem keeps_times (s0 : State) (n : Nat) (f : State → State) (s : State) (h : Keeps s0 s) (hf : ∀ u, Keeps u (f u)) :
    Keeps s0 (times n f s) := keeps_foldl _ _ _ _ (fun u _ => hf u) h

theorem keeps_creditsDue (r0 : State) (l : Nat) (s : State) (hk : Keeps r0 s) : Keeps r0 (creditsDue l s) := by
  unfold creditsDue
  repeat' (first | with_reducible exact hk | with_reducible exact keeps_refl _ | with_reducible apply keeps_after | with_reducible apply keeps_eachLeaf | with_reducible apply keeps_eachColumn | with_reducible apply keeps_times | with_reducible exact fun t e => keeps_execFlowCreditReturn _ _ _ t e | with_reducible apply keeps_ite | with_reducible apply keeps_foldl | (with_reducible apply keeps_mk <;> first | rfl | skip) | intro _ | dsimp only | split)

theorem keeps_fabricCycle (r0 : State) (s : State) (hk : Keeps r0 s) : Keeps r0 (fabricCycle s) := by
  unfold fabricCycle
  repeat' (first | with_reducible exact hk | with_reducible exact keeps_refl _ | with_reducible apply keeps_after | with_reducible apply keeps_eachLeaf | with_reducible apply keeps_eachColumn | with_reducible apply keeps_times | with_reducible apply keeps_creditsDue | with_reducible exact fun t e => keeps_execGroupCycleAdvance _ _ t e | with_reducible exact fun t e => keeps_execSlotComplete _ _ t e | with_reducible exact fun t e => keeps_execGoArrival _ _ t e | with_reducible exact fun t e => keeps_execRejoin _ _ t e | with_reducible exact fun t e => keeps_execFlowTransfer _ _ t e | with_reducible exact fun t e => keeps_execRingMarker _ _ t e | with_reducible exact fun t e => keeps_execNextSlotCurrent _ _ t e | with_reducible apply keeps_ite | with_reducible apply keeps_foldl | (with_reducible apply keeps_mk <;> first | rfl | skip) | intro _ | dsimp only | split)

theorem keeps_idxCycle (r0 : State) (l : Nat) (s : State) (hk : Keeps r0 s) : Keeps r0 (idxCycle l s) := by
  unfold idxCycle
  dsimp only
  split
  · with_reducible exact hk
  · refine keeps_modLeaf _ _ _ _ (keeps_foldl _ _ _ _ (fun u b => ?_) hk)
    split
    · with_reducible exact keeps_refl _
    · with_reducible apply keeps_ite
      · with_reducible exact keeps_serveRow _ _ _ _ (keeps_settle _ _ _ _ (keeps_setLeaf _ _ _ _ (keeps_refl _)))
      · with_reducible exact keeps_setLeaf _ _ _ _ (keeps_refl _)

theorem keeps_gatherCycle (r0 : State) (l : Nat) (s : State) (hk : Keeps r0 s) : Keeps r0 (gatherCycle l s) := by
  unfold gatherCycle
  repeat' (first | with_reducible exact hk | with_reducible exact keeps_refl _ | with_reducible apply keeps_after | with_reducible apply keeps_eachLeaf | with_reducible apply keeps_eachColumn | with_reducible apply keeps_times | with_reducible apply keeps_setLeaf | with_reducible apply keeps_drainAsk | with_reducible apply keeps_ite | with_reducible apply keeps_foldl | (with_reducible apply keeps_mk <;> first | rfl | skip) | intro _ | dsimp only | split)

theorem keeps_padCycle (r0 : State) (l : Nat) (s : State) (hk : Keeps r0 s) : Keeps r0 (padCycle l s) := by
  unfold padCycle
  repeat' (first | with_reducible exact hk | with_reducible exact keeps_refl _ | with_reducible apply keeps_after | with_reducible apply keeps_eachLeaf | with_reducible apply keeps_eachColumn | with_reducible apply keeps_times | with_reducible apply keeps_writeDeposit | with_reducible apply keeps_idxCycle | with_reducible apply keeps_gatherCycle | with_reducible exact fun t e => keeps_execCanopyLandingWrite _ _ t e | with_reducible exact fun t e => keeps_execRefill _ _ _ t e | with_reducible apply keeps_ite | with_reducible apply keeps_foldl | (with_reducible apply keeps_mk <;> first | rfl | skip) | intro _ | dsimp only | split)

theorem keeps_flagsDue (r0 : State) (l : Nat) (s : State) (hk : Keeps r0 s) : Keeps r0 (flagsDue l s) := by
  have hq : Keeps r0 (after (execQuietAtHub l) s) := keeps_after _ _ _ hk (fun t e => keeps_execQuietAtHub _ _ t e)
  have hc : Keeps r0 (after (execClearAtHub l) s) := keeps_after _ _ _ hk (fun t e => keeps_execClearAtHub _ _ t e)
  unfold flagsDue
  split
  · with_reducible exact keeps_ite _ _ _ _ (keeps_ite _ _ _ _ hq hc) hk
  · with_reducible exact hk

theorem keeps_leafDue (r0 : State) (l : Nat) (s : State) (hk : Keeps r0 s) : Keeps r0 (leafDue l s) := by
  unfold leafDue
  repeat' (first | with_reducible exact hk | with_reducible exact keeps_refl _ | with_reducible apply keeps_after | with_reducible apply keeps_eachLeaf | with_reducible apply keeps_eachColumn | with_reducible apply keeps_times | with_reducible apply keeps_flagsDue | with_reducible exact fun t e => keeps_execGfincLeaves _ _ t e | with_reducible exact fun t e => keeps_execWaitTimeout _ _ t e | with_reducible exact fun t e => keeps_execReRun _ _ t e | with_reducible exact fun t e => keeps_execQuiet _ _ t e | with_reducible exact fun t e => keeps_execResponseTimeout _ _ _ t e | with_reducible apply keeps_ite | with_reducible apply keeps_foldl | (with_reducible apply keeps_mk <;> first | rfl | skip) | intro _ | dsimp only | split)

theorem keeps_headDue (r0 : State) (c : Nat) (s : State) (hk : Keeps r0 s) : Keeps r0 (headDue c s) := by
  have hl (u : State) (hu : Keeps r0 u) : Keeps r0 (after (execLineLaunch c) u) :=
    keeps_after _ _ _ hu (fun t e => keeps_execLineLaunch _ _ t e)
  have hr : Keeps r0 (after (execDmaRefusedAtHead c) s) := keeps_after _ _ _ hk (fun t e => keeps_execDmaRefusedAtHead _ _ t e)
  have h1 := hl s hk
  have h2 := hl _ h1
  unfold headDue
  split
  · with_reducible exact keeps_ite _ _ _ _ hr (keeps_ite _ _ _ _ h1 h2)
  · with_reducible exact hk

theorem keeps_lineDue (r0 : State) (c : Nat) (s : State) (hk : Keeps r0 s) : Keeps r0 (lineDue c s) := by
  have h : Keeps r0 (after (execLineComplete c .clean) s) := keeps_after _ _ _ hk (fun t e => keeps_execLineComplete _ _ _ t e)
  unfold lineDue
  split
  · with_reducible exact keeps_ite _ _ _ _ h hk
  · with_reducible exact hk

theorem keeps_columnCycle (r0 : State) (c : Nat) (s : State) (hk : Keeps r0 s) : Keeps r0 (columnCycle c s) := by
  unfold columnCycle
  repeat' (first | with_reducible exact hk | with_reducible exact keeps_refl _ | with_reducible apply keeps_after | with_reducible apply keeps_eachLeaf | with_reducible apply keeps_eachColumn | with_reducible apply keeps_times | with_reducible apply keeps_headDue | with_reducible apply keeps_lineDue | with_reducible exact fun t e => keeps_execDmaDescriptorAccept _ _ t e | with_reducible exact fun t e => keeps_execDmaComplete _ _ t e | with_reducible exact fun t e => keeps_execResponseTimeout _ _ _ t e | with_reducible apply keeps_ite | with_reducible apply keeps_foldl | (with_reducible apply keeps_mk <;> first | rfl | skip) | intro _ | dsimp only | split)

theorem keeps_crownCycle (r0 : State) (s : State) (hk : Keeps r0 s) : Keeps r0 (crownCycle s) := by
  unfold crownCycle
  repeat' (first | with_reducible exact hk | with_reducible exact keeps_refl _ | with_reducible apply keeps_after | with_reducible apply keeps_eachLeaf | with_reducible apply keeps_eachColumn | with_reducible apply keeps_times | with_reducible apply keeps_fabricCycle | with_reducible apply keeps_padCycle | with_reducible apply keeps_leafDue | with_reducible apply keeps_columnCycle | with_reducible exact fun t e => keeps_execConfirmationWindowEnd _ _ t e | with_reducible apply keeps_ite | with_reducible apply keeps_foldl | (with_reducible apply keeps_mk <;> first | rfl | skip) | intro _ | dsimp only | split)

theorem keeps_collDue (r0 : State) (s u : State) (hk : Keeps r0 u) : Keeps r0 (collDue s u) := by
  have ht : Keeps r0 (u.coll.waiting.foldl (fun v q => collMsg q.1 q.2 v) u) :=
    keeps_foldl _ _ _ _ (fun v q => keeps_collMsg _ _ _ _ (keeps_refl v)) hk
  refine keeps_foldl _ _ _ _ (fun v k => keeps_after _ _ _ (keeps_after _ _ _ (keeps_refl v)
    (fun t e => keeps_execCollTimeout _ _ t e)) (fun t e => keeps_execSettleLost _ _ t e)) ?_
  split
  · exact ht
  · exact keeps_after _ _ _ ht (fun t e => keeps_execPostTake _ t e)

theorem keeps_rootDue (r0 : State) (s u : State) (hk : Keeps r0 u) : Keeps r0 (rootDue s u) := by
  have h : Keeps r0 ((List.range 4).foldl portDue (flushSuppressed (rollSecond u))) :=
    keeps_foldl _ _ _ _ (fun v p => keeps_portDue _ _ _ (keeps_refl v)) (keeps_flushSuppressed _ _ (keeps_rollSecond _ _ hk))
  unfold rootDue
  dsimp only
  with_reducible exact keeps_after _ _ _ (keeps_after _ _ _ (keeps_after _ _ _ (keeps_collDue _ _ _ h) (fun t e => keeps_execStepPoint _ _ t e))
    (fun t e => keeps_execStepDeadline _ t e)) (fun t e => keeps_execRepairRound _ t e)

theorem keeps_clockCycle (r0 : State) (s : State) (hk : Keeps r0 s) : Keeps r0 (clockCycle s) := by
  unfold clockCycle
  repeat' (first | with_reducible exact hk | with_reducible exact keeps_refl _ | with_reducible apply keeps_after | with_reducible apply keeps_eachLeaf | with_reducible apply keeps_eachColumn | with_reducible apply keeps_times | with_reducible apply keeps_wakeLocal | with_reducible apply keeps_sendFlits | with_reducible apply keeps_crownCycle | with_reducible apply keeps_rootDue | with_reducible apply keeps_ite | with_reducible apply keeps_foldl | (with_reducible apply keeps_mk <;> first | rfl | skip) | intro _ | dsimp only | split)

end Sys2Proof.Machine
end

