-- ==== Sys2Proof/Laws/Leaf.lean ====
section
/-! SUPPORT. Leaf registers, queues and ports read after they are written, and the issue of an instruction. -/
namespace Sys2Proof.Machine

variable (x : Leaf)

/-! ## Registers -/

@[simp] theorem sreg_setS (d n : Nat) (v : Word) :
    sreg (setS x d v) n = if n = d then (if d = 0 then 0 else v) else sreg x n := by
  unfold setS sreg
  by_cases hd : d = 0
  · subst hd; by_cases hn : n = 0 <;> simp [hn]
  · by_cases hn : n = 0
    · subst hn; simp [Ne.symm hd]
    · simp [hd, hn, mget_mset]

@[simp] theorem sreg_markReady (k c n : Nat) : sreg (markReady x k c) n = sreg x n := rfl

@[simp] theorem sreg_writeS (d n : Nat) (v : Word) (c lat : Nat) :
    sreg (writeS x d v c lat) n = if n = d then (if d = 0 then 0 else v) else sreg x n := by
  unfold writeS
  by_cases hd : d = 0
  · subst hd; by_cases hn : n = 0 <;> simp [hn, sreg]
  · simp [hd]

theorem readyAt_writeS (d : Nat) (v : Word) (c lat : Nat) (h : d ≠ 0) :
    mget 0 (writeS x d v c lat).readyAt d = c + lat := by simp [writeS, h, markReady]

/-- A scalar write changes the registers' map and their readiness alone. -/
theorem writeS_rest (d : Nat) (v : Word) (c lat : Nat) :
    writeS x d v c lat = { x with sregs := (writeS x d v c lat).sregs, readyAt := (writeS x d v c lat).readyAt } := by
  unfold writeS setS markReady; split <;> rfl

@[simp] theorem vreg_setV (d n : Nat) (v : Lanes) : vreg (setV x d v) n = if n = d then v else vreg x n := by
  simp [vreg, setV, mget_mset]

@[simp] theorem vreg_writeV (d n : Nat) (v : Lanes) (c lat : Nat) :
    vreg (writeV x d v c lat) n = if n = d then v else vreg x n := vreg_setV x d n v

@[simp] theorem vmask_writeM (d n : Nat) (v : BitVec 16) (c lat : Nat) :
    vmask (writeM x d v c lat) n = if n = d then v else vmask x n := by simp [vmask, writeM, setM, markReady, mget_mset]

theorem getElem_pow8 (d n : Nat) (h : n < 8) : (BitVec.ofNat 8 (2 ^ d))[n] = decide (n = d) := by
  rw [← BitVec.getLsbD_eq_getElem, BitVec.getLsbD_ofNat, Nat.testBit_two_pow]
  simp [h, eq_comm]

@[simp] theorem pget_setP (d n : Nat) (b : Bool) (hd : d < 8) : pget (setP x d b) n = if n = d then b else pget x n := by
  unfold pget setP
  by_cases hn : n < 8
  · have hp := getElem_pow8 d n hn
    generalize BitVec.ofNat 8 (2 ^ d) = m at *
    by_cases e : n = d
    · subst e; cases b <;> simp_all
    · cases b <;> simp_all
  · have hne : n ≠ d := fun e => hn (e ▸ hd)
    simp only [hne, if_false]
    rw [BitVec.getLsbD_of_ge _ n (by omega), BitVec.getLsbD_of_ge _ n (by omega)]

@[simp] theorem agOf_setAg (d n : Nat) (a : AddrGen) : agOf (setAg x d a) n = if n = d then a else agOf x n := by
  simp [agOf, setAg, mget_mset]

@[simp] theorem lane_mkLanes (f : Nat → Word) (i : Nat) (h : i < 16) : lane (mkLanes f) i = f i := by
  simp [lane, mkLanes, h]

/-- Lanes that MK does not select keep their old value (R72). -/
theorem lane_mergeLanes (sel : BitVec 16) (a b : Lanes) (i : Nat) (h : i < 16) :
    lane (mergeLanes sel a b) i = if sel.getLsbD i then lane a i else lane b i := by simp [mergeLanes, h]

/-! ## Queues and ports -/

@[simp] theorem queueOf_setQueue (q r : Nat) (v : Queue) : queueOf (setQueue x q v) r = if r = q then v else queueOf x r := by
  simp [queueOf, setQueue, mget_mset]

@[simp] theorem portToks_setPortToks (p r : Nat) (v : List Tok) :
    portToks (setPortToks x p v) r = if r = p then v else portToks x r := by simp [portToks, setPortToks, mget_mset]

@[simp] theorem queueOf_timedMark (b : Bool) (q : Nat) : queueOf (timedMark x b) q = queueOf x q := by
  unfold timedMark; split <;> rfl

@[simp] theorem timedMark_shadow (b : Bool) : (timedMark x b).step.shadow = x.step.shadow := by
  unfold timedMark; split <;> rfl

/-- Marking timed use changes the step's books alone. -/
theorem timedMark_rest (b : Bool) : timedMark x b = { x with step := (timedMark x b).step } := by
  unfold timedMark; split <;> rfl

@[simp] theorem popQ_shadow (q : Nat) : (popQ x q).step.shadow = x.step.shadow := by simp [popQ, setQueue]

theorem queueOf_popQ (q r : Nat) : queueOf (popQ x q) r = if r = q then poppedQueue x q else queueOf x r := by
  unfold popQ poppedQueue
  by_cases h : x.step.shadow = none <;> simp [h]

/-- A pop changes the queues and the step's books alone. -/
theorem popQ_rest (q : Nat) : popQ x q = { x with queues := (popQ x q).queues, step := (popQ x q).step } := by
  unfold popQ timedMark setQueue; split <;> rfl

theorem popAll_nil : popAll x [] = x := rfl

theorem popAll_cons (q : Nat) (qs : List Nat) : popAll x (q :: qs) = popAll (popQ x q) qs := rfl

@[simp] theorem popAll_shadow (qs : List Nat) : (popAll x qs).step.shadow = x.step.shadow := by
  induction qs generalizing x with
  | nil => rfl
  | cons q r ih => rw [popAll_cons, ih, popQ_shadow]

theorem poppedQueue_popQ (q r : Nat) (h : r ≠ q) : poppedQueue (popQ x q) r = poppedQueue x r := by
  simp [poppedQueue, queueOf_popQ, h]

/-- Queues named once are popped once, the others left. -/
theorem queueOf_popAll (qs : List Nat) (hq : qs.Nodup) (r : Nat) :
    queueOf (popAll x qs) r = if r ∈ qs then poppedQueue x r else queueOf x r := by
  induction qs generalizing x with
  | nil => simp [popAll_nil]
  | cons q t ih =>
    have hnd := List.nodup_cons.mp hq
    rw [popAll_cons, ih _ hnd.2]
    by_cases hr : r = q
    · subst hr; simp [hnd.1, queueOf_popQ]
    · simp only [List.mem_cons, hr, false_or, queueOf_popQ, if_false]
      split
      · rw [poppedQueue_popQ _ _ _ hr]
      · rfl

/-- Pops change the queues and the step's books alone. -/
theorem popAll_rest (qs : List Nat) : popAll x qs = { x with queues := (popAll x qs).queues, step := (popAll x qs).step } := by
  induction qs generalizing x with
  | nil => rfl
  | cons q r ih =>
    have h := popQ_rest x q
    have hz := ih (popQ x q)
    rw [popAll_cons]
    generalize popQ x q = y at *
    generalize popAll y r = z at *
    calc z = { y with queues := z.queues, step := z.step } := hz
      _ = { x with queues := z.queues, step := z.step } := by rw [h]

/-- Pops move no effect count (R106). -/
theorem timedMark_counts (b : Bool) : (timedMark x b).step.seen = x.step.seen ∧ (timedMark x b).step.issued = x.step.issued := by
  unfold timedMark; split <;> exact ⟨rfl, rfl⟩

theorem popQ_counts (q : Nat) : (popQ x q).step.seen = x.step.seen ∧ (popQ x q).step.issued = x.step.issued :=
  timedMark_counts _ _

theorem popAll_counts (qs : List Nat) :
    (popAll x qs).step.seen = x.step.seen ∧ (popAll x qs).step.issued = x.step.issued := by
  induction qs generalizing x with
  | nil => exact ⟨rfl, rfl⟩
  | cons q r ih => rw [popAll_cons]; exact ⟨(ih _).1.trans (popQ_counts x q).1, (ih _).2.trans (popQ_counts x q).2⟩

/-! ## Issue -/

variable {s s1 : State} {l w c : Nat} {g : BitVec 4} {srcs : List Nat} {fp : Bool} {body : State → Nat → Res}

/-- What an issuing leaf's command does is its body's, at the issue cycle. -/
theorem issue_eq (h : issues s l w g srcs fp c = true) :
    issue s l w g srcs fp body = match body s c with
      | .done s1 => advance s1 l c (leafOf s l).pc (decide ((leafOf s l).step.shadow ≠ none))
      | .hold s1 w => stallLeaf s1 l w
      | .jump s1 pc delay => retire s1 l c pc (leafOf s1 l).loops delay (decide ((leafOf s l).step.shadow ≠ none))
      | .block (.stall w) => stallLeaf s l w
      | .block (.fault k) => leafFault (if k = 0x11 then bumpNet s l 22 1 else s) l k (pcOf (leafOf s l)) 0
      | .fault k a => leafFault s l k (pcOf (leafOf s l)) a
      | .faultIn s1 k => leafFault s1 l k (pcOf (leafOf s l)) 0 := by
  simp only [issues, Bool.and_eq_true, decide_eq_true_eq, Bool.not_eq_true'] at h
  obtain ⟨⟨⟨⟨⟨⟨⟨⟨⟨⟨⟨hc, hp⟩, hl⟩, hw⟩, hg⟩, hi⟩, ht⟩, hn⟩, hm⟩, he⟩, hr⟩, ha⟩ := h
  subst hw hn
  have hpc : ¬ ((leafOf s l).pc ≥ fld (mget 0 (leafOf s l).tcode (leafOf s l).task).toNat 16 13) := by omega
  have hi' : ¬ ((leafOf s l).nextIssue > leafNow s (leafOf s l)) := by omega
  simp only [issue, hc, Bool.not_true, Bool.false_eq_true, if_false, hpc, hl, ne_eq, not_true_eq_false, hg, if_true,
    Bool.true_and, he, hr, Bool.or_self, hi', hm, ht, gt_iff_lt, Nat.lt_irrefl, decide_false, ha]
  all_goals rfl

theorem issue_done (h : issues s l w g srcs fp c = true) (hb : body s c = .done s1) :
    issue s l w g srcs fp body = advance s1 l c (leafOf s l).pc (decide ((leafOf s l).step.shadow ≠ none)) := by
  rw [issue_eq h, hb]

/-- The sequencer's step after an instruction (R85), on the leaf. -/
theorem leafOf_advance (p : Nat) (b : Bool) : leafOf (advance s1 l c p b) l =
    { leafOf s1 l with
      pc := (seqNext (leafOf s1 l) p).1, loops := (seqNext (leafOf s1 l) p).2, nextIssue := c + 1, stall := none
      step := (leafOf (advance s1 l c p b) l).step } := by
  simp [advance, retire]

theorem advance_shadow (p : Nat) (b : Bool) :
    (leafOf (advance s1 l c p b) l).step.shadow = (leafOf s1 l).step.shadow := by
  simp only [advance, retire, leafOf_modLeaf]; split <;> rfl

/-- An instruction that leaves leaf `y`, apart from the sequencer's step. -/
theorem issued_of_leaf {y : Leaf} {ds : List Dest} {qs : List Nat} {push : Option (Nat × Tok)} {fl : Nat} {b : Bool}
    (hs : ∀ n, Dest.s n ∉ ds → sreg y n = sreg (leafOf s l) n)
    (hv : ∀ n, Dest.v n ∉ ds → vreg y n = vreg (leafOf s l) n)
    (hp : ∀ n, Dest.p n ∉ ds → pget y n = pget (leafOf s l) n)
    (hm : ∀ n, Dest.m n ∉ ds → vmask y n = vmask (leafOf s l) n)
    (ha : ∀ n, Dest.ag n ∉ ds → agOf y n = agOf (leafOf s l) n)
    (hq : ∀ q, queueOf y q = if q ∈ qs then poppedQueue (leafOf s l) q else queueOf (leafOf s l) q)
    (ht : ∀ p, portToks y p = portToks (leafOf s l) p ++ pushed (leafOf s l) push p)
    (hf : y.vstat = (leafOf s l).vstat ||| BitVec.ofNat 5 fl)
    (hsh : y.step.shadow = (leafOf s l).step.shadow)
    (hr : y = { leafOf s l with
      sregs := y.sregs, vregs := y.vregs, preds := y.preds, masks := y.masks, ags := y.ags, queues := y.queues,
      ports := y.ports, vstat := y.vstat, readyAt := y.readyAt, fpFree := y.fpFree, step := y.step }) :
    Issued s (advance (setLeaf s l y) l c (leafOf s l).pc b) l c ds qs push fl := by
  have hl := leafOf_advance (s1 := setLeaf s l y) (l := l) (c := c) (leafOf s l).pc b
  have hloops : y.loops = (leafOf s l).loops := by rw [hr]
  have hseq : seqNext y (leafOf s l).pc = seqNext (leafOf s l) (leafOf s l).pc := by simp only [seqNext, hloops]
  rw [leafOf_setLeaf] at hl
  exact {
    otherLeaves := fun k hk => by simp only [advance, retire]; rw [leafOf_modLeaf_other _ _ _ _ hk, leafOf_setLeaf_other _ _ _ _ hk]
    otherUnits := rfl
    mem := fun a => rfl
    next := by rw [hl, hseq]
    loops := by rw [hl, hseq]
    nextIssue := by rw [hl]
    sregs := fun n hn => by rw [hl]; exact hs n hn
    vregs := fun n hn => by rw [hl]; exact hv n hn
    preds := fun n hn => by rw [hl]; exact hp n hn
    masks := fun n hn => by rw [hl]; exact hm n hn
    ags := fun n hn => by rw [hl]; exact ha n hn
    pops := fun q => by rw [hl]; exact hq q
    ports := fun p => by rw [hl]; exact ht p
    flags := by rw [hl]; exact hf
    shadow := by rw [advance_shadow, leafOf_setLeaf]; exact hsh
    rest := by
      rw [hl]
      generalize leafOf s l = x at *
      rw [hr] }

/-! ## Loads of words without error -/

theorem foldl_clean (s : State) (l : Nat) (ws : List Nat) (h : ∀ w ∈ ws, (coreWord s l w).2 = (false, false)) (a : Lanes) :
    ws.foldl (fun (r : State × Lanes) w =>
      let c := coreWord s l w
      if c.2 = (false, false) then (r.1, r.2 ++ [c.1])
      else
        let d := draw r.1
        (d.2, r.2 ++ [d.1])) (s, a) = (s, a ++ ws.map (fun w => (coreWord s l w).1)) := by
  induction ws generalizing a with
  | nil => simp
  | cons w r ih =>
    have hw := h w (by simp)
    simp only [List.foldl_cons, hw, if_true, List.map_cons]
    rw [ih (fun v hv => h v (by simp [hv]))]
    simp

/-- Words without parity or poison error arrive as they stand (R121, R155). -/
theorem loadWords_clean (s : State) (l : Nat) (ws : List Nat) (h : ∀ w ∈ ws, (coreWord s l w).2 = (false, false)) :
    loadWords s l ws = (s, ws.map (fun w => (coreWord s l w).1)) := by
  rw [loadWords, foldl_clean s l ws h, List.nil_append]

end Sys2Proof.Machine
end

