-- ==== Sys2Proof/WellFormed.lean ====
section
/-! DEFINITION. Which commands are well formed: every operand names a unit the chiplet has and fits its field. -/
namespace Sys2Proof.WellFormed

/-- A logical leaf index of R8's largest shape. -/
def okLeaf (l : Nat) : Bool := l < 2304

/-- A request's fields fit the header of R354 or R446. -/
def okReq (r : Req) : Bool :=
  r.src < 0x1000 && r.dst < 0x1000 && r.len < 32 && r.vc < 8 && r.via.all (fun p => p < 4) && r.data.length ≤ 64

def okResp (r : Resp) : Bool := r.ep < 0x1000 && r.via.all (fun p => p < 4) && r.len < 32 && r.data.length ≤ 64

def okInc (m : IncMsg) : Bool := m.gc < 4096 && m.amount < 2 ^ 44

/-- As many payload beats as LEN says (R309), damaged at leaves of the chiplet. -/
def okCanopy (p : Canopy) : Bool := p.payload.length = p.lenM1.toNat + 1 && p.hurt.all okLeaf

def okColl (m : CollMsg) : Bool := m.data.length ≤ 256

def okHdr (h : ConasHdr) : Bool := h.length < 2 ^ 16

/-- A finite FP32 value. -/
def okReal (w : Word) : Bool := w.toNat / 2 ^ 23 % 256 ≠ 255

/-- Finite values of 144 crown and 64 heartwood sensors, 144 bough powers, volts and amperes of seven rails (R604). -/
def okReadings (r : Readings) : Bool :=
  r.crown.length = 144 && r.hw.length = 64 && r.bough.length = 144 && r.rails.length = 14
    && (r.crown ++ r.hw ++ r.bough ++ r.rails).all okReal

/-- A KIND of R579. -/
def okSite (x : Site) : Bool := 1 ≤ x.kind.toNat && x.kind.toNat ≤ 10

end Sys2Proof.WellFormed

namespace Sys2Proof

open WellFormed in
/-- The command is well formed. -/
def Instr.wellFormed (i : Instr) : Bool :=
  match i with
  | .porstNAssert => true
  | .porstNRelease _ _ => true
  | .romBoot => true
  | .fwVerify => true
  | .odAssembly => true
  | .profileApply => true
  | .calibration found => found.all okSite
  | .memoryInit retire found => retire.all okSite && found.all okSite
  | .startTest found => found.all okSite
  | .gridBuild => true
  | .crownRstN => true
  | .crownRstNRelease => true
  | .crownResetPhase => true
  | .supplyFault rail => decide (rail < 16)
  | .refclkLoss => true
  | .thermalTrip sensor reading => decide (sensor < 144) && okReal reading
  | .sensorSample r => okReadings r
  | .governorEvaluation => true
  | .stepPoint _ => true
  | .stepDeadline => true
  | .pllRelockDone => true
  | .vcrSlewDone => true
  | .portTrainingComplete port _ _ lanes => decide (port < 4) && decide (lanes.length = 8)
  | .linkTrainingRetry port => decide (port < 4)
  | .linkParam port _ => decide (port < 4)
  | .flitReceive port mod _ flit => decide (port < 4) && decide (mod < 8) && decide (flit.slots.length = 14)
  | .packetForward => true
  | .moduleFailure port mod => decide (port < 4) && decide (mod < 8)
  | .read256 r => okReq r
  | .write256 r => okReq r
  | .read4 r => okReq r
  | .read64 r => okReq r
  | .write4 r => okReq r
  | .write64 r => okReq r
  | .cread r => okReq r
  | .cinc r => okReq r
  | .dpostRequest r => okReq r
  | .ack r => okResp r
  | .data r => okResp r
  | .nak r => okResp r
  | .responseTimeout ep tag => decide (ep < 0x1000) && decide (tag < 0x8000)
  | .remoteIncrement m => okInc m
  | .barrierCombine node gc => decide (node < 161) && decide (gc < 4096)
  | .gfincLeaves l => okLeaf l
  | .watch l => okLeaf l
  | .satisfy l => okLeaf l
  | .waitTimeout l => okLeaf l
  | .cancel l => okLeaf l
  | .value l => okLeaf l
  | .leafStart l => okLeaf l
  | .reRun l => okLeaf l
  | .rejoin l => okLeaf l
  | .gatherDrain l row => okLeaf l && decide (row < 4096)
  | .depositWrite l => okLeaf l
  | .canopyLandingWrite l => okLeaf l
  | .scoreboardRelease l => okLeaf l
  | .cacheFill l _ => okLeaf l
  | .engineOpStart b => decide (b < 144)
  | .engineOpComplete b => decide (b < 144)
  | .engineRefusedAtHead b => decide (b < 144)
  | .dmaDescriptorAccept c => decide (c < 144)
  | .lineLaunch c => decide (c < 144)
  | .lineComplete c _ => decide (c < 144)
  | .dmaComplete c => decide (c < 144)
  | .dmaRefusedAtHead c => decide (c < 144)
  | .refresh c => decide (c < 144)
  | .patrolScrub c _ => decide (c < 144)
  | .correctionWriteBack c => decide (c < 144)
  | .retirementCopy c => decide (c < 144)
  | .groupCycleAdvance l => okLeaf l
  | .slotComplete l => okLeaf l
  | .readyReport l => okLeaf l
  | .go g => decide (g < 16)
  | .goArrival g => decide (g < 16)
  | .spad p => okCanopy p
  | .istore p => okCanopy p
  | .switchNext p => okCanopy p
  | .leafRecord p => okCanopy p
  | .groupPkt p => okCanopy p
  | .endPkt p => okCanopy p
  | .canopyRepairPacket l _ p => okLeaf l && okCanopy p
  | .repairRound => true
  | .flowTransfer l => okLeaf l
  | .flowCreditReturn l sink => okLeaf l && decide (sink < 18)
  | .ringMarker l => okLeaf l
  | .nextSlotCurrent l => okLeaf l
  | .refill l q => okLeaf l && decide (q < 8)
  | .join l => okLeaf l
  | .leave l => okLeaf l
  | .quiet l => okLeaf l
  | .quietAtHub l => okLeaf l
  | .clearAtHub l => okLeaf l
  | .confirmationWindowEnd g => decide (g < 16)
  | .spill l => okLeaf l
  | .answer g => decide (g < 16)
  | .abort l => okLeaf l
  | .unitFailure site => okSite site
  | .crownDown core => decide (core < 5)
  | .postTake => true
  | .grant m => okColl m
  | .contrib m => okColl m
  | .result m => okColl m
  | .small m => okColl m
  | .confirm m => okColl m
  | .settle m => okColl m
  | .poison m => okColl m
  | .collTimeout slot => decide (slot < 16)
  | .settleLost slot => decide (slot < 16)
  | .dynamicAddressAssignment _ => true
  | .setEndpointId _ _ => true
  | .getEndpointId _ => true
  | .getMctpVersionSupport _ => true
  | .getMessageTypeSupport _ => true
  | .getVendorDefinedMessageSupport _ => true
  | .sessionOpen q => okHdr q.h
  | .sessionClose q => okHdr q.h
  | .odRead q => okHdr q.h
  | .odWrite q => okHdr q.h
  | .groveId q => okHdr q.h
  | .alertAckSeq q => okHdr q.h
  | .govPowerBudget q => okHdr q.h
  | .govStepsPermitted q => okHdr q.h
  | .eventRead q => okHdr q.h
  | .eventsSuppressed => true
  | .trustGetIdentity q => okHdr q.h
  | .quoteBuild q => okHdr q.h
  | .quoteRead q => okHdr q.h
  | .trustOwnerProvision q => okHdr q.h
  | .debugUnlockChallenge q => okHdr q.h
  | .debugUnlockTransition q => okHdr q.h
  | .nvCommit q => okHdr q.h
  | .factoryRestore q => okHdr q.h
  | .profileSelect q => okHdr q.h
  | .profileStore q => okHdr q.h
  | .profileClear q => okHdr q.h
  | .crownReset q => okHdr q.h
  | .portReset q => okHdr q.h
  | .portsOpen q => okHdr q.h
  | .runBegin q => okHdr q.h
  | .groupInstall q => okHdr q.h
  | .groupRemove q => okHdr q.h
  | .graftLoad q => okHdr q.h
  | .defectClear q => okHdr q.h
  | .fwInstall q => okHdr q.h
  | .cmdDone => true
  | .nop l f => okLeaf l && decide (f.msk = 0)
  | .halt l f => okLeaf l && decide (f.msk = 0)
  | .stepBegin l f => okLeaf l && decide (f.msk = 0)
  | .stepEnd l f => okLeaf l && decide (f.msk = 0)
  | .tsw l f => okLeaf l && decide (f.msk = 0)
  | .mfsr l f => okLeaf l && decide (f.msk = 0)
  | .mtsr l f => okLeaf l && decide (f.msk = 0)
  | .add l f => okLeaf l && decide (f.msk = 0)
  | .sub l f => okLeaf l && decide (f.msk = 0)
  | .andR l f => okLeaf l && decide (f.msk = 0)
  | .orR l f => okLeaf l && decide (f.msk = 0)
  | .xorR l f => okLeaf l && decide (f.msk = 0)
  | .sll l f => okLeaf l && decide (f.msk = 0)
  | .srl l f => okLeaf l && decide (f.msk = 0)
  | .sra l f => okLeaf l && decide (f.msk = 0)
  | .mul l f => okLeaf l && decide (f.msk = 0)
  | .mulh l f => okLeaf l && decide (f.msk = 0)
  | .mulhu l f => okLeaf l && decide (f.msk = 0)
  | .minR l f => okLeaf l && decide (f.msk = 0)
  | .maxR l f => okLeaf l && decide (f.msk = 0)
  | .minu l f => okLeaf l && decide (f.msk = 0)
  | .maxu l f => okLeaf l && decide (f.msk = 0)
  | .clz l f => okLeaf l && decide (f.msk = 0)
  | .popc l f => okLeaf l && decide (f.msk = 0)
  | .movp l f => okLeaf l && decide (f.msk = 0)
  | .movtp l f => okLeaf l && decide (f.msk = 0)
  | .addi l _ => okLeaf l
  | .andi l _ => okLeaf l
  | .ori l _ => okLeaf l
  | .xori l _ => okLeaf l
  | .slli l _ => okLeaf l
  | .srli l _ => okLeaf l
  | .srai l _ => okLeaf l
  | .li l _ => okLeaf l
  | .lih l _ => okLeaf l
  | .eq l f => okLeaf l && decide (f.msk = 0)
  | .ne l f => okLeaf l && decide (f.msk = 0)
  | .lt l f => okLeaf l && decide (f.msk = 0)
  | .ltu l f => okLeaf l && decide (f.msk = 0)
  | .ge l f => okLeaf l && decide (f.msk = 0)
  | .geu l f => okLeaf l && decide (f.msk = 0)
  | .cmpiEq l _ => okLeaf l
  | .cmpiNe l _ => okLeaf l
  | .cmpiLt l _ => okLeaf l
  | .cmpiGe l _ => okLeaf l
  | .pand l f => okLeaf l && decide (f.msk = 0)
  | .por l f => okLeaf l && decide (f.msk = 0)
  | .pxor l f => okLeaf l && decide (f.msk = 0)
  | .pandn l f => okLeaf l && decide (f.msk = 0)
  | .pnot l f => okLeaf l && decide (f.msk = 0)
  | .pset l f => okLeaf l && decide (f.msk = 0)
  | .pclr l f => okLeaf l && decide (f.msk = 0)
  | .br l _ => okLeaf l
  | .loopR l _ => okLeaf l
  | .loopi l _ => okLeaf l
  | .agset l _ => okLeaf l
  | .ldw l _ => okLeaf l
  | .stw l _ => okLeaf l
  | .lda l _ => okLeaf l
  | .sta l _ => okLeaf l
  | .vlda l _ => okLeaf l
  | .vsta l _ => okLeaf l
  | .vld l _ => okLeaf l
  | .vst l _ => okLeaf l
  | .vldx l _ => okLeaf l
  | .vstx l _ => okLeaf l
  | .vadd l _ => okLeaf l
  | .vsub l _ => okLeaf l
  | .vmul l _ => okLeaf l
  | .vmulh l _ => okLeaf l
  | .vand l _ => okLeaf l
  | .vor l _ => okLeaf l
  | .vxor l _ => okLeaf l
  | .vsll l _ => okLeaf l
  | .vsrl l _ => okLeaf l
  | .vsra l _ => okLeaf l
  | .vmin l _ => okLeaf l
  | .vmax l _ => okLeaf l
  | .vminu l _ => okLeaf l
  | .vmaxu l _ => okLeaf l
  | .vabs l _ => okLeaf l
  | .vneg l _ => okLeaf l
  | .vfadd l _ => okLeaf l
  | .vfsub l _ => okLeaf l
  | .vfmul l _ => okLeaf l
  | .vfma l _ => okLeaf l
  | .vfms l _ => okLeaf l
  | .vfnma l _ => okLeaf l
  | .vfmin l _ => okLeaf l
  | .vfmax l _ => okLeaf l
  | .vfabs l _ => okLeaf l
  | .vfneg l _ => okLeaf l
  | .vfdiv l _ => okLeaf l
  | .vfsqrt l _ => okLeaf l
  | .veq l _ => okLeaf l
  | .vne l _ => okLeaf l
  | .vlt l _ => okLeaf l
  | .vltu l _ => okLeaf l
  | .vge l _ => okLeaf l
  | .vgeu l _ => okLeaf l
  | .vfeq l _ => okLeaf l
  | .vfne l _ => okLeaf l
  | .vflt l _ => okLeaf l
  | .vfle l _ => okLeaf l
  | .vfun l _ => okLeaf l
  | .vsel l _ => okLeaf l
  | .vbcast l _ => okLeaf l
  | .vext l _ => okLeaf l
  | .vins l _ => okLeaf l
  | .vperm l _ => okLeaf l
  | .vrsum l _ => okLeaf l
  | .vrmax l _ => okLeaf l
  | .vfrsum l _ => okLeaf l
  | .vfrmax l _ => okLeaf l
  | .vfrmin l _ => okLeaf l
  | .mtm l _ => okLeaf l
  | .mfm l _ => okLeaf l
  | .mpopc l _ => okLeaf l
  | .vf2i l _ => okLeaf l
  | .vi2f l _ => okLeaf l
  | .vf2u l _ => okLeaf l
  | .vu2f l _ => okLeaf l
  | .vf2h l _ => okLeaf l
  | .vh2f l _ => okLeaf l
  | .vf2bf l _ => okLeaf l
  | .vbf2f l _ => okLeaf l
  | .vf2e4 l _ => okLeaf l
  | .ve42f l _ => okLeaf l
  | .vf2e5 l _ => okLeaf l
  | .ve52f l _ => okLeaf l
  | .vrcp l _ => okLeaf l
  | .vrsq l _ => okLeaf l
  | .vexp2 l _ => okLeaf l
  | .vlog2 l _ => okLeaf l
  | .vtanh l _ => okLeaf l
  | .vsigm l _ => okLeaf l
  | .steer l _ => okLeaf l
  | .merge l _ => okLeaf l
  | .filter l _ => okLeaf l
  | .ssteer l _ => okLeaf l
  | .smerge l _ => okLeaf l
  | .sfilter l _ => okLeaf l
  | .sqpop l f => okLeaf l && decide (f.msk = 0)
  | .sqtag l f => okLeaf l && decide (f.msk = 0)
  | .sqpush l f => okLeaf l && decide (f.msk = 0)
  | .qtestv l f => okLeaf l && decide (f.msk = 0)
  | .qtests l f => okLeaf l && decide (f.msk = 0)
  | .qspacev l f => okLeaf l && decide (f.msk = 0)
  | .qspaces l f => okLeaf l && decide (f.msk = 0)
  | .lcinc l f => okLeaf l && decide (f.msk = 0)
  | .lcrd l f => okLeaf l && decide (f.msk = 0)
  | .ginc l f => okLeaf l && decide (f.msk = 0)
  | .gfinc l f => okLeaf l && decide (f.msk = 0)
  | .grd l f => okLeaf l && decide (f.msk = 0)
  | .bara l f => okLeaf l && decide (f.msk = 0)
  | .lcwait l _ => okLeaf l
  | .gwait l _ => okLeaf l
  | .rldw l f => okLeaf l && decide (f.msk = 0)
  | .rstw l f => okLeaf l && decide (f.msk = 0)
  | .rstv l f => okLeaf l && decide (f.msk = 0)
  | .rfence l f => okLeaf l && decide (f.msk = 0)
  | .epost l f => okLeaf l && decide (f.msk = 0)
  | .dpost l f => okLeaf l && decide (f.msk = 0)
  | .dposth l f => okLeaf l && decide (f.msk = 0)
  | .supplyRestored => true
  | .refclkRestored => true
  | .moduleRetrained port mod _ _ => decide (port < 4) && decide (mod < 8)
  | .testAccessPort _ => true
  | .mctpPacket u => decide (u.payload.length ≤ 64)

end Sys2Proof
end

