-- ==== Sys2Proof/Laws/PerInstr.lean ====
section
/-! SUPPORT. A well-formed command that names a leaf names one of the chiplet's 2,304: one lemma per constructor. -/
namespace Sys2Proof.Laws.LeafInRange

/-- The logical leaf index that a command names first. -/
def leafOperand (i : Instr) : Option Nat :=
  match i with
  | .porstNAssert => none
  | .porstNRelease _ _ => none
  | .romBoot => none
  | .fwVerify => none
  | .odAssembly => none
  | .profileApply => none
  | .calibration _ => none
  | .memoryInit _ _ => none
  | .startTest _ => none
  | .gridBuild => none
  | .crownRstN => none
  | .crownRstNRelease => none
  | .crownResetPhase => none
  | .supplyFault _ => none
  | .refclkLoss => none
  | .thermalTrip _ _ => none
  | .sensorSample _ => none
  | .governorEvaluation => none
  | .stepPoint _ => none
  | .stepDeadline => none
  | .pllRelockDone => none
  | .vcrSlewDone => none
  | .portTrainingComplete _ _ _ _ => none
  | .linkTrainingRetry _ => none
  | .linkParam _ _ => none
  | .flitReceive _ _ _ _ => none
  | .packetForward => none
  | .moduleFailure _ _ => none
  | .read256 _ => none
  | .write256 _ => none
  | .read4 _ => none
  | .read64 _ => none
  | .write4 _ => none
  | .write64 _ => none
  | .cread _ => none
  | .cinc _ => none
  | .dpostRequest _ => none
  | .ack _ => none
  | .data _ => none
  | .nak _ => none
  | .responseTimeout _ _ => none
  | .remoteIncrement _ => none
  | .barrierCombine _ _ => none
  | .gfincLeaves l => some l
  | .watch l => some l
  | .satisfy l => some l
  | .waitTimeout l => some l
  | .cancel l => some l
  | .value l => some l
  | .leafStart l => some l
  | .reRun l => some l
  | .rejoin l => some l
  | .gatherDrain l _ => some l
  | .depositWrite l => some l
  | .canopyLandingWrite l => some l
  | .scoreboardRelease l => some l
  | .cacheFill l _ => some l
  | .engineOpStart _ => none
  | .engineOpComplete _ => none
  | .engineRefusedAtHead _ => none
  | .dmaDescriptorAccept _ => none
  | .lineLaunch _ => none
  | .lineComplete _ _ => none
  | .dmaComplete _ => none
  | .dmaRefusedAtHead _ => none
  | .refresh _ => none
  | .patrolScrub _ _ => none
  | .correctionWriteBack _ => none
  | .retirementCopy _ => none
  | .groupCycleAdvance l => some l
  | .slotComplete l => some l
  | .readyReport l => some l
  | .go _ => none
  | .goArrival _ => none
  | .spad _ => none
  | .istore _ => none
  | .switchNext _ => none
  | .leafRecord _ => none
  | .groupPkt _ => none
  | .endPkt _ => none
  | .canopyRepairPacket l _ _ => some l
  | .repairRound => none
  | .flowTransfer l => some l
  | .flowCreditReturn l _ => some l
  | .ringMarker l => some l
  | .nextSlotCurrent l => some l
  | .refill l _ => some l
  | .join l => some l
  | .leave l => some l
  | .quiet l => some l
  | .quietAtHub l => some l
  | .clearAtHub l => some l
  | .confirmationWindowEnd _ => none
  | .spill l => some l
  | .answer _ => none
  | .abort l => some l
  | .unitFailure _ => none
  | .crownDown _ => none
  | .postTake => none
  | .grant _ => none
  | .contrib _ => none
  | .result _ => none
  | .small _ => none
  | .confirm _ => none
  | .settle _ => none
  | .poison _ => none
  | .collTimeout _ => none
  | .settleLost _ => none
  | .dynamicAddressAssignment _ => none
  | .setEndpointId _ _ => none
  | .getEndpointId _ => none
  | .getMctpVersionSupport _ => none
  | .getMessageTypeSupport _ => none
  | .getVendorDefinedMessageSupport _ => none
  | .sessionOpen _ => none
  | .sessionClose _ => none
  | .odRead _ => none
  | .odWrite _ => none
  | .groveId _ => none
  | .alertAckSeq _ => none
  | .govPowerBudget _ => none
  | .govStepsPermitted _ => none
  | .eventRead _ => none
  | .eventsSuppressed => none
  | .trustGetIdentity _ => none
  | .quoteBuild _ => none
  | .quoteRead _ => none
  | .trustOwnerProvision _ => none
  | .debugUnlockChallenge _ => none
  | .debugUnlockTransition _ => none
  | .nvCommit _ => none
  | .factoryRestore _ => none
  | .profileSelect _ => none
  | .profileStore _ => none
  | .profileClear _ => none
  | .crownReset _ => none
  | .portReset _ => none
  | .portsOpen _ => none
  | .runBegin _ => none
  | .groupInstall _ => none
  | .groupRemove _ => none
  | .graftLoad _ => none
  | .defectClear _ => none
  | .fwInstall _ => none
  | .cmdDone => none
  | .nop l _ => some l
  | .halt l _ => some l
  | .stepBegin l _ => some l
  | .stepEnd l _ => some l
  | .tsw l _ => some l
  | .mfsr l _ => some l
  | .mtsr l _ => some l
  | .add l _ => some l
  | .sub l _ => some l
  | .andR l _ => some l
  | .orR l _ => some l
  | .xorR l _ => some l
  | .sll l _ => some l
  | .srl l _ => some l
  | .sra l _ => some l
  | .mul l _ => some l
  | .mulh l _ => some l
  | .mulhu l _ => some l
  | .minR l _ => some l
  | .maxR l _ => some l
  | .minu l _ => some l
  | .maxu l _ => some l
  | .clz l _ => some l
  | .popc l _ => some l
  | .movp l _ => some l
  | .movtp l _ => some l
  | .addi l _ => some l
  | .andi l _ => some l
  | .ori l _ => some l
  | .xori l _ => some l
  | .slli l _ => some l
  | .srli l _ => some l
  | .srai l _ => some l
  | .li l _ => some l
  | .lih l _ => some l
  | .eq l _ => some l
  | .ne l _ => some l
  | .lt l _ => some l
  | .ltu l _ => some l
  | .ge l _ => some l
  | .geu l _ => some l
  | .cmpiEq l _ => some l
  | .cmpiNe l _ => some l
  | .cmpiLt l _ => some l
  | .cmpiGe l _ => some l
  | .pand l _ => some l
  | .por l _ => some l
  | .pxor l _ => some l
  | .pandn l _ => some l
  | .pnot l _ => some l
  | .pset l _ => some l
  | .pclr l _ => some l
  | .br l _ => some l
  | .loopR l _ => some l
  | .loopi l _ => some l
  | .agset l _ => some l
  | .ldw l _ => some l
  | .stw l _ => some l
  | .lda l _ => some l
  | .sta l _ => some l
  | .vlda l _ => some l
  | .vsta l _ => some l
  | .vld l _ => some l
  | .vst l _ => some l
  | .vldx l _ => some l
  | .vstx l _ => some l
  | .vadd l _ => some l
  | .vsub l _ => some l
  | .vmul l _ => some l
  | .vmulh l _ => some l
  | .vand l _ => some l
  | .vor l _ => some l
  | .vxor l _ => some l
  | .vsll l _ => some l
  | .vsrl l _ => some l
  | .vsra l _ => some l
  | .vmin l _ => some l
  | .vmax l _ => some l
  | .vminu l _ => some l
  | .vmaxu l _ => some l
  | .vabs l _ => some l
  | .vneg l _ => some l
  | .vfadd l _ => some l
  | .vfsub l _ => some l
  | .vfmul l _ => some l
  | .vfma l _ => some l
  | .vfms l _ => some l
  | .vfnma l _ => some l
  | .vfmin l _ => some l
  | .vfmax l _ => some l
  | .vfabs l _ => some l
  | .vfneg l _ => some l
  | .vfdiv l _ => some l
  | .vfsqrt l _ => some l
  | .veq l _ => some l
  | .vne l _ => some l
  | .vlt l _ => some l
  | .vltu l _ => some l
  | .vge l _ => some l
  | .vgeu l _ => some l
  | .vfeq l _ => some l
  | .vfne l _ => some l
  | .vflt l _ => some l
  | .vfle l _ => some l
  | .vfun l _ => some l
  | .vsel l _ => some l
  | .vbcast l _ => some l
  | .vext l _ => some l
  | .vins l _ => some l
  | .vperm l _ => some l
  | .vrsum l _ => some l
  | .vrmax l _ => some l
  | .vfrsum l _ => some l
  | .vfrmax l _ => some l
  | .vfrmin l _ => some l
  | .mtm l _ => some l
  | .mfm l _ => some l
  | .mpopc l _ => some l
  | .vf2i l _ => some l
  | .vi2f l _ => some l
  | .vf2u l _ => some l
  | .vu2f l _ => some l
  | .vf2h l _ => some l
  | .vh2f l _ => some l
  | .vf2bf l _ => some l
  | .vbf2f l _ => some l
  | .vf2e4 l _ => some l
  | .ve42f l _ => some l
  | .vf2e5 l _ => some l
  | .ve52f l _ => some l
  | .vrcp l _ => some l
  | .vrsq l _ => some l
  | .vexp2 l _ => some l
  | .vlog2 l _ => some l
  | .vtanh l _ => some l
  | .vsigm l _ => some l
  | .steer l _ => some l
  | .merge l _ => some l
  | .filter l _ => some l
  | .ssteer l _ => some l
  | .smerge l _ => some l
  | .sfilter l _ => some l
  | .sqpop l _ => some l
  | .sqtag l _ => some l
  | .sqpush l _ => some l
  | .qtestv l _ => some l
  | .qtests l _ => some l
  | .qspacev l _ => some l
  | .qspaces l _ => some l
  | .lcinc l _ => some l
  | .lcrd l _ => some l
  | .ginc l _ => some l
  | .gfinc l _ => some l
  | .grd l _ => some l
  | .bara l _ => some l
  | .lcwait l _ => some l
  | .gwait l _ => some l
  | .rldw l _ => some l
  | .rstw l _ => some l
  | .rstv l _ => some l
  | .rfence l _ => some l
  | .epost l _ => some l
  | .dpost l _ => some l
  | .dposth l _ => some l
  | .supplyRestored => none
  | .refclkRestored => none
  | .moduleRetrained _ _ _ _ => none
  | .testAccessPort _ => none
  | .mctpPacket _ => none

/-- The leaf that a well-formed command names is a leaf of R8's largest shape. -/
def Statement (i : Instr) : Prop := i.wellFormed = true → ∀ l, leafOperand i = some l → l < 2304

theorem of_ok (l : Nat) (b : Bool) (h : (WellFormed.okLeaf l && b) = true) : l < 2304 := by
  simp only [WellFormed.okLeaf, Bool.and_eq_true, decide_eq_true_eq] at h
  exact h.1

theorem of_leaf (l : Nat) (h : WellFormed.okLeaf l = true) : l < 2304 := of_ok l true (by simp [h])

theorem porstNAssert : Statement (.porstNAssert) := fun _ _ e => nomatch e

theorem porstNRelease (slotId : BitVec 6) (profSel : BitVec 2) : Statement (.porstNRelease slotId profSel) := fun _ _ e => nomatch e

theorem romBoot : Statement (.romBoot) := fun _ _ e => nomatch e

theorem fwVerify : Statement (.fwVerify) := fun _ _ e => nomatch e

theorem odAssembly : Statement (.odAssembly) := fun _ _ e => nomatch e

theorem profileApply : Statement (.profileApply) := fun _ _ e => nomatch e

theorem calibration (found : List Site) : Statement (.calibration found) := fun _ _ e => nomatch e

theorem memoryInit (retire : List Site) (found : List Site) : Statement (.memoryInit retire found) := fun _ _ e => nomatch e

theorem startTest (found : List Site) : Statement (.startTest found) := fun _ _ e => nomatch e

theorem gridBuild : Statement (.gridBuild) := fun _ _ e => nomatch e

theorem crownRstN : Statement (.crownRstN) := fun _ _ e => nomatch e

theorem crownRstNRelease : Statement (.crownRstNRelease) := fun _ _ e => nomatch e

theorem crownResetPhase : Statement (.crownResetPhase) := fun _ _ e => nomatch e

theorem supplyFault (rail : Nat) : Statement (.supplyFault rail) := fun _ _ e => nomatch e

theorem refclkLoss : Statement (.refclkLoss) := fun _ _ e => nomatch e

theorem thermalTrip (sensor : Nat) (reading : Word) : Statement (.thermalTrip sensor reading) := fun _ _ e => nomatch e

theorem sensorSample (r : Readings) : Statement (.sensorSample r) := fun _ _ e => nomatch e

theorem governorEvaluation : Statement (.governorEvaluation) := fun _ _ e => nomatch e

theorem stepPoint (barrier : Bool) : Statement (.stepPoint barrier) := fun _ _ e => nomatch e

theorem stepDeadline : Statement (.stepDeadline) := fun _ _ e => nomatch e

theorem pllRelockDone : Statement (.pllRelockDone) := fun _ _ e => nomatch e

theorem vcrSlewDone : Statement (.vcrSlewDone) := fun _ _ e => nomatch e

theorem portTrainingComplete (port : Nat) (partner : Bool) (modules : BitVec 8) (lanes : List Byte) : Statement (.portTrainingComplete port partner modules lanes) := fun _ _ e => nomatch e

theorem linkTrainingRetry (port : Nat) : Statement (.linkTrainingRetry port) := fun _ _ e => nomatch e

theorem linkParam (port : Nat) (p : SPkt) : Statement (.linkParam port p) := fun _ _ e => nomatch e

theorem flitReceive (port : Nat) (mod : Nat) (retries : Nat) (flit : Flit) : Statement (.flitReceive port mod retries flit) := fun _ _ e => nomatch e

theorem packetForward : Statement (.packetForward) := fun _ _ e => nomatch e

theorem moduleFailure (port : Nat) (mod : Nat) : Statement (.moduleFailure port mod) := fun _ _ e => nomatch e

theorem read256 (r : Req) : Statement (.read256 r) := fun _ _ e => nomatch e

theorem write256 (r : Req) : Statement (.write256 r) := fun _ _ e => nomatch e

theorem read4 (r : Req) : Statement (.read4 r) := fun _ _ e => nomatch e

theorem read64 (r : Req) : Statement (.read64 r) := fun _ _ e => nomatch e

theorem write4 (r : Req) : Statement (.write4 r) := fun _ _ e => nomatch e

theorem write64 (r : Req) : Statement (.write64 r) := fun _ _ e => nomatch e

theorem cread (r : Req) : Statement (.cread r) := fun _ _ e => nomatch e

theorem cinc (r : Req) : Statement (.cinc r) := fun _ _ e => nomatch e

theorem dpostRequest (r : Req) : Statement (.dpostRequest r) := fun _ _ e => nomatch e

theorem ack (r : Resp) : Statement (.ack r) := fun _ _ e => nomatch e

theorem data (r : Resp) : Statement (.data r) := fun _ _ e => nomatch e

theorem nak (r : Resp) : Statement (.nak r) := fun _ _ e => nomatch e

theorem responseTimeout (ep : Nat) (tag : Nat) : Statement (.responseTimeout ep tag) := fun _ _ e => nomatch e

theorem remoteIncrement (m : IncMsg) : Statement (.remoteIncrement m) := fun _ _ e => nomatch e

theorem barrierCombine (node : Nat) (gc : Nat) : Statement (.barrierCombine node gc) := fun _ _ e => nomatch e

theorem gfincLeaves (l : Nat) : Statement (.gfincLeaves l) := fun h _ e => Option.some.inj e ▸ of_leaf l h

theorem watch (l : Nat) : Statement (.watch l) := fun h _ e => Option.some.inj e ▸ of_leaf l h

theorem satisfy (l : Nat) : Statement (.satisfy l) := fun h _ e => Option.some.inj e ▸ of_leaf l h

theorem waitTimeout (l : Nat) : Statement (.waitTimeout l) := fun h _ e => Option.some.inj e ▸ of_leaf l h

theorem cancel (l : Nat) : Statement (.cancel l) := fun h _ e => Option.some.inj e ▸ of_leaf l h

theorem value (l : Nat) : Statement (.value l) := fun h _ e => Option.some.inj e ▸ of_leaf l h

theorem leafStart (l : Nat) : Statement (.leafStart l) := fun h _ e => Option.some.inj e ▸ of_leaf l h

theorem reRun (l : Nat) : Statement (.reRun l) := fun h _ e => Option.some.inj e ▸ of_leaf l h

theorem rejoin (l : Nat) : Statement (.rejoin l) := fun h _ e => Option.some.inj e ▸ of_leaf l h

theorem gatherDrain (l : Nat) (row : Nat) : Statement (.gatherDrain l row) := fun h _ e => Option.some.inj e ▸ of_ok l _ h

theorem depositWrite (l : Nat) : Statement (.depositWrite l) := fun h _ e => Option.some.inj e ▸ of_leaf l h

theorem canopyLandingWrite (l : Nat) : Statement (.canopyLandingWrite l) := fun h _ e => Option.some.inj e ▸ of_leaf l h

theorem scoreboardRelease (l : Nat) : Statement (.scoreboardRelease l) := fun h _ e => Option.some.inj e ▸ of_leaf l h

theorem cacheFill (l : Nat) (check : LineCheck) : Statement (.cacheFill l check) := fun h _ e => Option.some.inj e ▸ of_leaf l h

theorem engineOpStart (b : Nat) : Statement (.engineOpStart b) := fun _ _ e => nomatch e

theorem engineOpComplete (b : Nat) : Statement (.engineOpComplete b) := fun _ _ e => nomatch e

theorem engineRefusedAtHead (b : Nat) : Statement (.engineRefusedAtHead b) := fun _ _ e => nomatch e

theorem dmaDescriptorAccept (c : Nat) : Statement (.dmaDescriptorAccept c) := fun _ _ e => nomatch e

theorem lineLaunch (c : Nat) : Statement (.lineLaunch c) := fun _ _ e => nomatch e

theorem lineComplete (c : Nat) (check : LineCheck) : Statement (.lineComplete c check) := fun _ _ e => nomatch e

theorem dmaComplete (c : Nat) : Statement (.dmaComplete c) := fun _ _ e => nomatch e

theorem dmaRefusedAtHead (c : Nat) : Statement (.dmaRefusedAtHead c) := fun _ _ e => nomatch e

theorem refresh (c : Nat) : Statement (.refresh c) := fun _ _ e => nomatch e

theorem patrolScrub (c : Nat) (check : LineCheck) : Statement (.patrolScrub c check) := fun _ _ e => nomatch e

theorem correctionWriteBack (c : Nat) : Statement (.correctionWriteBack c) := fun _ _ e => nomatch e

theorem retirementCopy (c : Nat) : Statement (.retirementCopy c) := fun _ _ e => nomatch e

theorem groupCycleAdvance (l : Nat) : Statement (.groupCycleAdvance l) := fun h _ e => Option.some.inj e ▸ of_leaf l h

theorem slotComplete (l : Nat) : Statement (.slotComplete l) := fun h _ e => Option.some.inj e ▸ of_leaf l h

theorem readyReport (l : Nat) : Statement (.readyReport l) := fun h _ e => Option.some.inj e ▸ of_leaf l h

theorem go (g : Nat) : Statement (.go g) := fun _ _ e => nomatch e

theorem goArrival (g : Nat) : Statement (.goArrival g) := fun _ _ e => nomatch e

theorem spad (p : Canopy) : Statement (.spad p) := fun _ _ e => nomatch e

theorem istore (p : Canopy) : Statement (.istore p) := fun _ _ e => nomatch e

theorem switchNext (p : Canopy) : Statement (.switchNext p) := fun _ _ e => nomatch e

theorem leafRecord (p : Canopy) : Statement (.leafRecord p) := fun _ _ e => nomatch e

theorem groupPkt (p : Canopy) : Statement (.groupPkt p) := fun _ _ e => nomatch e

theorem endPkt (p : Canopy) : Statement (.endPkt p) := fun _ _ e => nomatch e

theorem canopyRepairPacket (l : Nat) (kind : BitVec 4) (p : Canopy) : Statement (.canopyRepairPacket l kind p) := fun h _ e => Option.some.inj e ▸ of_ok l _ h

theorem repairRound : Statement (.repairRound) := fun _ _ e => nomatch e

theorem flowTransfer (l : Nat) : Statement (.flowTransfer l) := fun h _ e => Option.some.inj e ▸ of_leaf l h

theorem flowCreditReturn (l : Nat) (sink : Nat) : Statement (.flowCreditReturn l sink) := fun h _ e => Option.some.inj e ▸ of_ok l _ h

theorem ringMarker (l : Nat) : Statement (.ringMarker l) := fun h _ e => Option.some.inj e ▸ of_leaf l h

theorem nextSlotCurrent (l : Nat) : Statement (.nextSlotCurrent l) := fun h _ e => Option.some.inj e ▸ of_leaf l h

theorem refill (l : Nat) (q : Nat) : Statement (.refill l q) := fun h _ e => Option.some.inj e ▸ of_ok l _ h

theorem join (l : Nat) : Statement (.join l) := fun h _ e => Option.some.inj e ▸ of_leaf l h

theorem leave (l : Nat) : Statement (.leave l) := fun h _ e => Option.some.inj e ▸ of_leaf l h

theorem quiet (l : Nat) : Statement (.quiet l) := fun h _ e => Option.some.inj e ▸ of_leaf l h

theorem quietAtHub (l : Nat) : Statement (.quietAtHub l) := fun h _ e => Option.some.inj e ▸ of_leaf l h

theorem clearAtHub (l : Nat) : Statement (.clearAtHub l) := fun h _ e => Option.some.inj e ▸ of_leaf l h

theorem confirmationWindowEnd (g : Nat) : Statement (.confirmationWindowEnd g) := fun _ _ e => nomatch e

theorem spill (l : Nat) : Statement (.spill l) := fun h _ e => Option.some.inj e ▸ of_leaf l h

theorem answer (g : Nat) : Statement (.answer g) := fun _ _ e => nomatch e

theorem abort (l : Nat) : Statement (.abort l) := fun h _ e => Option.some.inj e ▸ of_leaf l h

theorem unitFailure (site : Site) : Statement (.unitFailure site) := fun _ _ e => nomatch e

theorem crownDown (core : Nat) : Statement (.crownDown core) := fun _ _ e => nomatch e

theorem postTake : Statement (.postTake) := fun _ _ e => nomatch e

theorem grant (m : CollMsg) : Statement (.grant m) := fun _ _ e => nomatch e

theorem contrib (m : CollMsg) : Statement (.contrib m) := fun _ _ e => nomatch e

theorem result (m : CollMsg) : Statement (.result m) := fun _ _ e => nomatch e

theorem small (m : CollMsg) : Statement (.small m) := fun _ _ e => nomatch e

theorem confirm (m : CollMsg) : Statement (.confirm m) := fun _ _ e => nomatch e

theorem settle (m : CollMsg) : Statement (.settle m) := fun _ _ e => nomatch e

theorem poison (m : CollMsg) : Statement (.poison m) := fun _ _ e => nomatch e

theorem collTimeout (slot : Nat) : Statement (.collTimeout slot) := fun _ _ e => nomatch e

theorem settleLost (slot : Nat) : Statement (.settleLost slot) := fun _ _ e => nomatch e

theorem dynamicAddressAssignment (addr : BitVec 7) : Statement (.dynamicAddressAssignment addr) := fun _ _ e => nomatch e

theorem setEndpointId (m : MctpCtl) (eid : Byte) : Statement (.setEndpointId m eid) := fun _ _ e => nomatch e

theorem getEndpointId (m : MctpCtl) : Statement (.getEndpointId m) := fun _ _ e => nomatch e

theorem getMctpVersionSupport (m : MctpCtl) : Statement (.getMctpVersionSupport m) := fun _ _ e => nomatch e

theorem getMessageTypeSupport (m : MctpCtl) : Statement (.getMessageTypeSupport m) := fun _ _ e => nomatch e

theorem getVendorDefinedMessageSupport (m : MctpCtl) : Statement (.getVendorDefinedMessageSupport m) := fun _ _ e => nomatch e

theorem sessionOpen (q : Conas) : Statement (.sessionOpen q) := fun _ _ e => nomatch e

theorem sessionClose (q : Conas) : Statement (.sessionClose q) := fun _ _ e => nomatch e

theorem odRead (q : OdReq) : Statement (.odRead q) := fun _ _ e => nomatch e

theorem odWrite (q : OdReq) : Statement (.odWrite q) := fun _ _ e => nomatch e

theorem groveId (q : CmdReq) : Statement (.groveId q) := fun _ _ e => nomatch e

theorem alertAckSeq (q : CmdReq) : Statement (.alertAckSeq q) := fun _ _ e => nomatch e

theorem govPowerBudget (q : CmdReq) : Statement (.govPowerBudget q) := fun _ _ e => nomatch e

theorem govStepsPermitted (q : CmdReq) : Statement (.govStepsPermitted q) := fun _ _ e => nomatch e

theorem eventRead (q : Conas) : Statement (.eventRead q) := fun _ _ e => nomatch e

theorem eventsSuppressed : Statement (.eventsSuppressed) := fun _ _ e => nomatch e

theorem trustGetIdentity (q : Conas) : Statement (.trustGetIdentity q) := fun _ _ e => nomatch e

theorem quoteBuild (q : Conas) : Statement (.quoteBuild q) := fun _ _ e => nomatch e

theorem quoteRead (q : Conas) : Statement (.quoteRead q) := fun _ _ e => nomatch e

theorem trustOwnerProvision (q : Conas) : Statement (.trustOwnerProvision q) := fun _ _ e => nomatch e

theorem debugUnlockChallenge (q : Conas) : Statement (.debugUnlockChallenge q) := fun _ _ e => nomatch e

theorem debugUnlockTransition (q : Conas) : Statement (.debugUnlockTransition q) := fun _ _ e => nomatch e

theorem nvCommit (q : CmdReq) : Statement (.nvCommit q) := fun _ _ e => nomatch e

theorem factoryRestore (q : CmdReq) : Statement (.factoryRestore q) := fun _ _ e => nomatch e

theorem profileSelect (q : CmdReq) : Statement (.profileSelect q) := fun _ _ e => nomatch e

theorem profileStore (q : CmdReq) : Statement (.profileStore q) := fun _ _ e => nomatch e

theorem profileClear (q : CmdReq) : Statement (.profileClear q) := fun _ _ e => nomatch e

theorem crownReset (q : CmdReq) : Statement (.crownReset q) := fun _ _ e => nomatch e

theorem portReset (q : CmdReq) : Statement (.portReset q) := fun _ _ e => nomatch e

theorem portsOpen (q : CmdReq) : Statement (.portsOpen q) := fun _ _ e => nomatch e

theorem runBegin (q : CmdReq) : Statement (.runBegin q) := fun _ _ e => nomatch e

theorem groupInstall (q : CmdReq) : Statement (.groupInstall q) := fun _ _ e => nomatch e

theorem groupRemove (q : CmdReq) : Statement (.groupRemove q) := fun _ _ e => nomatch e

theorem graftLoad (q : CmdReq) : Statement (.graftLoad q) := fun _ _ e => nomatch e

theorem defectClear (q : CmdReq) : Statement (.defectClear q) := fun _ _ e => nomatch e

theorem fwInstall (q : CmdReq) : Statement (.fwInstall q) := fun _ _ e => nomatch e

theorem cmdDone : Statement (.cmdDone) := fun _ _ e => nomatch e

theorem nop (l : Nat) (f : RR) : Statement (.nop l f) := fun h _ e => Option.some.inj e ▸ of_ok l _ h

theorem halt (l : Nat) (f : RR) : Statement (.halt l f) := fun h _ e => Option.some.inj e ▸ of_ok l _ h

theorem stepBegin (l : Nat) (f : RR) : Statement (.stepBegin l f) := fun h _ e => Option.some.inj e ▸ of_ok l _ h

theorem stepEnd (l : Nat) (f : RR) : Statement (.stepEnd l f) := fun h _ e => Option.some.inj e ▸ of_ok l _ h

theorem tsw (l : Nat) (f : RR) : Statement (.tsw l f) := fun h _ e => Option.some.inj e ▸ of_ok l _ h

theorem mfsr (l : Nat) (f : RR) : Statement (.mfsr l f) := fun h _ e => Option.some.inj e ▸ of_ok l _ h

theorem mtsr (l : Nat) (f : RR) : Statement (.mtsr l f) := fun h _ e => Option.some.inj e ▸ of_ok l _ h

theorem add (l : Nat) (f : RR) : Statement (.add l f) := fun h _ e => Option.some.inj e ▸ of_ok l _ h

theorem sub (l : Nat) (f : RR) : Statement (.sub l f) := fun h _ e => Option.some.inj e ▸ of_ok l _ h

theorem andR (l : Nat) (f : RR) : Statement (.andR l f) := fun h _ e => Option.some.inj e ▸ of_ok l _ h

theorem orR (l : Nat) (f : RR) : Statement (.orR l f) := fun h _ e => Option.some.inj e ▸ of_ok l _ h

theorem xorR (l : Nat) (f : RR) : Statement (.xorR l f) := fun h _ e => Option.some.inj e ▸ of_ok l _ h

theorem sll (l : Nat) (f : RR) : Statement (.sll l f) := fun h _ e => Option.some.inj e ▸ of_ok l _ h

theorem srl (l : Nat) (f : RR) : Statement (.srl l f) := fun h _ e => Option.some.inj e ▸ of_ok l _ h

theorem sra (l : Nat) (f : RR) : Statement (.sra l f) := fun h _ e => Option.some.inj e ▸ of_ok l _ h

theorem mul (l : Nat) (f : RR) : Statement (.mul l f) := fun h _ e => Option.some.inj e ▸ of_ok l _ h

theorem mulh (l : Nat) (f : RR) : Statement (.mulh l f) := fun h _ e => Option.some.inj e ▸ of_ok l _ h

theorem mulhu (l : Nat) (f : RR) : Statement (.mulhu l f) := fun h _ e => Option.some.inj e ▸ of_ok l _ h

theorem minR (l : Nat) (f : RR) : Statement (.minR l f) := fun h _ e => Option.some.inj e ▸ of_ok l _ h

theorem maxR (l : Nat) (f : RR) : Statement (.maxR l f) := fun h _ e => Option.some.inj e ▸ of_ok l _ h

theorem minu (l : Nat) (f : RR) : Statement (.minu l f) := fun h _ e => Option.some.inj e ▸ of_ok l _ h

theorem maxu (l : Nat) (f : RR) : Statement (.maxu l f) := fun h _ e => Option.some.inj e ▸ of_ok l _ h

theorem clz (l : Nat) (f : RR) : Statement (.clz l f) := fun h _ e => Option.some.inj e ▸ of_ok l _ h

theorem popc (l : Nat) (f : RR) : Statement (.popc l f) := fun h _ e => Option.some.inj e ▸ of_ok l _ h

theorem movp (l : Nat) (f : RR) : Statement (.movp l f) := fun h _ e => Option.some.inj e ▸ of_ok l _ h

theorem movtp (l : Nat) (f : RR) : Statement (.movtp l f) := fun h _ e => Option.some.inj e ▸ of_ok l _ h

theorem addi (l : Nat) (f : RI) : Statement (.addi l f) := fun h _ e => Option.some.inj e ▸ of_leaf l h

theorem andi (l : Nat) (f : RI) : Statement (.andi l f) := fun h _ e => Option.some.inj e ▸ of_leaf l h

theorem ori (l : Nat) (f : RI) : Statement (.ori l f) := fun h _ e => Option.some.inj e ▸ of_leaf l h

theorem xori (l : Nat) (f : RI) : Statement (.xori l f) := fun h _ e => Option.some.inj e ▸ of_leaf l h

theorem slli (l : Nat) (f : SHf) : Statement (.slli l f) := fun h _ e => Option.some.inj e ▸ of_leaf l h

theorem srli (l : Nat) (f : SHf) : Statement (.srli l f) := fun h _ e => Option.some.inj e ▸ of_leaf l h

theorem srai (l : Nat) (f : SHf) : Statement (.srai l f) := fun h _ e => Option.some.inj e ▸ of_leaf l h

theorem li (l : Nat) (f : LIf) : Statement (.li l f) := fun h _ e => Option.some.inj e ▸ of_leaf l h

theorem lih (l : Nat) (f : LIf) : Statement (.lih l f) := fun h _ e => Option.some.inj e ▸ of_leaf l h

theorem eq (l : Nat) (f : RR) : Statement (.eq l f) := fun h _ e => Option.some.inj e ▸ of_ok l _ h

theorem ne (l : Nat) (f : RR) : Statement (.ne l f) := fun h _ e => Option.some.inj e ▸ of_ok l _ h

theorem lt (l : Nat) (f : RR) : Statement (.lt l f) := fun h _ e => Option.some.inj e ▸ of_ok l _ h

theorem ltu (l : Nat) (f : RR) : Statement (.ltu l f) := fun h _ e => Option.some.inj e ▸ of_ok l _ h

theorem ge (l : Nat) (f : RR) : Statement (.ge l f) := fun h _ e => Option.some.inj e ▸ of_ok l _ h

theorem geu (l : Nat) (f : RR) : Statement (.geu l f) := fun h _ e => Option.some.inj e ▸ of_ok l _ h

theorem cmpiEq (l : Nat) (f : CMPf) : Statement (.cmpiEq l f) := fun h _ e => Option.some.inj e ▸ of_leaf l h

theorem cmpiNe (l : Nat) (f : CMPf) : Statement (.cmpiNe l f) := fun h _ e => Option.some.inj e ▸ of_leaf l h

theorem cmpiLt (l : Nat) (f : CMPf) : Statement (.cmpiLt l f) := fun h _ e => Option.some.inj e ▸ of_leaf l h

theorem cmpiGe (l : Nat) (f : CMPf) : Statement (.cmpiGe l f) := fun h _ e => Option.some.inj e ▸ of_leaf l h

theorem pand (l : Nat) (f : RR) : Statement (.pand l f) := fun h _ e => Option.some.inj e ▸ of_ok l _ h

theorem por (l : Nat) (f : RR) : Statement (.por l f) := fun h _ e => Option.some.inj e ▸ of_ok l _ h

theorem pxor (l : Nat) (f : RR) : Statement (.pxor l f) := fun h _ e => Option.some.inj e ▸ of_ok l _ h

theorem pandn (l : Nat) (f : RR) : Statement (.pandn l f) := fun h _ e => Option.some.inj e ▸ of_ok l _ h

theorem pnot (l : Nat) (f : RR) : Statement (.pnot l f) := fun h _ e => Option.some.inj e ▸ of_ok l _ h

theorem pset (l : Nat) (f : RR) : Statement (.pset l f) := fun h _ e => Option.some.inj e ▸ of_ok l _ h

theorem pclr (l : Nat) (f : RR) : Statement (.pclr l f) := fun h _ e => Option.some.inj e ▸ of_ok l _ h

theorem br (l : Nat) (f : BRf) : Statement (.br l f) := fun h _ e => Option.some.inj e ▸ of_leaf l h

theorem loopR (l : Nat) (f : LPf) : Statement (.loopR l f) := fun h _ e => Option.some.inj e ▸ of_leaf l h

theorem loopi (l : Nat) (f : LPIf) : Statement (.loopi l f) := fun h _ e => Option.some.inj e ▸ of_leaf l h

theorem agset (l : Nat) (f : AGSf) : Statement (.agset l f) := fun h _ e => Option.some.inj e ▸ of_leaf l h

theorem ldw (l : Nat) (f : RI) : Statement (.ldw l f) := fun h _ e => Option.some.inj e ▸ of_leaf l h

theorem stw (l : Nat) (f : RI) : Statement (.stw l f) := fun h _ e => Option.some.inj e ▸ of_leaf l h

theorem lda (l : Nat) (f : AGf) : Statement (.lda l f) := fun h _ e => Option.some.inj e ▸ of_leaf l h

theorem sta (l : Nat) (f : AGf) : Statement (.sta l f) := fun h _ e => Option.some.inj e ▸ of_leaf l h

theorem vlda (l : Nat) (f : AGf) : Statement (.vlda l f) := fun h _ e => Option.some.inj e ▸ of_leaf l h

theorem vsta (l : Nat) (f : AGf) : Statement (.vsta l f) := fun h _ e => Option.some.inj e ▸ of_leaf l h

theorem vld (l : Nat) (f : RI) : Statement (.vld l f) := fun h _ e => Option.some.inj e ▸ of_leaf l h

theorem vst (l : Nat) (f : RI) : Statement (.vst l f) := fun h _ e => Option.some.inj e ▸ of_leaf l h

theorem vldx (l : Nat) (f : RR) : Statement (.vldx l f) := fun h _ e => Option.some.inj e ▸ of_leaf l h

theorem vstx (l : Nat) (f : RR) : Statement (.vstx l f) := fun h _ e => Option.some.inj e ▸ of_leaf l h

theorem vadd (l : Nat) (f : RR) : Statement (.vadd l f) := fun h _ e => Option.some.inj e ▸ of_leaf l h

theorem vsub (l : Nat) (f : RR) : Statement (.vsub l f) := fun h _ e => Option.some.inj e ▸ of_leaf l h

theorem vmul (l : Nat) (f : RR) : Statement (.vmul l f) := fun h _ e => Option.some.inj e ▸ of_leaf l h

theorem vmulh (l : Nat) (f : RR) : Statement (.vmulh l f) := fun h _ e => Option.some.inj e ▸ of_leaf l h

theorem vand (l : Nat) (f : RR) : Statement (.vand l f) := fun h _ e => Option.some.inj e ▸ of_leaf l h

theorem vor (l : Nat) (f : RR) : Statement (.vor l f) := fun h _ e => Option.some.inj e ▸ of_leaf l h

theorem vxor (l : Nat) (f : RR) : Statement (.vxor l f) := fun h _ e => Option.some.inj e ▸ of_leaf l h

theorem vsll (l : Nat) (f : RR) : Statement (.vsll l f) := fun h _ e => Option.some.inj e ▸ of_leaf l h

theorem vsrl (l : Nat) (f : RR) : Statement (.vsrl l f) := fun h _ e => Option.some.inj e ▸ of_leaf l h

theorem vsra (l : Nat) (f : RR) : Statement (.vsra l f) := fun h _ e => Option.some.inj e ▸ of_leaf l h

theorem vmin (l : Nat) (f : RR) : Statement (.vmin l f) := fun h _ e => Option.some.inj e ▸ of_leaf l h

theorem vmax (l : Nat) (f : RR) : Statement (.vmax l f) := fun h _ e => Option.some.inj e ▸ of_leaf l h

theorem vminu (l : Nat) (f : RR) : Statement (.vminu l f) := fun h _ e => Option.some.inj e ▸ of_leaf l h

theorem vmaxu (l : Nat) (f : RR) : Statement (.vmaxu l f) := fun h _ e => Option.some.inj e ▸ of_leaf l h

theorem vabs (l : Nat) (f : RR) : Statement (.vabs l f) := fun h _ e => Option.some.inj e ▸ of_leaf l h

theorem vneg (l : Nat) (f : RR) : Statement (.vneg l f) := fun h _ e => Option.some.inj e ▸ of_leaf l h

theorem vfadd (l : Nat) (f : RR) : Statement (.vfadd l f) := fun h _ e => Option.some.inj e ▸ of_leaf l h

theorem vfsub (l : Nat) (f : RR) : Statement (.vfsub l f) := fun h _ e => Option.some.inj e ▸ of_leaf l h

theorem vfmul (l : Nat) (f : RR) : Statement (.vfmul l f) := fun h _ e => Option.some.inj e ▸ of_leaf l h

theorem vfma (l : Nat) (f : RR) : Statement (.vfma l f) := fun h _ e => Option.some.inj e ▸ of_leaf l h

theorem vfms (l : Nat) (f : RR) : Statement (.vfms l f) := fun h _ e => Option.some.inj e ▸ of_leaf l h

theorem vfnma (l : Nat) (f : RR) : Statement (.vfnma l f) := fun h _ e => Option.some.inj e ▸ of_leaf l h

theorem vfmin (l : Nat) (f : RR) : Statement (.vfmin l f) := fun h _ e => Option.some.inj e ▸ of_leaf l h

theorem vfmax (l : Nat) (f : RR) : Statement (.vfmax l f) := fun h _ e => Option.some.inj e ▸ of_leaf l h

theorem vfabs (l : Nat) (f : RR) : Statement (.vfabs l f) := fun h _ e => Option.some.inj e ▸ of_leaf l h

theorem vfneg (l : Nat) (f : RR) : Statement (.vfneg l f) := fun h _ e => Option.some.inj e ▸ of_leaf l h

theorem vfdiv (l : Nat) (f : RR) : Statement (.vfdiv l f) := fun h _ e => Option.some.inj e ▸ of_leaf l h

theorem vfsqrt (l : Nat) (f : RR) : Statement (.vfsqrt l f) := fun h _ e => Option.some.inj e ▸ of_leaf l h

theorem veq (l : Nat) (f : RR) : Statement (.veq l f) := fun h _ e => Option.some.inj e ▸ of_leaf l h

theorem vne (l : Nat) (f : RR) : Statement (.vne l f) := fun h _ e => Option.some.inj e ▸ of_leaf l h

theorem vlt (l : Nat) (f : RR) : Statement (.vlt l f) := fun h _ e => Option.some.inj e ▸ of_leaf l h

theorem vltu (l : Nat) (f : RR) : Statement (.vltu l f) := fun h _ e => Option.some.inj e ▸ of_leaf l h

theorem vge (l : Nat) (f : RR) : Statement (.vge l f) := fun h _ e => Option.some.inj e ▸ of_leaf l h

theorem vgeu (l : Nat) (f : RR) : Statement (.vgeu l f) := fun h _ e => Option.some.inj e ▸ of_leaf l h

theorem vfeq (l : Nat) (f : RR) : Statement (.vfeq l f) := fun h _ e => Option.some.inj e ▸ of_leaf l h

theorem vfne (l : Nat) (f : RR) : Statement (.vfne l f) := fun h _ e => Option.some.inj e ▸ of_leaf l h

theorem vflt (l : Nat) (f : RR) : Statement (.vflt l f) := fun h _ e => Option.some.inj e ▸ of_leaf l h

theorem vfle (l : Nat) (f : RR) : Statement (.vfle l f) := fun h _ e => Option.some.inj e ▸ of_leaf l h

theorem vfun (l : Nat) (f : RR) : Statement (.vfun l f) := fun h _ e => Option.some.inj e ▸ of_leaf l h

theorem vsel (l : Nat) (f : RR) : Statement (.vsel l f) := fun h _ e => Option.some.inj e ▸ of_leaf l h

theorem vbcast (l : Nat) (f : RR) : Statement (.vbcast l f) := fun h _ e => Option.some.inj e ▸ of_leaf l h

theorem vext (l : Nat) (f : RR) : Statement (.vext l f) := fun h _ e => Option.some.inj e ▸ of_leaf l h

theorem vins (l : Nat) (f : RR) : Statement (.vins l f) := fun h _ e => Option.some.inj e ▸ of_leaf l h

theorem vperm (l : Nat) (f : RR) : Statement (.vperm l f) := fun h _ e => Option.some.inj e ▸ of_leaf l h

theorem vrsum (l : Nat) (f : RR) : Statement (.vrsum l f) := fun h _ e => Option.some.inj e ▸ of_leaf l h

theorem vrmax (l : Nat) (f : RR) : Statement (.vrmax l f) := fun h _ e => Option.some.inj e ▸ of_leaf l h

theorem vfrsum (l : Nat) (f : RR) : Statement (.vfrsum l f) := fun h _ e => Option.some.inj e ▸ of_leaf l h

theorem vfrmax (l : Nat) (f : RR) : Statement (.vfrmax l f) := fun h _ e => Option.some.inj e ▸ of_leaf l h

theorem vfrmin (l : Nat) (f : RR) : Statement (.vfrmin l f) := fun h _ e => Option.some.inj e ▸ of_leaf l h

theorem mtm (l : Nat) (f : RR) : Statement (.mtm l f) := fun h _ e => Option.some.inj e ▸ of_leaf l h

theorem mfm (l : Nat) (f : RR) : Statement (.mfm l f) := fun h _ e => Option.some.inj e ▸ of_leaf l h

theorem mpopc (l : Nat) (f : RR) : Statement (.mpopc l f) := fun h _ e => Option.some.inj e ▸ of_leaf l h

theorem vf2i (l : Nat) (f : RR) : Statement (.vf2i l f) := fun h _ e => Option.some.inj e ▸ of_leaf l h

theorem vi2f (l : Nat) (f : RR) : Statement (.vi2f l f) := fun h _ e => Option.some.inj e ▸ of_leaf l h

theorem vf2u (l : Nat) (f : RR) : Statement (.vf2u l f) := fun h _ e => Option.some.inj e ▸ of_leaf l h

theorem vu2f (l : Nat) (f : RR) : Statement (.vu2f l f) := fun h _ e => Option.some.inj e ▸ of_leaf l h

theorem vf2h (l : Nat) (f : RR) : Statement (.vf2h l f) := fun h _ e => Option.some.inj e ▸ of_leaf l h

theorem vh2f (l : Nat) (f : RR) : Statement (.vh2f l f) := fun h _ e => Option.some.inj e ▸ of_leaf l h

theorem vf2bf (l : Nat) (f : RR) : Statement (.vf2bf l f) := fun h _ e => Option.some.inj e ▸ of_leaf l h

theorem vbf2f (l : Nat) (f : RR) : Statement (.vbf2f l f) := fun h _ e => Option.some.inj e ▸ of_leaf l h

theorem vf2e4 (l : Nat) (f : RR) : Statement (.vf2e4 l f) := fun h _ e => Option.some.inj e ▸ of_leaf l h

theorem ve42f (l : Nat) (f : RR) : Statement (.ve42f l f) := fun h _ e => Option.some.inj e ▸ of_leaf l h

theorem vf2e5 (l : Nat) (f : RR) : Statement (.vf2e5 l f) := fun h _ e => Option.some.inj e ▸ of_leaf l h

theorem ve52f (l : Nat) (f : RR) : Statement (.ve52f l f) := fun h _ e => Option.some.inj e ▸ of_leaf l h

theorem vrcp (l : Nat) (f : RR) : Statement (.vrcp l f) := fun h _ e => Option.some.inj e ▸ of_leaf l h

theorem vrsq (l : Nat) (f : RR) : Statement (.vrsq l f) := fun h _ e => Option.some.inj e ▸ of_leaf l h

theorem vexp2 (l : Nat) (f : RR) : Statement (.vexp2 l f) := fun h _ e => Option.some.inj e ▸ of_leaf l h

theorem vlog2 (l : Nat) (f : RR) : Statement (.vlog2 l f) := fun h _ e => Option.some.inj e ▸ of_leaf l h

theorem vtanh (l : Nat) (f : RR) : Statement (.vtanh l f) := fun h _ e => Option.some.inj e ▸ of_leaf l h

theorem vsigm (l : Nat) (f : RR) : Statement (.vsigm l f) := fun h _ e => Option.some.inj e ▸ of_leaf l h

theorem steer (l : Nat) (f : Sf) : Statement (.steer l f) := fun h _ e => Option.some.inj e ▸ of_leaf l h

theorem merge (l : Nat) (f : Sf) : Statement (.merge l f) := fun h _ e => Option.some.inj e ▸ of_leaf l h

theorem filter (l : Nat) (f : Sf) : Statement (.filter l f) := fun h _ e => Option.some.inj e ▸ of_leaf l h

theorem ssteer (l : Nat) (f : Sf) : Statement (.ssteer l f) := fun h _ e => Option.some.inj e ▸ of_leaf l h

theorem smerge (l : Nat) (f : Sf) : Statement (.smerge l f) := fun h _ e => Option.some.inj e ▸ of_leaf l h

theorem sfilter (l : Nat) (f : Sf) : Statement (.sfilter l f) := fun h _ e => Option.some.inj e ▸ of_leaf l h

theorem sqpop (l : Nat) (f : RR) : Statement (.sqpop l f) := fun h _ e => Option.some.inj e ▸ of_ok l _ h

theorem sqtag (l : Nat) (f : RR) : Statement (.sqtag l f) := fun h _ e => Option.some.inj e ▸ of_ok l _ h

theorem sqpush (l : Nat) (f : RR) : Statement (.sqpush l f) := fun h _ e => Option.some.inj e ▸ of_ok l _ h

theorem qtestv (l : Nat) (f : RR) : Statement (.qtestv l f) := fun h _ e => Option.some.inj e ▸ of_ok l _ h

theorem qtests (l : Nat) (f : RR) : Statement (.qtests l f) := fun h _ e => Option.some.inj e ▸ of_ok l _ h

theorem qspacev (l : Nat) (f : RR) : Statement (.qspacev l f) := fun h _ e => Option.some.inj e ▸ of_ok l _ h

theorem qspaces (l : Nat) (f : RR) : Statement (.qspaces l f) := fun h _ e => Option.some.inj e ▸ of_ok l _ h

theorem lcinc (l : Nat) (f : RR) : Statement (.lcinc l f) := fun h _ e => Option.some.inj e ▸ of_ok l _ h

theorem lcrd (l : Nat) (f : RR) : Statement (.lcrd l f) := fun h _ e => Option.some.inj e ▸ of_ok l _ h

theorem ginc (l : Nat) (f : RR) : Statement (.ginc l f) := fun h _ e => Option.some.inj e ▸ of_ok l _ h

theorem gfinc (l : Nat) (f : RR) : Statement (.gfinc l f) := fun h _ e => Option.some.inj e ▸ of_ok l _ h

theorem grd (l : Nat) (f : RR) : Statement (.grd l f) := fun h _ e => Option.some.inj e ▸ of_ok l _ h

theorem bara (l : Nat) (f : RR) : Statement (.bara l f) := fun h _ e => Option.some.inj e ▸ of_ok l _ h

theorem lcwait (l : Nat) (f : Wf) : Statement (.lcwait l f) := fun h _ e => Option.some.inj e ▸ of_leaf l h

theorem gwait (l : Nat) (f : Wf) : Statement (.gwait l f) := fun h _ e => Option.some.inj e ▸ of_leaf l h

theorem rldw (l : Nat) (f : RR) : Statement (.rldw l f) := fun h _ e => Option.some.inj e ▸ of_ok l _ h

theorem rstw (l : Nat) (f : RR) : Statement (.rstw l f) := fun h _ e => Option.some.inj e ▸ of_ok l _ h

theorem rstv (l : Nat) (f : RR) : Statement (.rstv l f) := fun h _ e => Option.some.inj e ▸ of_ok l _ h

theorem rfence (l : Nat) (f : RR) : Statement (.rfence l f) := fun h _ e => Option.some.inj e ▸ of_ok l _ h

theorem epost (l : Nat) (f : RR) : Statement (.epost l f) := fun h _ e => Option.some.inj e ▸ of_ok l _ h

theorem dpost (l : Nat) (f : RR) : Statement (.dpost l f) := fun h _ e => Option.some.inj e ▸ of_ok l _ h

theorem dposth (l : Nat) (f : RR) : Statement (.dposth l f) := fun h _ e => Option.some.inj e ▸ of_ok l _ h

theorem supplyRestored : Statement (.supplyRestored) := fun _ _ e => nomatch e

theorem refclkRestored : Statement (.refclkRestored) := fun _ _ e => nomatch e

theorem moduleRetrained (port : Nat) (mod : Nat) (ok : Bool) (lanes : Byte) : Statement (.moduleRetrained port mod ok lanes) := fun _ _ e => nomatch e

theorem testAccessPort (op : TapOp) : Statement (.testAccessPort op) := fun _ _ e => nomatch e

theorem mctpPacket (u : MctpUnit) : Statement (.mctpPacket u) := fun _ _ e => nomatch e

end Sys2Proof.Laws.LeafInRange
end

