-- ==== Sys2Proof/Tests/Slice0.lean ====
section
/-! SUPPORT. Tests: ill-formed commands are refused, words of the leaf's instructions written out from R68 and R77, and for
each statement a state and operands that meet its hypotheses (witness_<statement>). -/
namespace Sys2Proof.Tests

set_option Elab.async false

open Sys2Proof Sys2Proof.Machine

/-! ## Small states -/

/-- A chiplet in COMPUTE at slot 9, with twelve boughs in a row mapped one to one, and leaf 0 as given. -/
def chip (x : Leaf) : State :=
  { pins := { porst := true, porstPin := true, ready := true }
    boot := { phase := .compute, slotId := 9, width := 12, boughMap := (List.range 144).map (fun b => (b, b)) }
    leaves := [(0, x)] }

/-- A leaf that runs with `w` as its only instruction, a code window of 16 words and a data window of rows 1 to 16. -/
def core (w : Nat) (x : Leaf) : Leaf :=
  { x with run := .running, tcode := [(0, 0x00100000)], tdata := [(0, 0x00100001)], istore := [(0, BitVec.ofNat 32 w)] }

/-- Leaf 0 issues `w`, unguarded, in cycle 0. -/
def goes (w : Nat) (x : Leaf) (srcs : List Nat) (fp : Bool := false) : Bool := issues (chip (core w x)) 0 w 0 srcs fp 0

def rr (d a b : Nat) (msk : Nat := 0) : RR :=
  { g := 0, d := BitVec.ofNat 5 d, a := BitVec.ofNat 5 a, b := BitVec.ofNat 5 b, msk := BitVec.ofNat 3 msk }

def ri (d a imm : Nat) : RI := { g := 0, d := BitVec.ofNat 5 d, a := BitVec.ofNat 5 a, imm := BitVec.ofNat 12 imm }

def ag (d n : Nat) (msk : Nat := 0) : AGf :=
  { g := 0, d := BitVec.ofNat 5 d, ag := BitVec.ofNat 3 n, msk := BitVec.ofNat 3 msk, rsv := 0 }

def sf (d x y p : Nat) : Sf :=
  { g := 0, d := BitVec.ofNat 5 d, x := BitVec.ofNat 5 x, y := BitVec.ofNat 5 y, p := BitVec.ofNat 4 p }

def wff (d a b pd cn : Nat) : Wf :=
  { g := 0, d := BitVec.ofNat 5 d, a := BitVec.ofNat 5 a, b := BitVec.ofNat 5 b, pd := BitVec.ofNat 3 pd, cn := BitVec.ofNat 4 cn }

def tok (n : Nat) : Tok := { data := List.replicate 16 (BitVec.ofNat 32 n), tag := 7 }

/-- One token in every queue. -/
def fed : SMap Queue := (List.range 8).map (fun q => (q, { toks := [tok q] }))

/-! ## Words (R68, R77) -/

/-- R74's worked encoding: VFADD v0, v0, v1, plain, under p3 true and under p3 false. -/
theorem test_word_vfadd : wVV 0x19 0 (rr 0 0 1) = 0x64000080 ∧ wVV 0x19 0 { rr 0 0 1 with g := 0b1011 } = 0x66C00080
    ∧ wVV 0x19 0 { rr 0 0 1 with g := 0b0011 } = 0x64C00080 := by decide

/-- ADD s1, s2, s3 is 000001 0000 00001 00010 00011 0000000. -/
theorem test_word_add : wRR 0x01 0 (rr 1 2 3) = 0b00000100000000100010000110000000 := by decide

/-- STW s1, [s2 − 4 words] is 010001 0000 00001 00010 111111111100. -/
theorem test_word_stw : wRI 0x11 (ri 1 2 0xFFC) = 0b01000100000000100010111111111100 := by decide

/-- SRAI s1, s2, 31 is 000110 0000 00001 00010 10 00000 11111. -/
theorem test_word_srai : wSH 2 { g := 0, d := 1, a := 2, rsv := 0, amt := 31 } = 0b00011000000000100010100000011111 := by decide

/-- LIH s1, 0xABCD is 000111 0000 00001 1 1010101111001101. -/
theorem test_word_lih : wLI 1 { g := 0, d := 1, imm := 0xABCD } = 0b00011100000000111010101111001101 := by decide

/-- CMPI GE p2, s3, −1 is 001001 0000 11010 00011 111111111111. -/
theorem test_word_cmpi : wCMP 3 { g := 0, pd := 2, a := 3, imm := 0xFFF } = 0b00100100001101000011111111111111 := by decide

/-- BR s1, s2 + 3 is 001011 0000 00001 00010 000000000011; LOOPI k1, 200, END 9 is 001101 0000 01 11001000 000000001001. -/
theorem test_word_br : wBR { g := 0, d := 1, a := 2, target := 3 } = 0b00101100000000100010000000000011
    ∧ wLPI { g := 0, k := 1, count := 200, fin := 9 } = 0b00110100000111001000000000001001 := by decide

/-- VSTA v1, a2 under MK 0b101 is 010010 0000 00001 010 1 101 1 000000000. -/
theorem test_word_vsta : wAG 1 1 (ag 1 2 5) = 0b01001000000000101011011000000000 := by decide

/-- STEER v1, vq0, v2 by sq1 (P = 9) is 100000 0000 00001 10000 00010 1001 000. -/
theorem test_word_steer : wS 0 (sf 1 16 2 9) = 0b10000000000000110000000101001000 := by decide

/-- GWAIT s2, pair s4, s6, p1 is 100100 0000 00010 00100 00110 001 0000. -/
theorem test_word_gwait : wW 0x24 (wff 2 4 6 1 0) = 0b10010000000001000100001100010000 := by decide

/-- Undefined words: major 0x0F, FN 7 of the system major, an odd pair, MK with a port destination. -/
theorem test_illegal_words : legalWord (0x0F * 2 ^ 26) = false ∧ legalWord 7 = false
    ∧ legalWord (wRR 0x22 1 (rr 3 0 0)) = false ∧ legalWord (wVV 0x18 0 (rr 24 0 1 4)) = false := by decide

/-! ## Leaf instructions -/

theorem witness_ScalarAluResults :
    AluRows ⟨.add, 0, 1, fun a b => a + b⟩
    ∧ goes (wRR 0x01 0 (rr 31 1 2)) { sregs := [(1, 5), (2, 0xFFFFFFFF)] } [1, 2] = true
    ∧ goes (wRR 0x01 15 (rr 0 1 0)) {} [1] = true ∧ goes (wRR 0x01 16 (rr 3 3 0)) {} [3] = true :=
  ⟨.head _, by decide +kernel⟩

theorem witness_ScalarImmediateResults :
    ImmRows ⟨.addi, 2, fun a b => a + b⟩ ∧ ShiftRows ⟨.slli, 0, fun a n => a <<< n⟩
    ∧ goes (wRI 2 (ri 1 1 0x800)) {} [1] = true
    ∧ goes (wSH 0 { g := 0, d := 1, a := 2, rsv := 0, amt := 31 }) {} [2] = true
    ∧ goes (wLI 0 { g := 0, d := 0, imm := 0x8000 }) {} [] = true
    ∧ goes (wLI 1 { g := 0, d := 5, imm := 0xFFFF }) {} [5] = true ∧ goes (wRR 0x01 17 (rr 4 0 0)) { preds := 0xA5 } [] = true :=
  ⟨.head _, .head _, by decide +kernel⟩

theorem witness_PredicateResults :
    CmpRows ⟨.eq, 0, fun a b => a = b⟩ ∧ CmpiRows ⟨.cmpiEq, 0, fun a b => a = b⟩ ∧ PredRows ⟨.pand, 0, fun a b => a && b⟩
    ∧ goes (wRR 0x08 0 (rr 7 1 2)) {} [1, 2] = true ∧ goes (wCMP 0 { g := 0, pd := 0, a := 31, imm := 0 }) {} [31] = true
    ∧ goes (wRR 0x0A 0 (rr 1 1 7)) {} [] = true ∧ goes (wRR 0x01 18 (rr 0 9 0)) { sregs := [(9, 0xFF)] } [9] = true :=
  ⟨.head _, .head _, .head _, by decide +kernel⟩

theorem witness_VectorIntegerResults :
    VecRows ⟨.vadd, 0, fun a b => a + b⟩
    ∧ goes (wVV 0x18 0 (rr 24 16 16)) { queues := fed } (vkey 16 ++ vkey 16 ++ mkey 0) = true
    ∧ vecReady (core 0 { queues := fed }) 0 [16, 16] 24 = true
    ∧ goes (wVV 0x18 14 (rr 15 0 0 7)) {} (vkey 0 ++ mkey 7) = true ∧ vecReady (core 0 {}) 0 [0] 15 = true
    ∧ goes (wVV 0x18 15 (rr 0 15 0 1)) {} (vkey 15 ++ mkey 1) = true ∧ vecReady (core 0 {}) 0 [15] 0 = true :=
  ⟨.head _, by decide +kernel⟩

theorem witness_VectorFloatResults :
    FpRows2 ⟨.vfadd, 0, 4, fun rm a b _ => faddW rm a b⟩ ∧ FpRows3 ⟨.vfma, 3, 4, fun rm a b d => ffmaW rm false false a b d⟩
    ∧ FpRows1 ⟨.vfabs, 8, 4, fun _ a _ _ => (a &&& 0x7FFFFFFF, 0)⟩
    ∧ goes (wVV 0x19 0 (rr 1 19 2)) { queues := fed } (vkey 19 ++ vkey 2 ++ mkey 0) true = true
    ∧ vecReady (core 0 { queues := fed }) 0 [19, 2] 1 = true
    ∧ goes (wVV 0x19 3 (rr 1 2 3 5)) {} (vkey 2 ++ vkey 3 ++ vkey 1 ++ mkey 5) true = true ∧ vecReady (core 0 {}) 0 [2, 3] 1 = true
    ∧ goes (wVV 0x19 8 (rr 25 2 0)) {} (vkey 2 ++ mkey 0) true = true ∧ vecReady (core 0 {}) 0 [2] 25 = true :=
  ⟨.head _, .head _, .head _, by decide +kernel⟩

theorem witness_VectorConversionResults :
    VxfRows ⟨.vrcp, 0, 8, fun _ a _ _ => (vrcpW a, 0)⟩
    ∧ goes (wVV 0x1D 0 (rr 1 2 0 3)) {} (vkey 2 ++ mkey 3) true = true ∧ vecReady (core 0 {}) 0 [2] 1 = true
    ∧ goes (wVV 0x1C 0 (rr 1 2 0)) {} (vkey 2 ++ mkey 0) true = true :=
  ⟨.head _, by decide +kernel⟩

theorem witness_VectorCompareResults :
    VcmpRows ⟨.veq, 0, fun a b => a = b, fun _ _ => false⟩
    ∧ goes (wVV 0x1A 0 (rr 3 16 17 6)) { queues := fed } (vkey 16 ++ vkey 17 ++ mkey 6) = true
    ∧ vBlock (core 0 { queues := fed }) 0 [16, 17] 0 = none :=
  ⟨.head _, by decide +kernel⟩

theorem witness_VectorMoveResults :
    goes (wVV 0x1B 0 (rr 1 2 3 4)) {} (vkey 2 ++ vkey 3 ++ mkey 4) = true ∧ vecReady (core 0 {}) 0 [2, 3] 1 = true
    ∧ goes (wVV 0x1B 1 (rr 24 9 0)) {} (9 :: mkey 0) = true ∧ vecReady (core 0 {}) 0 [] 24 = true
    ∧ goes (wVV 0x1B 4 (rr 1 2 3 2)) {} (vkey 2 ++ vkey 3 ++ mkey 2) = true
    ∧ goes (wVV 0x1B 3 (rr 1 9 15)) {} (9 :: vkey 1) = true := by decide +kernel

theorem witness_VectorToScalarResults :
    RedRows ⟨.vrsum, 5, 4, fun _ sel v => (redSum sel v, 0)⟩
    ∧ goes (wVV 0x1B 2 (rr 1 16 15)) { queues := fed } (vkey 16) = true ∧ vBlock (core 0 { queues := fed }) 0 [16] 0 = none
    ∧ goes (wVV 0x1B 5 (rr 1 2 0 4)) {} (vkey 2 ++ mkey 4) = true ∧ vBlock (core 0 {}) 0 [2] 0 = none
    ∧ goes (wVV 0x1B 10 (rr 3 1 0)) {} [1] = true ∧ goes (wVV 0x1B 11 (rr 1 3 0)) {} [67] = true
    ∧ goes (wVV 0x1B 12 (rr 1 0 0)) {} [64] = true :=
  ⟨.head _, by decide +kernel⟩

theorem witness_LoadResults :
    let s (w : Nat) (x : Leaf) := chip (core w x)
    goes (wRI 0x10 (ri 1 0 255)) {} [0, spadKey] = true
    ∧ loadsAt (s (wRI 0x10 (ri 1 0 255)) {}) 0 (immAddr (core 0 {}) (ri 1 0 255) 4) 4 1084 = true
    ∧ goes (wRI 0x13 (ri 25 0 15)) {} [0, spadKey] = true ∧ vecReady (core 0 {}) 0 [] 25 = true
    ∧ loadsAt (s (wRI 0x13 (ri 25 0 15)) {}) 0 (immAddr (core 0 {}) (ri 25 0 15) 64) 64 1024 = true
    ∧ goes (wAG 0 0 (ag 1 2)) {} [spadKey] = true ∧ loadsAt (s (wAG 0 0 (ag 1 2)) {}) 0 (agAddr {}) 4 64 = true
    ∧ goes (wAG 1 0 (ag 1 2)) {} [spadKey] = true ∧ loadsAt (s (wAG 1 0 (ag 1 2)) {}) 0 (agAddr {}) 64 64 = true := by
  decide +kernel

theorem witness_StoreResults :
    let s (w : Nat) (x : Leaf) := chip (core w x)
    goes (wRI 0x11 (ri 1 0 255)) {} [0, 1, spadKey] = true
    ∧ storesAt (s (wRI 0x11 (ri 1 0 255)) {}) 0 1020 4 1084 (wordBit 1084) = true ∧ immAddr (core 0 {}) (ri 1 0 255) 4 = 1020
    ∧ goes (wAG 0 1 (ag 1 7)) {} [1, spadKey] = true ∧ storesAt (s (wAG 0 1 (ag 1 7)) {}) 0 (agAddr {}) 4 64 (wordBit 64) = true
    ∧ goes (wRI 0x14 (ri 16 0 15)) { queues := fed } (0 :: spadKey :: vkey 16) = true
    ∧ vBlock (core 0 { queues := fed }) 0 [16] 0 = none
    ∧ storesAt (s (wRI 0x14 (ri 16 0 15)) { queues := fed }) 0 (immAddr (core 0 {}) (ri 16 0 15) 64) 64 1024 0xFFFF = true
    ∧ goes (wAG 1 1 (ag 1 2 7)) {} (spadKey :: vkey 1 ++ mkey 7) = true
    ∧ storesAt (s (wAG 1 1 (ag 1 2 7)) {}) 0 (agAddr {}) 64 64 (selMask (core 0 {}) 7) = true := by decide +kernel

theorem witness_IndexedAccessResults :
    let x := core (wVV 0x15 0 (rr 1 2 3 1)) {}
    let y := core (wVV 0x15 1 (rr 1 2 3)) {}
    goes (wVV 0x15 0 (rr 1 2 3 1)) {} (2 :: spadKey :: vkey 3 ++ mkey 1) = true ∧ vecReady x 0 [3] 1 = true
    ∧ laneFault x (laneOffs x (rr 1 2 3 1)) = none ∧ sbHolds x ((laneOffs x (rr 1 2 3 1)).map (fun p => laneWord x p.2)) false = false
    ∧ coreWins (chip x) 0 (firstRows ((laneOffs x (rr 1 2 3 1)).map (fun p => laneWord x p.2))) false = true
    ∧ ((laneOffs x (rr 1 2 3 1)).map (fun p => laneWord x p.2)).all (fun w =>
        (firstRows ((laneOffs x (rr 1 2 3 1)).map (fun p => laneWord x p.2))).contains (w / 16)
          && (coreWord (coreAtBank (chip x) 0 (firstRows ((laneOffs x (rr 1 2 3 1)).map (fun p => laneWord x p.2))) false) 0 w).2
            = (false, false)) = true
    ∧ goes (wVV 0x15 1 (rr 1 2 3)) {} (2 :: spadKey :: vkey 3 ++ vkey 1 ++ mkey 0) = true ∧ vBlock y 0 [3, 1] 0 = none
    ∧ laneFault y (laneOffs y (rr 1 2 3)) = none
    ∧ sbHolds y ((laneOffs y (rr 1 2 3)).map (fun p => laneWord y p.2)) true = false
    ∧ buffered y ((laneOffs y (rr 1 2 3)).map (fun p => laneWord y p.2 / 16)) = false
    ∧ coreWins (chip y) 0 (firstRows ((laneOffs y (rr 1 2 3)).map (fun p => laneWord y p.2))) true = true := by decide +kernel

theorem witness_SteeringResults :
    let x := core 0 { queues := fed }
    SteerRows ⟨.steer, 0, fun f _ => f.x, fun f p => some (if p then f.d else f.y)⟩
    ∧ ScalarSteerRows ⟨.ssteer, 4, fun f _ => f.x, fun f p => some (if p then f.d else f.y)⟩
    ∧ pTrue x 9 = true ∧ goes (wS 0 (sf 24 16 2 9)) { queues := fed } (pKey 9 ++ vkey 16) = true
    ∧ firstBlock (((pQueue 9 ++ vqs [16]).eraseDups.map (fun q => popBlock x 0 q true))
        ++ (((some 24 : Option Nat).bind vPort).toList.map (pushBlock x))) = none ∧ deliverable x 24 = true
    ∧ goes (wS 4 (sf 4 2 5 11)) { queues := fed } (pKey 11 ++ [206]) = true
    ∧ firstBlock (((pQueue 11 ++ [6]).eraseDups.map (fun q => popBlock x 0 q true)) ++ ([2].map (pushBlock x))) = none
    ∧ (effect x).isSome = true := by
  intro x
  exact ⟨.head _, .head _, by decide +kernel⟩

theorem witness_QueueResults :
    goes (wRR 0x21 0 (rr 1 0 3)) { queues := fed } [207] = true ∧ popBlock (core 0 { queues := fed }) 0 7 true = none
    ∧ goes (wRR 0x21 1 (rr 1 0 0)) { queues := fed } [204] = true ∧ popBlock (core 0 { queues := fed }) 0 4 false = none
    ∧ goes (wRR 0x21 2 (rr 1 2 3)) {} [2, 3] = true ∧ pushBlock (core 0 {}) 3 = none ∧ (effect (core 0 {})).isSome = true
    ∧ goes (wRR 0x21 3 (rr 7 0 3)) {} [] = true ∧ goes (wRR 0x21 4 (rr 0 0 0)) {} [] = true
    ∧ goes (wRR 0x21 5 (rr 1 0 1)) {} [] = true ∧ goes (wRR 0x21 6 (rr 1 0 0)) {} [] = true := by decide +kernel

theorem witness_LocalCounterResults :
    let x : Leaf := { lcs := [(3, 0xFFFFFFFFFFFFFFFF)], sregs := [(4, 9)] }
    goes (wRR 0x22 1 (rr 30 0 15)) x [] = true ∧ goes (wRR 0x22 0 (rr 0 4 3)) x [4] = true ∧ performs (core 0 x) = true
    ∧ goes (wW 0x23 (wff 2 4 0 1 3)) x (pairKeys 4 ++ [0]) = true
    ∧ (spair (core 0 x) 4).toNat ≤ (lcSeen (core 0 x) 3).toNat
    ∧ (lcSeen (core 0 x) 2).toNat < (spair (core 0 x) 4).toNat
    ∧ goes (wW 0x23 (wff 2 4 0 1 2)) x (pairKeys 4 ++ [0]) = true
    ∧ goes (wW 0x24 (wff 2 4 6 1 0)) x (2 :: pairKeys 4 ++ [6]) = true := by decide +kernel

/-- s2 and s3 hold the global address of heartwood byte 0x40 of this chiplet. -/
def here : SMap Word := [(2, 0x40), (3, 0xFFFF8000), (6, 1)]

theorem witness_RemoteOperationsLeave :
    let x : Leaf := { sregs := here }
    let s := chip (core 0 x)
    chipOf (spair (core 0 x) 2) = 0x1FFFF ∧ goes (wRR 0x22 2 (rr 0 2 0)) x (pairKeys 2 ++ [0]) = true
    ∧ sourceRefused s (chipOf (spair (core 0 x) 2)) = false ∧ performs (core 0 x) = true
    ∧ goes (wRR 0x22 3 (rr 0 2 6)) x (pairKeys 2 ++ [6]) = true ∧ goes (wRR 0x22 5 (rr 0 2 0)) x (pairKeys 2) = true
    ∧ goes (wRR 0x25 1 (rr 0 2 6)) x (pairKeys 2 ++ [6]) = true ∧ cached s 0 (spair (core 0 x) 2) = false
    ∧ goes (wRR 0x25 2 (rr 0 2 15)) x (pairKeys 2 ++ vkey 15) = true ∧ (spair (core 0 x) 2).toNat % 64 = 0
    ∧ vBlock (core 0 x) 0 [15] 0 = none := by decide +kernel

theorem witness_RemoteReadsLeave :
    let x : Leaf := { sregs := here }
    goes (wRR 0x25 0 (rr 5 2 0)) x (pairKeys 2) = true ∧ goes (wRR 0x22 4 (rr 4 2 0)) x (pairKeys 2) = true
    ∧ sourceRefused (chip (core 0 x)) (chipOf (spair (core 0 x) 2)) = false
    ∧ cached (chip (core 0 x)) 0 (spair (core 0 x) 2) = false ∧ (spair (core 0 x) 2).toNat % 4 = 0 := by decide +kernel

theorem witness_CachedAccessResults :
    let k : CLine := { line := 1, dirty := false, data := zeroLanes }
    let x : Leaf := { sregs := here, cache := { size := 1, lines := [k] } }
    goes (wRR 0x25 0 (rr 5 2 0)) x (pairKeys 2) = true ∧ cached (chip (core 0 x)) 0 (spair (core 0 x) 2) = true
    ∧ findLine (core 0 x) (offOf (spair (core 0 x) 2) / 64) = some k
    ∧ goes (wRR 0x25 1 (rr 0 2 6)) x (pairKeys 2 ++ [6]) = true ∧ goes (wRR 0x25 2 (rr 0 2 15)) x (pairKeys 2 ++ vkey 15) = true
    ∧ goes (wRR 0x25 3 (rr 0 0 0)) x [] = true ∧ dirtyLines (core 0 x) = [] := by decide +kernel

/-- TADD of the FP32 tiles at rows 1 and 300 of bough leaf 0 into row 600. -/
def tadd : Lanes := mkLanes (fun i => if i = 0 then 0x01000002 else if i = 4 then 1 else if i = 5 then 300 else if i = 6 then 600 else 0)

theorem witness_PostsEnterQueues :
    let x := core (wRR 0x26 0 (rr 0 1 0)) { vregs := [(1, tadd)] }
    let d : BitVec 512 := BitVec.ofNat 512 (ofWords (vval x 1))
    let op : OpId := { dma := false, leaf := 0, post := (postNumber x).1, replay := replayNo x (postNumber x) }
    let y := core (wRR 0x26 2 (rr 0 1 0)) {}
    let p : Poster := .leaf 0 0 0 false 0 0x00100001
    goes (wRR 0x26 0 (rr 0 1 0)) x (vkey 1) = true ∧ vBlock x 0 [1] 0 = none ∧ engineRefusal (chip x) 0 d = none
    ∧ (engOf (chip x) 0).queue.length < 4 ∧ (postNumber x).2 = false
    ∧ (∀ j, j < 16 → (engineEntries d op j).length ≤ sbFree (leafOf (chip x) (boughLeaf 0 j)))
    ∧ goes (wRR 0x26 2 (rr 0 1 0)) y (vkey 1) = true ∧ y.dposts < 4
    ∧ (dmaEntries (dmaBits (vval y 1) 8) (dBase p) (dOpId p 0)).length ≤ sbFree y := by decide +kernel

theorem witness_ControlFlowResults :
    let b : BRf := { g := 0, d := 1, a := 0, target := 3 }
    let p : LPf := { g := 0, k := 1, rsv := 0, a := 2, fin := 4 }
    let q : LPIf := { g := 0, k := 3, count := 0, fin := 4 }
    let x : Leaf := { loops := [{ k := 0, count := 2, start := 0, fin := 9 }] }
    goes (wBR b) x [0] = true ∧ x.loops.any (fun r => r.fin = x.pc) = false
    ∧ goes (wLP p) x [2] = true ∧ x.loops.any (fun r => r.k = 1) = false ∧ x.pc < 4 ∧ goes (wLPI q) x [] = true
    ∧ x.loops.any (fun r => r.k = 3) = false ∧ x.loops.head?.all (fun r => 4 < r.fin) = true
    ∧ goes (wAGS { g := 0, ag := 7, field := 3, a := 1, add := 1, rsv := 0 }) {} [1] = true := by decide +kernel

theorem witness_SystemResults :
    let x : Leaf := { sregs := [(1, 4), (2, 0x10000000)], step := { shadow := some (shadowOf {}) } }
    goes (wRR 0 0 (rr 0 0 0)) {} [] = true ∧ goes (wRR 0 5 (rr 1 0 27)) {} [] = true ∧ srRead 0 (core 0 {}) 0 27 = some 0
    ∧ goes (wRR 0 6 (rr 0 1 2)) x [1] = true ∧ (sreg x 1).toNat ≤ 4 ∧ goes (wRR 0 6 (rr 0 2 19)) x [2] = true
    ∧ windowOk (sreg x 2).toNat 4096 = true ∧ goes (wRR 0 6 (rr 0 2 23)) x [2] = true ∧ windowOk (sreg x 2).toNat (usableRows x) = true
    ∧ goes (wRR 0 2 (rr 0 0 0)) {} [] = true ∧ goes (wRR 0 3 (rr 0 0 0)) x [] = true
    ∧ stepLoads (chip (core (wRR 0 3 (rr 0 0 0)) x)) 0 0 = false ∧ goes (wRR 0 4 (rr 0 0 3)) {} [] = true
    ∧ goes (wRR 0 1 (rr 0 0 0)) {} [] = true := by decide +kernel

/-! ## Ill-formed commands -/

def aReq : Req := { origin := 0x1FFFF, src := 0, dst := 0x900, tag := 1, addr := 0x40, acctEn := false, acctGc := 0, len := 0,
                    vc := 3, rsv := false, via := none, data := [] }

def aResp : Resp := { ep := 0, via := none, tag := 1, code := 0, len := 0, rsv := false, data := [] }

def aCanopy : Canopy := { crc := 0, seq := 0, image := 0, offset := 0, y1 := 47, y0 := 0, x1 := 47, x0 := 0, all := true, cnt := 0,
                          cntEn := false, lenM1 := 0, rsv := false, payload := [0], hurt := [] }

def aColl : CollMsg := { src := 0, group := 0, seq := 0, rank := 0, landing := 0, tag := 0, piece := 0, bytes := 0, last := false,
                         reason := 0, crc := 0, rsv := false, data := [], dstBase := 0, recvBase := 0 }

def aHdr : ConasHdr := { transport := .i3c, address := 8, tag := 0, version := 1, resp := false, rsv := false, session := 0,
                         status := 0, seq := 1, length := 0 }

def aRead : Readings := { crown := List.replicate 144 0x42480000, hw := List.replicate 64 0x42480000,
                          bough := List.replicate 144 0x3F800000, rails := List.replicate 14 0x3F800000 }

def aFlit : Flit := { ctl := 0, slots := List.replicate 14 0 }

/-- Well formed with its operands in range, ill formed with the one named out of it. -/
theorem test_wf_leaf : (Instr.add 2303 (rr 1 2 3)).wellFormed = true ∧ (Instr.add 2304 (rr 1 2 3)).wellFormed = false
    ∧ (Instr.add 0 (rr 1 2 3 1)).wellFormed = false ∧ (Instr.vadd 0 (rr 1 2 3 7)).wellFormed = true
    ∧ (Instr.gatherDrain 0 4096).wellFormed = false ∧ (Instr.flowCreditReturn 0 18).wellFormed = false
    ∧ (Instr.refill 0 8).wellFormed = false := by decide +kernel

theorem test_wf_requests : (Instr.read4 aReq).wellFormed = true ∧ (Instr.read4 { aReq with dst := 0x1000 }).wellFormed = false
    ∧ (Instr.write64 { aReq with src := 0x1000 }).wellFormed = false ∧ (Instr.cinc { aReq with via := some 4 }).wellFormed = false
    ∧ (Instr.cread { aReq with len := 32 }).wellFormed = false ∧ (Instr.read64 { aReq with vc := 8 }).wellFormed = false
    ∧ (Instr.write256 { aReq with data := List.replicate 65 0 }).wellFormed = false
    ∧ (Instr.data aResp).wellFormed = true ∧ (Instr.data { aResp with ep := 0x1000 }).wellFormed = false
    ∧ (Instr.nak { aResp with len := 32 }).wellFormed = false ∧ (Instr.ack { aResp with via := some 4 }).wellFormed = false
    ∧ (Instr.ack { aResp with data := List.replicate 65 0 }).wellFormed = false
    ∧ (Instr.responseTimeout 0 0x8000).wellFormed = false
    ∧ (Instr.remoteIncrement { gc := 4096, amount := 1, acks := [] }).wellFormed = false
    ∧ (Instr.remoteIncrement { gc := 0, amount := 2 ^ 44, acks := [] }).wellFormed = false
    ∧ (Instr.barrierCombine 161 0).wellFormed = false ∧ (Instr.barrierCombine 160 4096).wellFormed = false := by decide +kernel

theorem test_wf_units : (Instr.engineOpStart 143).wellFormed = true ∧ (Instr.engineOpStart 144).wellFormed = false
    ∧ (Instr.refresh 144).wellFormed = false ∧ (Instr.go 16).wellFormed = false ∧ (Instr.collTimeout 16).wellFormed = false
    ∧ (Instr.crownDown 5).wellFormed = false ∧ (Instr.unitFailure { kind := 11, position := 0, test := 0, data := 0 }).wellFormed = false
    ∧ (Instr.startTest [{ kind := 0, position := 0, test := 0, data := 0 }]).wellFormed = false
    ∧ (Instr.memoryInit [{ kind := 0, position := 0, test := 0, data := 0 }] []).wellFormed = false := by decide +kernel

theorem test_wf_packets : (Instr.spad aCanopy).wellFormed = true ∧ (Instr.spad { aCanopy with payload := [] }).wellFormed = false
    ∧ (Instr.endPkt { aCanopy with hurt := [2304] }).wellFormed = false
    ∧ (Instr.grant aColl).wellFormed = true ∧ (Instr.grant { aColl with data := List.replicate 257 0 }).wellFormed = false
    ∧ (Instr.flitReceive 3 7 0 aFlit).wellFormed = true ∧ (Instr.flitReceive 4 7 0 aFlit).wellFormed = false
    ∧ (Instr.flitReceive 3 8 0 aFlit).wellFormed = false ∧ (Instr.flitReceive 3 7 0 { aFlit with slots := [] }).wellFormed = false
    ∧ (Instr.portTrainingComplete 0 true 0xFF []).wellFormed = false ∧ (Instr.linkTrainingRetry 4).wellFormed = false
    ∧ (Instr.moduleRetrained 0 8 true 0).wellFormed = false := by decide +kernel

theorem test_wf_sensors_and_messages : (Instr.sensorSample aRead).wellFormed = true
    ∧ (Instr.sensorSample { aRead with crown := [] }).wellFormed = false
    ∧ (Instr.sensorSample { aRead with rails := List.replicate 14 0x7F800000 }).wellFormed = false
    ∧ (Instr.thermalTrip 143 0x42E60000).wellFormed = true ∧ (Instr.thermalTrip 144 0x42E60000).wellFormed = false
    ∧ (Instr.thermalTrip 0 0x7FC00000).wellFormed = false ∧ (Instr.supplyFault 16).wellFormed = false
    ∧ (Instr.cmdDone).wellFormed = true ∧ (Instr.nvCommit { h := { aHdr with length := 2 ^ 16 }, offset := 0, data := [] }).wellFormed = false
    ∧ (Instr.mctpPacket { srcEid := 8, dstEid := 0, som := true, eom := true, pktSeq := 0, tag := 0, owner := true, pecOk := true,
                          payload := List.replicate 65 0 }).wellFormed = false := by decide +kernel

/-! ## Power, resets, start-up and the governor -/

/-- The chiplet at slot 9, out of reset, in phase `p`. -/
def upIn (p : Phase) : State :=
  { pins := { porst := true, porstPin := true, ready := decide (p = .compute) }
    boot := { phase := p, slotId := 9, fwManifest := [1], width := 12, boughMap := (List.range 144).map (fun b => (b, b)) } }

theorem witness_ResetAndStartUp :
    let s : State := {}
    let t : State := { pins := { porstPin := true } }
    s.pins.porst = false ∧ s.boot.clears = [] ∧ s.pins.porstPin = false ∧ s.pins.railsOk = true ∧ s.pins.refOk = true
    ∧ (39 : BitVec 6).toNat < 40 ∧ ¬ (40 : BitVec 6).toNat < 40
    ∧ ({ s with pins := { s.pins with railsOk := false } } : State).pins.porstPin = false
    ∧ t.pins.porst = false ∧ t.pins.porstPin = true ∧ t.pins.railsOk = true ∧ t.pins.refOk = true := by decide

theorem witness_StartUpPhases :
    let a := upIn .odAssembly
    let hurt : Site := { kind := 2, position := 143, test := 13, data := 0 }
    inPhase (upIn .romBoot) .romBoot = true ∧ inPhase (upIn .fwVerify) .fwVerify = true
    ∧ slotReason (upIn .fwVerify) 0 ≠ 0 ∧ slotReason (upIn .fwVerify) 1 ≠ 0
    ∧ inPhase a .odAssembly = true ∧ (a.boot.recovery || 40 ≤ a.boot.slotId.toNat || a.fuse.lifecycle = 5) = false
    ∧ inPhase { a with boot := { a.boot with slotId := 40 } } .odAssembly = true
    ∧ inPhase (upIn .profileApply) .profileApply = true ∧ inPhase (upIn .calibration) .calibration = true
    ∧ hurt.test.toNat ∈ [6, 9, 10, 12, 13] ∧ inPhase (upIn .memoryInit) .memoryInit = true
    ∧ (upIn .memoryInit).pins.crownRst = true ∧ inPhase (upIn .startTest) .startTest = true ∧ testRuns (upIn .startTest) 13 = true
    ∧ inPhase (upIn .gridBuild) .gridBuild = true ∧ crownNeedsNow (upIn .gridBuild) (gridWidth (upIn .gridBuild)) = true := by
  decide +kernel

theorem witness_CrownResetSequence :
    let s := upIn .startTest
    let r := upIn .crownReset
    let w : State := { r with boot := { r.boot with waitCrownRst := true } }
    let q : State := { r with boot := { r.boot with crownSeq := true } }
    s.pins.crownRst = true ∧ crownRstActs { s with pins := { s.pins with crownRst := false } } = true
    ∧ crownRstActs { upIn .memoryInit with pins := { (upIn .memoryInit).pins with crownRst := false } } = false
    ∧ w.boot.waitCrownRst = true ∧ w.boot.phase = .crownReset ∧ s.boot.waitCrownRst = false
    ∧ inPhase q .crownReset = true ∧ q.boot.crownSeq = true ∧ q.boot.waitCrownRst = false := by decide

theorem witness_RunFailuresFence :
    let s := upIn .compute
    s.boot.phase = .compute ∧ hasDefect s 1 2303 = false ∧ hasDefect s 5 0 = false ∧ boughAt s 143 = some 143
    ∧ s.pins.porst = true ∧ s.gov.tripped = false ∧ 115 * one149 ≤ f32Int 0x42E60000 ∧ ¬ 115 * one149 ≤ f32Int 0x42E5FFFF := by
  decide +kernel

def aChange (stage : Nat) : StepChange := { target := 2, old := 1, unit := 0, cause := 3, measured := 0, limit := 0, stage := stage }

theorem witness_StepChangeSequence :
    let s := upIn .compute
    let d : State := { s with gov := { s.gov with decided := some (aChange 0) }, clk := { us := 10000 } }
    let g (n : Nat) : State := { s with gov := { s.gov with step := 1, change := some (aChange n) } }
    d.gov.decided = some (aChange 0) ∧ d.gov.change = none ∧ d.boot.phase = .compute ∧ (∀ p ∈ d.leaves, p.2.run ≠ .running)
    ∧ d.gov.decidedAt + 10000 ≤ d.clk.us ∧ (g 1).gov.change = some (aChange 1) ∧ (aChange 1).stage = 1
    ∧ (aChange 1).old < (aChange 1).target ∧ (g 0).gov.change = some (aChange 0) ∧ (aChange 0).stage = 0
    ∧ (g 2).gov.change = some (aChange 2) ∧ (aChange 2).stage = 2 ∧ (g 2).gov.afterChange = false := by decide

theorem witness_GovernorOperation :
    let hot : Readings := { aRead with crown := List.replicate 144 0x42DC0000 }
    let warm : Readings := { aRead with crown := List.replicate 144 0x42C80001 }
    let s : State := upIn .compute
    let c : State := { s with gov := { s.gov with emergency := true, calmSince := some 0 }, clk := { us := 100000 } }
    let e : State := { s with gov := { s.gov with samples := [warm] }, mgmt := { s.mgmt with rt := [(0x210005, [2, 2, 2, 2, 0])] } }
    s.pins.porst = true ∧ emergencySample hot = true ∧ s.gov.emergency = false ∧ s.gov.change = none ∧ s.gov.step ≠ 3
    ∧ emergencySample warm = false ∧ c.gov.calmSince = some 0 ∧ c.gov.emergency = true ∧ c.gov.change = none
    ∧ aRead.crown.all (fun w => decide (f32Int w ≤ 100 * one149)) = true
    ∧ aRead.hw.all (fun w => decide (f32Int w ≤ 102 * one149)) = true ∧ 0 + odNat c 0x210004 * 1000 ≤ c.clk.us
    ∧ identityOk e = true ∧ 4 ≤ phaseCode e.boot.phase ∧ e.gov.samples.getLast? = some warm ∧ e.gov.decided = none
    ∧ govMode e 0 = 2 ∧ govMode e 4 = 0 ∧ e.gov.step < 3 ∧ bit (odNat e 0x210002) (e.gov.step + 1) = true
    ∧ anyAbove warm.crown 100 = true := by decide +kernel

/-! ## Links -/

def withPorts (s : State) (ps : SMap Port) : State := { s with links := { s.links with ports := ps } }

/-- The address of byte `off` of the chiplet at slot `k` of a grove that has no number. -/
def at_ (k off : Nat) : Nat := (2047 * 64 + k) * 2 ^ 47 + off

theorem witness_PortTrainingAndOpening :
    let s := upIn .compute
    let a := withPorts { s with clk := { us := 100000 } } [(3, { state := 2 })]
    let o := withPorts s [(3, { state := 4, modules := 0x80 })]
    let r : State := { s with gov := { s.gov with retraining := [(31, true)] } }
    let armed := withPorts s [(1, { state := 3, modules := 1, armed := true })]
    let unarmed := withPorts s [(1, { state := 3, modules := 1 })]
    let d := BitVec.ofNat 128 (2 ^ 120 + 3 * 2 ^ 116 + (2047 * 64 + 10) * 2 ^ 99 + 4)
    let q := mkPkt 0 0 0 0 false 0x0B 0 [d]
    let q' := mkPkt 0 0 0 0 false 0x0B 0 [0]
    (portOf s 3).state ≤ 1 ∧ s.pins.porst = true ∧ 4 ≤ phaseCode s.boot.phase ∧ (portOf s 3).armed = false
    ∧ (portOf a 3).state = 2 ∧ (portOf a 3).since + 100000 ≤ a.clk.us ∧ (portOf o 3).modules.getLsbD 7 = true
    ∧ mget false r.gov.retraining (8 * 3 + 7) = true
    ∧ pOp q = 0x0B ∧ badHeader q = false ∧ pVc q = 0 ∧ (portOf armed 1).state = 3 ∧ (portOf armed 1).lpOk = false
    ∧ (portOf armed 1).lpRx = none ∧ (portOf unarmed 1).armed = false ∧ (portOf armed 1).armed = true
    ∧ pOp q' = 0x0B ∧ badHeader q' = false ∧ pVc q' = 0 ∧ linkParamOk armed 1 (q'.data.headD 0) = false
    ∧ linkParamOk { armed with mgmt := { armed.mgmt with rt := [(0x510001, leBytes 2047 2)] } } 1 (q.data.headD 0) = true := by
  decide +kernel

theorem witness_PacketTransport :
    let s := withPorts (upIn .compute) [(1, { state := 4, modules := 1, credits := [(8, 1)] })]
    let hdr := (mkPkt (at_ 9 0x40) (2047 * 64 + 10) 5 0 false 0 4 []).hdr
    let f : Flit := { ctl := BitVec.ofNat 128 (1 + 2 ^ 14 + 2 ^ 28), slots := hdr :: List.replicate 13 0 }
    let q : SPkt := { hdr := hdr, data := [] }
    let out := mkPkt (at_ 10 0x40) (2047 * 64 + 9) 5 0 false 0 4 []
    let col := mkPkt (at_ 9 0) (2047 * 64 + 10) 5 0 false 9 3 [0]
    let rsp := mkPkt (at_ 9 0) (2047 * 64 + 10) 5 0 false 0x12 4 []
    let on (i : Nat) (w : SPkt) : State := { s with links := { s.links with router := [(i, w)] }, net := { s.net with xtags := [(5, some (0, 1))] } }
    (portOf s 1).modules.getLsbD 0 = true ∧ mget [] (portOf s 1).partials 0 = [] ∧ mget (0, 0) (portOf s 1).dropping 0 = (0, 0)
    ∧ s.pins.porst = true ∧ (portOf s 1).state = 4
    ∧ fld aFlit.ctl.toNat 0 28 = 0 ∧ fld aFlit.ctl.toNat 108 20 = 0 ∧ (∀ i, i < 14 → aFlit.slots.getD i 0 = 0)
    ∧ fld ({ aFlit with ctl := BitVec.ofNat 128 (2 ^ 127) } : Flit).ctl.toNat 108 20 ≠ 0
    ∧ fld f.ctl.toNat 0 28 = 1 + 2 ^ 14 ∧ fld f.ctl.toNat 108 20 = 0 ∧ (∀ i, i < 14 → i ≠ 0 → f.slots.getD i 0 = 0)
    ∧ f.slots.getD 0 0 = hdr ∧ pLen q = 0 ∧ pOp q ≠ 0x0B ∧ packetCode s 1 q = 0
    ∧ (let w := withPorts s [(2, { state := 4, modules := 2, outSlots := [(1, [(true, hdr)])], returned := [(8, 3)] })]
       (portOf w 2).modules.getLsbD 1 = true ∧ mget [] (portOf w 2).outSlots 1 ≠ [] ∧ lowestModule (portOf w 2) = 1
       ∧ creditDue (portOf w 2) 8 = 3 ∧ (sendFlit w 2 1).links.flits = [(2, 1, flitOf [(true, hdr)] (fun k => if k = 8 then 3 else 0))]
       ∧ sendFlit s 1 0 = s)
    ∧ (on 4 out).links.router.find? (canForward (on 4 out)) = some (4, out)
    ∧ fwdState (on 4 out) (4, out) = .goes 1 0 (leaving (on 4 out) 4 1 out)
    ∧ (on 1 q).links.router.find? (canForward (on 1 q)) = some (1, q) ∧ pDest q = chipId (on 1 q) ∧ pOp q ≤ 8
    ∧ (on 1 col).links.router.find? (canForward (on 1 col)) = some (1, col) ∧ pDest col = chipId (on 1 col) ∧ pOp col = 9
    ∧ (on 1 rsp).links.router.find? (canForward (on 1 rsp)) = some (1, rsp) ∧ pDest rsp = chipId (on 1 rsp)
    ∧ 0x10 ≤ pOp rsp ∧ pOp rsp ≤ 0x12 ∧ mget none (on 1 rsp).net.xtags (pTag rsp) = some (0, 1) := by decide +kernel

/-! ## Requests, responses and waits -/

/-- A request of this chiplet for endpoint `dst` at offset `off`. -/
def rqFor (dst off len : Nat) : Req := { aReq with vc := 0, dst := dst, addr := gaddr 0x1FFFF off, len := len }

/-- Leaf 2303 admits reads and writes of row 4095 alone. -/
def windowed : State := mwrite (upIn .compute) (spadOff 2303 0) (leBytes (2 ^ 63 + 2 ^ 60 + 2 ^ 59 + 2 ^ 16 + 4095) 8)

/-- The last 64 bytes of heartwood and of the scratchpads. -/
def lastHw : Nat := 0x4800000000 - 64
def lastSpad : Nat := 0x100024000000 - 64

theorem heartwood_sound (off n : Nat) (h : placeOf off = .heartwood 143) (k : off + n ≤ 144 * 0x80000000) :
    soundHeartwood (upIn .compute) 143 off n := ⟨h, k, fun _ _ _ => rfl⟩

/-- A leaf with no damaged word. -/
theorem spad_sound (s : State) (l off n : Nat) (h : placeOf off = .spad l) (k : off % 0x40000 + n ≤ 0x40000)
    (w : (leafOf s l).badWord = [] ∧ (leafOf s l).poisonWord = [] ∧ (leafOf s l).badRow = []) : soundSpad s l off n :=
  ⟨h, k, fun _ _ _ => by rw [w.1, w.2.1, w.2.2]; exact ⟨rfl, rfl, rfl⟩⟩

theorem witness_ReadRequestResults :
    let s := upIn .compute
    let r := rqFor (0x900 + 143) lastHw 0
    let q := rqFor 2303 (lastSpad + 60) 0
    let z : Req := { rqFor 2303 lastSpad 0 with via := some 1 }
    ReadRows ⟨.read64, 1, 64⟩ ∧ ReadRows ⟨.read4, 0, 4⟩ ∧ soundHeartwood s 143 (offOf r.addr) 64
    ∧ soundSpad (atPort windowed 0 q 4 false) 2303 (offOf q.addr) 4 ∧ soundHeartwood s 143 (offOf (rqFor 0x98F (lastHw - 192) 0).addr) 256
    ∧ served s 1 r 0 64 false false = true ∧ r.check.headD .clean = .clean ∧ placeOf (offOf r.addr) = .heartwood 143
    ∧ served s 1 { r with check := [.uncorrectable] } 0 64 false false = true
    ∧ served windowed 0 q 0 4 false false = true
    ∧ served256 s 7 { rqFor 0x98F (lastHw - 192) 0 with via := some 1 } 0 false = true
    ∧ placeOf (offOf z.addr) = .spad 2303 := by
  refine ⟨.tail _ (.head _), .head _, ?_, ?_, ?_, ?_⟩
  · exact heartwood_sound _ _ (by decide +kernel) (by decide +kernel)
  · exact spad_sound _ _ _ _ (by decide +kernel) (by decide +kernel) (by decide +kernel)
  · exact heartwood_sound _ _ (by decide +kernel) (by decide +kernel)
  · decide +kernel

/-- Leaf 2303 admits reads and writes of its last four rows. -/
def windowed4 : State := mwrite (upIn .compute) (spadOff 2303 0) (leBytes (2 ^ 63 + 2 ^ 60 + 2 ^ 59 + 4 * 2 ^ 16 + 4092) 8)

theorem witness_ReadRequestResults_256 :
    let z : Req := { rqFor 2303 (lastSpad - 192) 0 with via := some 1 }
    served256 windowed4 7 z 0 false = true ∧ z.check = []
    ∧ soundSpad (atPort windowed4 7 z 256 false) 2303 (offOf z.addr) 256 :=
  ⟨by decide +kernel, rfl, spad_sound _ _ _ _ (by decide +kernel) (by decide +kernel) (by decide +kernel)⟩

theorem witness_WriteRequestResults :
    let s := upIn .compute
    let r := rqFor (0x900 + 143) lastHw 4
    let q := rqFor 2303 (lastSpad + 60) 1
    let z : Req := { rqFor 2303 (lastSpad - 192) 16 with via := some 1 }
    WriteRows ⟨.write4, 2, 1, 4⟩ ∧ WriteRows ⟨.write64, 3, 4, 64⟩ ∧ soundHeartwood s 143 (offOf r.addr) 64
    ∧ soundSpad (atPort windowed 2 q 4 true) 2303 (offOf q.addr) 4
    ∧ soundHeartwood s 143 (offOf (rqFor 0x98F (lastHw - 192) 16).addr) 256
    ∧ soundSpad (atPort windowed4 8 z 256 true) 2303 (offOf z.addr) 256
    ∧ served s 3 r 4 64 false true = true ∧ r.check.headD .clean = .clean ∧ wbPoison r = false
    ∧ served windowed 2 q 1 4 false true = true
    ∧ served256 s 8 { rqFor 0x98F (lastHw - 192) 16 with via := some 1 } 16 true = true ∧ served256 windowed4 8 z 16 true = true := by
  refine ⟨.head _, .tail _ (.head _), ?_, ?_, ?_, ?_, ?_⟩
  · exact heartwood_sound _ _ (by decide +kernel) (by decide +kernel)
  · exact spad_sound _ _ _ _ (by decide +kernel) (by decide +kernel) (by decide +kernel)
  · exact heartwood_sound _ _ (by decide +kernel) (by decide +kernel)
  · exact spad_sound _ _ _ _ (by decide +kernel) (by decide +kernel) (by decide +kernel)
  · decide +kernel

theorem witness_CounterRequestResults :
    let s := upIn .compute
    let g (n : Nat) := rqFor 0xA00 0x200000007FF8 n
    let c (n : Nat) := rqFor 2303 0x200001047FF8 n
    served s 4 (g 0) 0 8 true false = true ∧ placeOf (offOf (g 0).addr) = .gc 4095 ∧ served s 4 (c 0) 0 8 true false = true
    ∧ placeOf (offOf (c 0).addr) = .lc 2303 15 ∧ served s 5 (g 1) 1 8 true true = true ∧ served s 5 (c 1) 1 8 true true = true := by
  decide +kernel

/-- A descriptor of one 64-byte element between scratchpad byte 0 of leaf 0 and the last line of column 143. -/
def aDma (n : Nat) : DDesc :=
  { bits := BitVec.ofNat 256 (n + 2 ^ 38 + 15 * 2 ^ 74 + (0x1FFFF * 2 ^ 47 + 0x47FFFFFFC0) * 2 ^ 192)
    poster := .leaf 0 3 0 false 0 0x00100001, far := 0x1FFFF * 2 ^ 47 + 0x47FFFFFFC0, begun := true }

theorem witness_RequestRefusals :
    let s := upIn .compute
    let e : AccessRow := ⟨.read64, 1, 0, 64, false, false⟩
    AccessRows e ∧ badPacket { rqFor 0x900 0 0 with vc := 3 } e.len = true
    ∧ badPacket (rqFor 0x990 0 0) e.len = false ∧ endpointOk s 0x990 = false ∧ endpointOk s 0x98F = true
    ∧ accessCode s 0x4800000000 64 false false = some 3 ∧ accessCode s (0x80000000 - 32) 64 false false = some 4
    ∧ accessCode s 32 64 false false = some 5 ∧ accessCode s 0x300000000000 64 false true = some 6
    ∧ accessCode (upIn .crownDown) 0 64 false false = some 1 ∧ s.boot.phase = .compute ∧ (upIn .crownDown).boot.phase ≠ .compute
    ∧ accessCode windowed (lastSpad - 64) 64 false false = none ∧ placeOf (offOf (rqFor 2303 (lastSpad - 64) 0).addr) = .spad 2303
    ∧ endpointOk windowed 2303 = true ∧ remoteHeld windowed (lastSpad - 64) 64 false = false
    ∧ windowAdmits windowed 2303 ((lastSpad - 64) % 0x40000) 64 false 0x1FFFF = false
    ∧ windowAdmits windowed 2303 (lastSpad % 0x40000) 64 false 0x1FFFF = true
    ∧ (let m : State := { s with net := { routes := 12, masks := [(0, 15)] } }
       routeCode m 0 1 = some 7 ∧ routeCode m 0 2 = some 0x0B ∧ routeCode m 0 1104 = some 0x0B ∧ routeCode m 2303 2302 = none)
    ∧ (let q := rqFor 0x900 0 0
       let w : State := { s with net := { msgs := [.req 0 { q with tag := 9 }] } }
       overtakes w 1 q = true ∧ overtakes s 1 q = false)
    ∧ (let d := rqFor 0x98F 0x4780000000 2
       let who : Poster := .net 0x1FFFF 2303
       let n := (aDma 0).bits.toNat + 15 * 2 ^ 52 + 4095 * 64 * 2 ^ 56
       let e : Req := { d with data := toWords n 8 }
       let bits : BitVec 256 := BitVec.ofNat 256 (ofWords ((List.range 8).map (fun i => e.data.getD i 0)))
       overtakes windowed 6 e = false ∧ admitCode windowed e 2 = none ∧ dpostCode windowed e = none
       ∧ nextPost windowed (colOf windowed 143) = none ∧ (colOf windowed 143).netAt ≠ windowed.clk.cclk + 1
       ∧ (colOf windowed 143).queue.length < 16 ∧ boughLeaf ((boughAt windowed 143).getD 0) (dSpLeaf bits) = 2303
       ∧ dmaRefusal windowed 143 who bits = none ∧ (dmaEntries bits (dBase who) (dOpId who 0)).length ≤ sbFree (leafOf windowed 2303)
       ∧ admitCode s { d with dst := 0x990 } 2 = some 3 ∧ admitCode s d 2 = none
       ∧ (dpostCode (upIn .crownDown) d).isSome = true) :=
  ⟨.tail _ (.head _), by decide +kernel⟩

theorem witness_HubIncrements :
    let c (n : Nat) : Comb := { node := n, gc := 5, sum := 2, acks := [(0, 1)] }
    let s : State := { upIn .compute with hub := { gcs := [(5, 0xFFFFFFFFFFFFFFFF)], comb := [c 143, c 159, c 160] }
                                          leaves := [(7, { watch := some (5, 0xFFFFFFFFFFFFFFFF) }), (8, { watch := some (6, 1) })] }
    s.boot.phase = .compute ∧ (leafOf s 7).watch = some (5, 0xFFFFFFFFFFFFFFFF) ∧ (leafOf s 8).watch = some (6, 1)
    ∧ arrivals s 160 5 ≠ [] ∧ arrivals s 159 5 ≠ [] ∧ arrivals s 143 5 ≠ [] := by decide +kernel

theorem witness_ResponsesReachRequesters :
    let o : RemOp := { tag := 1, chip := 0x1FFFF, write := true, sentAt := 0, timeout := 9 }
    let p (pair : Bool) : PendLoad := { tag := 1, pair := pair, d := 30, addr := 0, sentAt := 0, pc := 7 }
    let s (x : Leaf) : State := { upIn .compute with leaves := [(2303, { x with run := .running })], clk := { cclk := 9 }
                                                     columns := [(143, { pieces := [{ tag := 1, dseq := 0, elem := 0, spad := 0, len := 4, write := false, sentAt := 0 }] })] }
    let r : Resp := { aResp with ep := 2303 }
    let d (n : Nat) : Resp := { r with len := n, data := List.replicate (4 * n) 0 }
    arrives (s {}) 0x10 r = true ∧ respWaits { s {} with net := { resps := [(0x11, r)] } } 0x10 r = true
    ∧ badResp 0x10 { r with rsv := true } = true ∧ (s {}).net.resps = [] ∧ remOf (leafOf (s { rem := [o] }) 2303) 1 = some o ∧ remOf (leafOf (s {}) 2303) 1 = none
    ∧ arrives (s {}) 0x10 { r with ep := 0x98F } = true ∧ (pieceOf (colOf (s {}) 143) 1).isSome = true
    ∧ arrives (s {}) 0x11 (d 1) = true ∧ loadOf (leafOf (s { loads := [p true] }) 2303) 1 = some (p true)
    ∧ loadOf (leafOf (s { loads := [p false] }) 2303) 1 = some (p false) ∧ (p true).dropped = false
    ∧ arrives (s {}) 0x12 { r with code := 7 } = true ∧ o.wb = false ∧ (leafOf (s {}) 2303).run = .running
    ∧ o.timeout ≠ 0 ∧ o.sentAt + o.timeout ≤ (s {}).clk.cclk ∧ (∀ h ∈ (leafOf (s { rem := [o] }) 2303).heldSends, msgTag h.msg ≠ 1) := by
  decide +kernel

theorem witness_GlobalWaits :
    let on (x : Leaf) : State := { upIn .compute with leaves := [(0, { x with run := .running })], clk := { cclk := 10 } }
    let w : Wait := { loc := false, n := 3, expected := 1, deadline := some 10, d := 30, pd := 7 }
    let h : HeldSend := { msg := .inc { gc := 1, amount := 1, acks := [(0, 5)] }, fence := some 0x1FFFF }
    let o : RemOp := { tag := 4, chip := 0x1FFFF, write := true, sentAt := 0 }
    (leafOf (on { toHub := [.watch 3 1] }) 0).toHub = [.watch 3 1] ∧ (gcGet (on {}) 3).toNat < (1 : BitVec 64).toNat
    ∧ (0 : BitVec 64).toNat ≤ (gcGet (on {}) 3).toNat ∧ (leafOf (on { toHub := [.cancel 3] }) 0).toHub = [.cancel 3]
    ∧ (leafOf (on { wait := some w, fromHub := [.satisfy 1] }) 0).wait = some w ∧ w.pd < 8
    ∧ (∀ d, w.deadline = some d → (on {}).clk.cclk ≤ d)
    ∧ (leafOf (on { wait := some { w with cancelling := true }, fromHub := [.value 1] }) 0).fromHub = [.value 1]
    ∧ ({ w with loc := true } : Wait).deadline = some 10 ∧ 10 ≤ (on {}).clk.cclk
    ∧ ({ w with deadline := some 9 } : Wait).deadline = some 9 ∧ 9 < (on {}).clk.cclk ∧ w.loc = false ∧ w.cancelling = false
    ∧ crownRuns (on {}) = true ∧ (leafOf (on { heldSends := [h], rem := [o] }) 0).heldSends = [h] ∧ h.fence = some 0x1FFFF
    ∧ fenceHolds (leafOf (on { heldSends := [h], rem := [o] }) 0) 0x1FFFF (msgTag h.msg) = true
    ∧ fenceHolds (leafOf (on { heldSends := [h] }) 0) 0x1FFFF (msgTag h.msg) = false := by
  refine ⟨rfl, ?_, ?_, rfl, rfl, ?_, ?_, rfl, rfl, ?_⟩
  · decide
  · decide
  · decide
  · intro d h; cases h; decide
  · decide +kernel

/-- The last line of column 143, which leaf 2303 has missed. -/
def aMiss : CMiss := { line := 0x11FFFFFFF, w := 15, store := none, d := 31, tag := 0, pc := 0 }

theorem witness_ScratchpadEvents :
    let on (x : Leaf) : State := { upIn .compute with leaves := [(2303, x)], clk := { cclk := 100 } }
    let g (row : Nat) : Gather := { row := row, valid := 0x8001, data := zeroLanes, want := some 100 }
    let x : Leaf := { gather := [g 1, g 4095], deposits := [{ at_ := 98, word := 65520, vals := zeroLanes }] }
    let e (row : Nat) : Landing := { row := row, data := zeroLanes, cnt := some 15 }
    let y : Leaf := { landing := [e 3071], cache := { size := 1 } }
    let m := aMiss
    crownRuns (on x) = true ∧ gatherOf (leafOf (on x) 2303) 4095 = some (g 4095)
    ∧ bankWins (leafOf (on x) 2303) 100 15 1 true 100 = true
    ∧ (leafOf (on x) 2303).deposits.find? (depositNow (on x).clk.cclk) = some { at_ := 98, word := 65520, vals := zeroLanes }
    ∧ 65520 % 16 + zeroLanes.length ≤ 16
    ∧ (leafOf (on y) 2303).landing = [e 3071] ∧ (e 3071).data.length = 16
    ∧ (leafOf (on y) 2303).landAt ≠ (on y).clk.cclk + 1 ∧ (leafOf (on y) 2303).deposits = [] ∧ leafFenced (on y) 2303 = false
    ∧ leafFenced { on y with boot := { (on y).boot with fencedLeaves := [(2303, true)] } } 2303 = true
    ∧ usableRows (leafOf (on {}) 2303) = 4096 ∧ usableRows (leafOf (on y) 2303) ≤ 4095
    ∧ (leafOf (on { cache := { size := 1, misses := [m] } }) 2303).cache.misses = [m] ∧ m.store = none ∧ m.w < 16
    ∧ placeOf (64 * m.line) = .heartwood 143 ∧ 64 * m.line + 64 ≤ (143 + 1) * 0x80000000
    ∧ (∀ k : Nat, mget false (on {}).hwPoison k = false)
    ∧ accessCode (on {}) (64 * m.line) 64 false false = none ∧ lineAhead (on {}) 143 (64 * m.line % 0x80000000 / 64) 64 = false
    ∧ (askSlot (on { cache := { size := 1, misses := [m] } }) 143 (0x1000 + 2303) 0 [64 * m.line % 0x80000000 / 64] false).1 = true
    ∧ findLine (leafOf (on { cache := { size := 1, misses := [m] } }) 2303) m.line = none := by
  refine ⟨?_, ?_, ?_, ?_, ?_, ?_, ?_, ?_, ?_, ?_, ?_, ?_, ?_, ?_, ?_, ?_, ?_, ?_, fun _ => rfl, ?_⟩ <;> decide +kernel


/-! ## Scratchpad starts and re-runs, engines, columns -/

theorem witness_LeafStartsAndReRuns :
    let on (x : Leaf) : State := { upIn .compute with leaves := [(2303, x)], clk := { cclk := 30 } }
    let im (start : Nat) : Image := { record := some (BitVec.ofNat 1024 (start * 2 ^ 516)), complete := true, start := some (4095, 0) }
    let e : ErrRec := { poison := false, pc := 5, at_ := 3 }
    let f : ErrRec := { e with poison := true, post := some 9 }
    let y (n : Nat) : Leaf := { run := .running, errs := [e], reruns := n, step := { shadow := some (shadowOf {}) } }
    let z : Leaf := { run := .running, sw := { held := true }, step := { recorded := some (7, 20), insns := 7 } }
    crownRuns (on {}) = true ∧ leafOk (on {}) 2303 = true ∧ leafFenced (on {}) 2303 = false
    ∧ startHolds (on { image := im 0 }) { image := im 0 } = true ∧ recStart ((im 0).record.getD 0) = 0
    ∧ (im 0).load ≤ (on {}).graft.started ∧ (on {}).graft.started < ({ im 0 with load := 1 } : Image).load
    ∧ startHolds (on { image := im 1 }) { image := im 1 } = true ∧ recStart ((im 1).record.getD 0) = 1
    ∧ (y 2).errs = [e] ∧ e.at_ ≤ (on {}).clk.cclk ∧ (y 2).step.shadow = some (shadowOf {}) ∧ (y 2).reruns < 3 ∧ 3 ≤ (y 3).reruns
    ∧ stepOwns (y 2) e = true ∧ stepOwns (y 2) f = false ∧ (y 3).step.parity = false
    ∧ stepOwns ({ y 3 with step := { (y 3).step with posts := [9] } } : Leaf) f = true ∧ f.poison = true
    ∧ (y 3).step.shadow.isSome = true ∧ ({ y 0 with step := {} } : Leaf).errs = [e] ∧ ({ y 0 with step := {} } : Leaf).step.shadow = none
    ∧ (leafOf (on z) 2303).run = .running ∧ (leafOf (on z) 2303).sw.held = true
    ∧ (leafOf (on z) 2303).step.recorded = some (7, 20) ∧ 7 ≤ (leafOf (on z) 2303).step.insns
    ∧ max (z.step.cycles + 20) z.nextIssue ≤ leafNow (on z) z := by decide +kernel

def eDesc (bits : Nat) : EDesc :=
  { bits := BitVec.ofNat 512 bits, leaf := 0, post := 0, opseq := 17, replay := false, inStep := false, pc := 0, refused := none }

/-- A product of two INT8 tiles in sub-array 0. -/
def aSplit : EDesc := eDesc (1 + 0x09999 * 2 ^ 4 + 11 * 2 ^ 20 + 2 ^ 24 + 2 ^ 80 + 2 ^ 128 + 20 * 2 ^ 160 + 40 * 2 ^ 192)

/-- TADD of INT32 tiles over sixteen leaves, the result in rows 4080 to 4095. -/
def aTadd : EDesc := eDesc (2 + 0x0BBBBB * 2 ^ 4 + 2 ^ 24 + 4 * 2 ^ 144 + 4 * 2 ^ 176 + 4 * 2 ^ 208 + 2 ^ 128 + 20 * 2 ^ 160 + 4080 * 2 ^ 192)

theorem witness_EngineOperation :
    let on (q : EDesc) (run : Option ERun) (x : Leaf) : State :=
      { upIn .compute with leaves := [(boughLeaf 143 0, x)], engines := [(143, { queue := [q], run := run })], clk := { cclk := 1 } }
    let bad : EDesc := { aSplit with refused := some 8 }
    let rec_ : EDesc := { eDesc (2 ^ 48 + 15 * 2 ^ 49 + 2 ^ 53 + 4095 * 2 ^ 224) with refused := some 8 }
    engineRuns (on aSplit none {}) 143 = true ∧ (engOf (on aSplit none {}) 143).queue = [aSplit] ∧ aSplit.refused = none
    ∧ (engOf (on aSplit none {}) 143).run = none ∧ aSplit.at_ < (on aSplit none {}).clk.cclk
    ∧ engineHeld (on aSplit none {}) 143 aSplit = false
    ∧ (engineAsk (on aSplit none {}) 143 false (readRows aSplit.bits)).1 = true
    ∧ (runEngine (on aSplit none {}) 143 aSplit.bits).r.par = false ∧ (runEngine (on aSplit none {}) 143 aSplit.bits).r.poi = false
    ∧ (runEngine (on aSplit none { badRow := [(1, true)] }) 143 aSplit.bits).r.par = true
    ∧ (engineAsk (on aSplit (some {}) {}) 143 true (writeRows (on aSplit (some {}) {}) 143 aSplit)).1 = true
    ∧ ({} : ERun).readBy ≤ 1 ∧ ({} : ERun).par = false ∧ ({} : ERun).poi = false ∧ ({ par := true } : ERun).par = true
    ∧ eStatEn aSplit.bits = false
    ∧ (engOf (on bad none {}) 143).queue = [bad] ∧ bad.refused = some 8 ∧ postCounted (engOf (on bad none {}) 143) bad = false
    ∧ (engineAsk (on bad none {}) 143 true (writeRows (on bad none {}) 143 bad)).1 = true
    ∧ engineRefusal (upIn .compute) 143 aSplit.bits = none
    ∧ eStatEn bad.bits = false ∧ (engOf (on rec_ none {}) 143).queue = [rec_] ∧ rec_.refused = some 8
    ∧ engineRefusal (upIn .compute) 143 rec_.bits = some 8 ∧ eStatEn rec_.bits = true
    ∧ recordPlace (on rec_ none {}) 143 rec_.bits = true
    ∧ (engineAsk (on rec_ none {}) 143 true (writeRows (on rec_ none {}) 143 rec_)).1 = true := by
  decide +kernel

theorem witness_TileAddition :
    let s (run : Option ERun) : State := { upIn .compute with engines := [(0, { queue := [aTadd], run := run })], clk := { cclk := 1 } }
    let x : ERun := { tiles := [(0, List.replicate 64 (List.replicate 64 1))] }
    engineRuns (s none) 0 = true ∧ (engOf (s none) 0).run = none ∧ (engOf (s none) 0).queue = [aTadd] ∧ aTadd.refused = none
    ∧ aTadd.at_ < 1 ∧ engineHeld (s none) 0 aTadd = false ∧ (engineAsk (s none) 0 false (readRows aTadd.bits)).1 = true
    ∧ (engOf (s (some x)) 0).run = some x ∧ (engineAsk (s (some x)) 0 true (writeRows (s (some x)) 0 aTadd)).1 = true
    ∧ x.readBy ≤ 1 ∧ (List.replicate 64 (List.replicate 64 (1 : Word))).length = 64
    ∧ eStatEn aTadd.bits = false ∧ engineBadField aTadd.bits = false ∧ eOp aTadd.bits = 2 ∧ eASt aTadd.bits = 11
    ∧ eAOp aTadd.bits = 11 ∧ eBSt aTadd.bits = 11 ∧ eBOp aTadd.bits = 11 ∧ eCFmt aTadd.bits = 11
    ∧ (∀ w ∈ engineRows aTadd.bits, w.2.2 < 4096)
    ∧ engineRefusal (s none) 0 aTadd.bits = none := by decide +kernel

theorem witness_DmaOperation :
    let on (x : Column) : State := { upIn .compute with columns := [(143, x)], clk := { cclk := 120 } }
    let d := aDma 0
    let e : DDesc := { d with allSent := true, lastAt := some 0 }
    let k (w : Bool) : LineOp := { dseq := 0, elem := 0, off := 0x7FFFFFC0, len := 64, spad := 64, write := w, src := if w then List.replicate 64 1 else [] }
    let x : Column := { queue := [d] }
    let key := bankKey (0x7FFFFFC0 / 64)
    let n := openSlot (on x)
    let b := elemSpad d.poster (aDma (2 ^ 5)).bits 0 0
    colThere (on x) 143 = true ∧ nextPost (on {}) { posts := [d] } = some d ∧ ({ posts := [d] } : Column).queue.length < 16
    ∧ colFenced (on x) 143 = false ∧ x.queue = [d] ∧ d.refused = none ∧ d.begun = true ∧ d.off < dElem d.bits ∧ dDir d.bits = false
    ∧ ownOffset (on x) 143 (d.far + d.off) = some 0x7FFFFFC0 ∧ slotFree (on x) x = true ∧ floorClaim (on x) 143 = false
    ∧ slotFree (on x) { x with slot := n } = false
    ∧ bankBusy x n key = false ∧ bankBusy { x with banks := [(n - 7, key)] } n key = true
    ∧ slotFree (on x) { x with banks := [(n - 7, key)] } = true
    ∧ (slotAAsk (on x) 0 3 (rowsOf b 64) false).1 = true
    ∧ findDesc { x with lines := [k true] } (k true).dseq = some d ∧ (k true).off % 64 + (k true).len ≤ 64
    ∧ mget false (on x).hwPoison (lineNo 143 ((k true).off / 64)) = false
    ∧ (k false).at_ + 112 ≤ (on x).clk.cclk ∧ (on x).clk.cclk < ({ k false with at_ := 120 } : LineOp).at_ + 112
    ∧ (slotAAsk (on x) 0 3 (rowsOf 64 64) true).1 = true
    ∧ (k true).srcBad = false ∧ (k true).src.length = (k true).len ∧ dAcctEn d.bits = false ∧ (k false).write = false
    ∧ ({ active := [e] } : Column).active.find? (dmaDone (on {})) = some e ∧ e.srcErr = false ∧ e.held = []
    ∧ (0, 3) ∉ ({ active := [e] } : Column).counted ∧ dCntEn e.bits = true
    ∧ ({ d with refused := some 8 } : DDesc).refused = some 8 := by decide +kernel

theorem witness_DmaOperation_write :
    let d : DDesc := aDma (2 ^ 2)
    dDir d.bits = true ∧ ∀ b, b = elemSpad d.poster d.bits d.elem d.off →
      soundSpad (settle (slotAAsk (upIn .compute) 0 3 (rowsOf b 64) false).2 0 (rowsOf b 64)) 0 (spadOff 0 b) 64 := by
  refine ⟨by decide +kernel, ?_⟩
  rintro b rfl
  exact spad_sound _ _ _ _ (by decide +kernel) (by decide +kernel) (by decide +kernel)

theorem witness_ColumnMaintenance :
    let on (x : Column) : State := { upIn .memoryInit with columns := [(143, x)], clk := { us := 1 } }
    let r (n : Nat) : Retire := { tier := 15, bank := 7, row := 8191, spare := 0, copied := n, errors := 4 }
    let full : Column := { refSlot := 7, banks := (List.range 8).map (fun b => (0, 15 + 16 * b)) }
    heartLive (on full) 143 = true ∧ full.refSlot + 7 ≤ committedTo (on full) full
    ∧ (List.range 8).all (fun b => full.banks.any (fun a => a.1 ≤ full.refSlot + 7 && full.refSlot ≤ a.1 + 7 && a.2 = 15 + 16 * b)) = true
    ∧ (List.range 8).all (fun b => full.banks.any (fun a => a.1 ≤ full.refSlot + 7 && full.refSlot ≤ a.1 + 7 && a.2 = 14 + 16 * b)) = false
    ∧ mget false full.forced 15 = false ∧ mget false ({ forced := [(15, true)] } : Column).forced 15 = true
    ∧ (maintSlotFor (on {}) {} 0).isSome = true ∧ patrolDue (on {}) {} = true ∧ mget false (on {}).hwPoison (lineNo 143 0) = false
    ∧ (maintSlotFor (on {}) {} (copyLine (r 30))).isSome = true ∧ (maintSlotFor (on {}) {} (2 ^ 25 - 1)).isSome = true
    ∧ maintSlotFor (on {}) { maintSlot := 10000 } 0 = none
    ∧ (r 30).got = none ∧ (r 30).copied + 1 ≠ 32 ∧ (r 31).copied + 1 = 32 ∧ (on {}).mram.defects.length < 8192 := by decide +kernel

/-! ## Timed groups, the canopy and the flow fabric -/

/-- Leaf 5 as given, and a chiplet around it. -/
def withLeaf (x : Leaf) : State := { upIn .compute with leaves := [(5, x)] }

/-- A checked slot of timed group 15 with period 1 and `n` periods, whose entry 0 takes port vp0 to vq0. -/
def tSlot (n : Nat) : Slot := { hdr := BitVec.ofNat 64 (1 + 15 * 2 ^ 16 + n * 2 ^ 32), ents := [(0, BitVec.ofNat 64 (5 * 2 ^ 12))] }

theorem witness_TimedGroupOperation :
    let run (n v : Nat) (nxt : Slot) : Leaf := { sw := { running := true, cur := tSlot n, nxt := nxt, v := v }, ports := [(0, [tok 1])] }
    let chain : Slot := { tSlot 1 with hdr := (tSlot 1).hdr ||| 8 }
    let idle : Leaf := { run := .halted, sw := { nxt := tSlot 0, readySent := false } }
    let g (m : Nat) : GroupE := { arm := true, members := m, ready := m }
    let s (m : Nat) : State := { withLeaf idle with hub := { groups := [(15, g m)] } }
    let go : State := { withLeaf idle with hub := { groups := [(15, { goAt := some 0 })] }, clk := { cclk := 32 } }
    canAdvance (withLeaf (run 0 0 {})) 5 = true ∧ (run 0 0 {}).sw.held = false ∧ planeTimed (run 0 0 {}) 0 = true
    ∧ sourceTok (withLeaf (run 0 0 {})) 5 0 (entrySel (curEntry (run 0 0 {})) 0 (4 + 0)) 0 = some (tok 1)
    ∧ (queueOf (run 0 0 {}) 0).toks.length < qcap 0
    ∧ sourceTok (withLeaf (run 0 0 {})) 5 1 (entrySel (curEntry (run 0 0 {})) 1 (4 + 3)) 0 = none
    ∧ slotDone (run 1 1 {}) = true ∧ (slotChain (tSlot 1) && slotValid ({} : Slot)) = false
    ∧ slotDone ({ run 1 1 (tSlot 0) with sw := { (run 1 1 (tSlot 0)).sw with cur := chain } } : Leaf) = true
    ∧ (slotChain chain && slotValid (tSlot 0) && slotGroup (tSlot 0) = slotGroup chain) = true
    ∧ idle.sw.running = false ∧ slotTimed idle.sw.nxt = true ∧ idle.sw.readySent = false ∧ idle.run ≠ .notStarted
    ∧ leafOk (s 1) 5 = true ∧ leafFenced (s 1) 5 = false ∧ (groupOf (s 1) 15).members < (groupOf (s 1) 15).ready + 1
    ∧ (groupOf (withLeaf idle) 15).ready + 1 ≤ (groupOf { withLeaf idle with hub := { groups := [(15, { members := 1 })] } } 15).members
    ∧ crownRuns (s 1) = true ∧ (groupOf (s 1) 15).arm = true ∧ (groupOf (s 1) 15).ready = (groupOf (s 1) 15).members
    ∧ (groupOf (s 1) 15).goVal.toNat ≤ (gcGet (s 1) (groupOf (s 1) 15).goGc).toNat
    ∧ crownRuns go = true ∧ (groupOf go 15).goAt = some 0 ∧ 0 + 32 ≤ go.clk.cclk := by decide +kernel

/-- A packet of image 9 for every leaf with this payload. -/
def pkt (offset : Nat) (payload : List (BitVec 256)) : Canopy :=
  let p : Canopy := { aCanopy with image := 9, offset := BitVec.ofNat 16 offset, cntEn := true, cnt := 15, payload := payload
                                   lenM1 := BitVec.ofNat 3 (payload.length - 1) }
  { p with crc := crc32c (payloadBytes p) }

/-- A leaf record whose digest covers the record alone. -/
def aRec : BitVec 1024 := BitVec.ofNat 1024 (ofLe (sha384 (List.replicate 80 0)) * 2 ^ 640)

def aLoad (round miss : Nat) : GraftLoad :=
  { off := 0, packets := 1, image := 9, doneGc := 0, startValue := 0, targets := List.range 100, digest := [], round := round
    mismatch := List.range miss }

theorem witness_CanopyPackets :
    let s : State := withLeaf {}
    let e : Leaf := { image := { id := some 9, recId := 9, record := some aRec, got := [(0, true)] } }
    let g (round miss : Nat) : State := { s with graft := { s.graft with load := some (aLoad round miss) }, clk := { us := 200 } }
    freshFor s (pkt 0 [0, 0, 0, 0]) 5 = true ∧ crownRuns s = true ∧ freshFor s (pkt 4095 [0, 1]) 5 = true ∧ 4095 + (pkt 4095 [0, 1]).payload.length / 2 ≤ 4096
    ∧ (pkt 4095 [0, 1]).payload.length % 2 = 0 ∧ (leafOf s 5).landing.length < 8
    ∧ freshFor s (pkt 4088 [7]) 5 = true ∧ (pkt 4088 [7]).offset.toNat + 8 * (pkt 4088 [7]).payload.length ≤ 4096
    ∧ (leafOf s 5).run ≠ .running ∧ freshFor s (pkt 515 [1]) 5 = true
    ∧ (pkt 515 [1]).offset.toNat * 8 + 32 * (pkt 515 [1]).payload.length ≤ 0x1038 ∧ (leafOf s 5).sw.nxt.frozen = false
    ∧ recBad (recOf (pkt 0 [0, 0, 0, 0])) = false
    ∧ hasArrived s 1 (pkt 4088 [7]) = true ∧ hasArrived { s with graft := { s.graft with bus := onBus 0 [{ leaf := none, kind := 2, p := pkt 515 [1] }] },
                                                                 clk := { cclk := 40 } } 2 (pkt 515 [1]) = true
    ∧ 8 < List.length (List.replicate 7 ({ row := 0, data := [], cnt := none } : Landing)) + (pkt 4094 [0, 1, 2, 3]).payload.length / 2
    ∧ crcOk { pkt 0 [0] with crc := 1 } = false ∧ ({ pkt 0 [0] with hurt := [5] } : Canopy).hurt.contains 5 = true
    ∧ crcOk (pkt 0 [16 + 2304 * 2 ^ 36]) = true ∧ (pkt 0 [0]).hurt.contains 0xA00 = false
    ∧ groupBad (pkt 0 [16 + 2305 * 2 ^ 36]) (16 + 2305 * 2 ^ 36) = true ∧ groupBad (pkt 0 [0]) 0 = false ∧ bit 0 4 = false
    ∧ groupBad (pkt 0 [16 + 2304 * 2 ^ 36]) (16 + 2304 * 2 ^ 36) = false ∧ bit (16 + 2304 * 2 ^ 36) 4 = true
    ∧ (groupOf s 0).ready ≤ 2304 ∧ (1 : Nat) < (groupOf { s with hub := { groups := [(0, { ready := 2 })] } } 0).ready
    ∧ crcOk (pkt 0 [0]) = true ∧ inTarget (pkt 0 [0]) 5 = true ∧ (leafOf (withLeaf e) 5).image.id = some (pkt 0 [0]).image
    ∧ freshFor s { ({ pkt 0 [0, 0] with rsv := true } : Canopy) with rsv := false } 5 = true ∧ endBad (pkt 0 [0]) = false
    ∧ (leafOf (withLeaf e) 5).image.record = some aRec ∧ (leafOf (withLeaf e) 5).image.complete = false
    ∧ (∀ i, i ≤ fld (0 : BitVec 256).toNat 0 32 → mget false (leafOf (withLeaf e) 5).image.got i = true)
    ∧ imageDigest (withLeaf e) 5 aRec = leBytes (aRec.toNat / 2 ^ 640) 48
    ∧ (g 2 1).graft.load = some (aLoad 2 1) ∧ allComplete (g 2 1) (aLoad 2 1) = false ∧ (aLoad 2 1).failed = false
    ∧ (aLoad 2 1).endAt + 200 ≤ (g 2 1).clk.us ∧ (g 2 1).graft.bus = [] ∧ crownRuns (g 2 1) = true ∧ 100 * (aLoad 2 1).mismatch.length ≤ (aLoad 2 1).targets.length
    ∧ 3 ≤ (aLoad 3 0).round ∧ (aLoad 0 2).targets.length < 100 * (aLoad 0 2).mismatch.length := by
  have h : crcOk (pkt 0 [0, 0, 0, 0]) = true := by simp [crcOk, pkt, payloadBytes]
  refine ⟨?_, ?_⟩
  · simp only [freshFor, h]
    decide +kernel
  · decide +kernel

/-- A running flow slot on the vector plane that takes port vp0 to sink `i`. -/
def fSlot (i : Nat) : Slot := { hdr := 3, vroute := BitVec.ofNat 64 (5 * 2 ^ (3 * i)), spill := BitVec.ofNat 64 (100 + 2 ^ 12 + 2 ^ 20) }

theorem witness_FlowFabricOperation :
    let on (i : Nat) (t : Tok) : State := withLeaf { sw := { cur := fSlot i }, ports := [(0, [t])] }
    let mk : Tok := { data := [], marker := true }
    let x (q : Nat) : Leaf := { sw := { cur := fSlot 7, spilling := [(q, true)], spillWr := [(q, 1)], returning := [(7, [0])] } }
    let m : Leaf := { sw := { cur := fSlot 7, nxt := fSlot 7, markerDue := true } }
    let f : Leaf := { sw := { cur := fSlot 7, nxt := fSlot 7, ringPoint := true, flips := [(7, true)] } }
    fabricRuns (on 4 (tok 1)) 5 = true ∧ slotFlow (leafOf (on 4 (tok 1)) 5).sw.cur = true
    ∧ (leafOf (on 4 (tok 1)) 5).sw.xferAt ≠ (on 4 (tok 1)).clk.cclk + 1 ∧ canAdvance (on 4 (tok 1)) 5 = false
    ∧ flowMoves (on 7 (tok 1)) 5 = [⟨0, 5, tok 1, 0, .sink 7 false⟩] ∧ inSpill (leafOf (on 7 (tok 1)) 5) (sinkQueue 0 7) = false
    ∧ flowMoves (on 3 (tok 1)) 5 = [⟨0, 5, tok 1, 0, .sink 3 false⟩] ∧ neighbour (on 3 (tok 1)) 5 3 = some 4
    ∧ slotValid (leafOf (on 3 (tok 1)) 4).sw.cur = false ∧ flowMoves (on 4 mk) 5 = [⟨0, 5, mk, 0, .sink 4 false⟩]
    ∧ flowMoves (on 4 { tok 1 with ring := 3 }) 5 = [⟨0, 5, { tok 1 with ring := 3 }, 0, .stale⟩]
    ∧ mget [] (x 0).sw.returning 7 = [0] ∧ m.sw.markerDue = true ∧ m.sw.ringAt < 1 ∧ m.sw.flipAt < 1 ∧ f.sw.ringPoint = true ∧ f.sw.markerDue = false
    ∧ allFlipped f = true ∧ refillDue (x 3) 3 = true ∧ spillHeadWritten 0 (x 3) 3 = true ∧ refillDue (x 7) 7 = true
    ∧ spillHeadWritten 0 (x 7) 7 = true ∧ fabricRuns (withLeaf (x 7)) 5 = true := by decide +kernel

theorem witness_FlowRegionOperation :
    let on (x : Leaf) (r : Region) : State := { withLeaf x with hub := { regions := [(0, r)] }, clk := { cclk := 4096 } }
    let j : Leaf := { run := .running, sw := { cur := fSlot 4, joinDue := true } }
    let q : Leaf := { sw := { joined := some 0, quietFor := 64 } }
    let h (b : Bool) : Leaf := { sw := { joined := some 0, flags := [(b, 3)] } }
    let r (n : Nat) : Region := { active := [5], awaiting := true, asked := [5], answers := [(5, n)] }
    crownRuns (on j {}) = true ∧ (leafOf (on j {}) 5).sw.joinDue = true ∧ (leafOf (on j {}) 5).sw.leaveDue = none
    ∧ regionNow (leafOf (on j {}) 5) = some 0 ∧ (leafOf (on { sw := { leaveDue := some 0 } } {}) 5).sw.leaveDue = some 0
    ∧ fabricRuns (on q {}) 5 = true ∧ (leafOf (on q {}) 5).sw.joined ≠ none ∧ 64 ≤ (leafOf (on q {}) 5).sw.quietFor
    ∧ (leafOf (on q {}) 5).sw.quietSent = false ∧ (leafOf (on (h true) { active := [5] }) 5).sw.flags = (true, 3) :: []
    ∧ (∀ m ∈ (regionOf (on (h true) { active := [5] }) 0).active, m = 5 ∨ m ∈ (regionOf (on (h true) { active := [5] }) 0).quiet)
    ∧ (∃ m ∈ (regionOf (on (h true) { active := [5, 6] }) 0).active, m ≠ 5 ∧ m ∉ (regionOf (on (h true) { active := [5, 6] }) 0).quiet)
    ∧ (leafOf (on (h false) {}) 5).sw.flags = (false, 3) :: [] ∧ (leafOf (on (h false) {}) 5).sw.joined = some 0
    ∧ (regionOf (on {} { window := some 0 }) 0).window = some 0 ∧ 0 + 4096 ≤ (on {} {}).clk.cclk
    ∧ (leafOf (on { sw := { joined := some 0, spillDue := true } } {}) 5).sw.spillDue = true
    ∧ (regionOf (on {} (r 0)) 0).awaiting = true
    ∧ (∀ l ∈ (regionOf (on {} (r 0)) 0).asked, ∃ a ∈ (regionOf (on {} (r 0)) 0).answers, a.1 = l)
    ∧ (∃ a ∈ (r 0).answers, a.2 = 0) ∧ (∀ a ∈ (r 1).answers, a.2 ≠ 0) ∧ (∃ a ∈ (r 1).answers, a.2 = 1)
    ∧ (∀ a ∈ (r 2).answers, a.2 ≠ 0 ∧ a.2 ≠ 1)
    ∧ (leafOf (on { run := .running, sw := { abortDue := true } } {}) 5).sw.abortDue = true := by decide +kernel

/-! ## The collective unit -/

theorem sound_of (s : State) (c off n : Nat) (hp : s.hwPoison = []) (h : placeOf off = .heartwood c)
    (k : off + n ≤ (c + 1) * 0x80000000) : soundHeartwood s c off n := ⟨h, k, fun _ _ _ => by rw [hp]; rfl⟩

/-- A group of three members, this chiplet at rank `r`, with `x` in slot 15. -/
def inColl (r : Nat) (x : Option CSlot) : State :=
  { upIn .compute with
    clk := { us := 100000 }
    coll := { slots := (x.map (fun y => (15, some y))).toList
              groups := [(0, { members := [100, 101, 102], rank := r, nextSeq := 5 })] } }

/-- Operation `op` of `b` bytes in root `root`: DST, RECV and SRC at column 0. -/
def cDesc (op root b : Nat) : BitVec 512 :=
  BitVec.ofNat 512 (op + root * 2 ^ 20 + b * 2 ^ 32 + 0x1000 * 2 ^ 64 + 0x2000 * 2 ^ 128 + 0x4000 * 2 ^ 192)

def cs (op b state : Nat) (small : Bool) : CSlot :=
  { desc := cDesc op 0 b, group := 0, seq := 4, post := 0, state := state, small := small }

/-- A message from rank `rk` with these bytes. -/
def cm (rk landing piece : Nat) (data : List Byte) : CollMsg :=
  { aColl with src := BitVec.ofNat 17 (100 + rk), seq := 4, rank := BitVec.ofNat 12 rk, landing := BitVec.ofNat 47 landing
               piece := BitVec.ofNat 24 piece, bytes := BitVec.ofNat 8 data.length, data := data
               crc := if data = [] then 0 else crc32c data }

def sixty4 : List Byte := List.replicate 64 7

theorem lands_of (s : State) (off : Nat) (hp : s.hwPoison = []) (h : placeOf off = .heartwood 0)
    (k : off + 64 ≤ 0x80000000) (a : off % 64 = 0) (c : accessCode s off 64 false true = none) :
    pieceLands s off sixty4 := ⟨rfl, a, ⟨0, sound_of s 0 off 64 hp h (by omega)⟩, c⟩

theorem slot_of (r : Nat) (x : CSlot) (m : CollMsg) (h : slotWith (inColl r (some x)) m.group.toNat m.seq.toNat = some 15) :
    InSlot (inColl r (some x)) m 15 x := ⟨rfl, h, rfl⟩

/-- Posts: an empty group, an empty descriptor, a broadcast that this member receives; the ring is the last sixteen rows of the
last scratchpad. -/
theorem witness_CollectiveUnitOperation_posts :
    let at_ := lastSpad - 960
    let o (s : State) : State := mwrite { s with
      mgmt := { s.mgmt with rt := [(0x600001, leBytes at_ 8), (0x600002, leBytes 4095 2)] }
      hub := { s.hub with gcs := [(4095, 1)] } } (spadOff 2303 0) (leBytes (2 ^ 63 + 2 ^ 60 + 2 ^ 59 + 16 * 2 ^ 16 + 4080) 8)
    let e := o (upIn .compute)
    let z := o (inColl 2 none)
    let h (y : Leaf) : State := { e with leaves := [(2303, y)] }
    let d := cDesc 5 0 128
    (readsLine e 2303 at_ ∧ readsLine z 2303 at_ ∧ readsLine (h { gather := [{ row := 4080, valid := 0, data := [] }] }) 2303 at_) ∧ NothingHeld e ∧ NothingHeld z
    ∧ (List.range 16).find? (fun k => cslot e k = none) = some 0
    ∧ buffered (leafOf (h { gather := [{ row := 4080, valid := 0, data := [] }] }) 2303) (rowsOf (at_ % 0x40000) 64) = true
    ∧ e.boot.phase = .compute ∧ odNat e 0x600001 = at_ ∧ odNat e 0x600002 = 4095 ∧ e.coll.posts < (gcGet e 4095).toNat
    ∧ (cgroup e 0).members.length = 0
    ∧ (cgroup z 0).members.length = 3 ∧ collBad 0 3 2 = true ∧ z.coll.early = [] ∧ collBad d 3 2 = false
    ∧ hasDefect z 10 1 = false ∧ cOp d = 5 ∧ cRoot d ≠ 2 ∧ 64 < cBytes d
    ∧ BitVec.ofNat 512 (ofLe (readBytes (mwrite z at_ (leBytes d.toNat 64)).mem at_ 64)) = d := by
  have k : ∀ s : State, s.leaves = [] → s.columns = [] → NothingHeld s := fun s p q =>
    ⟨fun _ => by simp only [leafOf, p]; exact ⟨rfl, rfl⟩, fun _ => by simp only [colOf, q]; rfl⟩
  refine ⟨⟨⟨?_, spad_sound _ _ _ _ ?_ ?_ ?_, ?_, ?_, ?_⟩, ⟨?_, spad_sound _ _ _ _ ?_ ?_ ?_, ?_, ?_, ?_⟩,
    ⟨?_, spad_sound _ _ _ _ ?_ ?_ ?_, ?_, ?_, ?_⟩⟩, k _ rfl rfl, k _ rfl rfl, ?_⟩
  all_goals decide +kernel

/-- Pieces, SMALLs and a GRANT that do not complete anything, and the SMALL that ends a broadcast. -/
theorem witness_CollectiveUnitOperation_data :
    let a : CSlot := { cs 0 1024 1 false with sent := 2 }
    let m := cm 0 (0x4000 + 192) 1 sixty4
    let g : CSlot := { cs 2 256 1 false with sent := 2 }
    let n := cm 0 (0x2000 + 192) 1 sixty4
    let b := cs 0 64 1 true
    let c := cs 5 64 1 true
    let q := cm 0 0 0 sixty4
    let v := cs 3 192 1 false
    (InSlot (inColl 2 (some a)) m 15 a ∧ pieceLands (inColl 2 (some a)) m.landing.toNat m.data
      ∧ ∀ p, a.reduced.contains p = false → pieceReady (inColl 2 (some a)) a p = false)
    ∧ (InSlot (inColl 2 (some g)) n 15 g ∧ pieceLands (inColl 2 (some g)) n.landing.toNat n.data)
    ∧ (InSlot (inColl 2 (some b)) q 15 b ∧ InSlot (inColl 2 (some c)) q 15 c ∧ InSlot (inColl 2 (some v)) (cm 1 0 0 []) 15 v
      ∧ pieceLands (inColl 2 (some c)) (cDst c.desc) q.data)
    ∧ crcFits m = true ∧ msgOk (inColl 2 (some a)) a 0 m = true ∧ dstComplete (inColl 2 (some a)) a = false
    ∧ a.gotC.contains (1, 1) = false ∧ slotN (inColl 2 (some a)) a = 3 ∧ slotRank (inColl 2 (some a)) a = 2
    ∧ crcFits n = true ∧ msgOk (inColl 2 (some g)) g 1 n = true ∧ cOp g.desc = 2 ∧ 0 < resultLen g.desc 3 1 2
    ∧ crcFits q = true ∧ msgOk (inColl 2 (some b)) b 2 q = true ∧ 1 ∈ smallNeeds b.desc 3 ∧ mget none b.smalls 1 = none
    ∧ msgOk (inColl 2 (some c)) c 2 q = true ∧ cOp c.desc = 5 ∧ c.copied = false ∧ (inColl 2 (some c)).boot.phase = .compute
    ∧ crcFits (cm 1 0 0 []) = true ∧ msgOk (inColl 2 (some v)) v 3 (cm 1 0 0 []) = true ∧ 2 ≤ cOp v.desc
    ∧ dstComplete (inColl 2 (some v)) v = false ∧ (destOrder 3 2)[v.sent]? = some 0 ∧ sendsFirst v 3 2 0 = true
    ∧ mget none v.grants 0 = none := by
  refine ⟨⟨slot_of _ _ _ (by decide +kernel), lands_of _ _ rfl (by decide +kernel) (by decide +kernel) (by decide +kernel) (by decide +kernel),
      fun p _ => rfl⟩,
    ⟨slot_of _ _ _ (by decide +kernel), lands_of _ _ rfl (by decide +kernel) (by decide +kernel) (by decide +kernel) (by decide +kernel)⟩,
    ⟨slot_of _ _ _ (by decide +kernel), slot_of _ _ _ (by decide +kernel), slot_of _ _ _ (by decide +kernel),
      lands_of _ _ rfl (by decide +kernel) (by decide +kernel) (by decide +kernel) (by decide +kernel)⟩, by decide +kernel⟩

/-- CONFIRMs, a SETTLE, a POISON, a message of the wrong kind, a stale one, and both timeouts. -/
theorem witness_CollectiveUnitOperation_ends :
    let x := cs 0 64 2 true
    let y : CSlot := { x with confirms := [2] }
    let z := cs 0 64 3 true
    let m := cm 1 0 0 []
    let n := cm 0 0 0 []
    InSlot (inColl 0 (some x)) m 15 x ∧ InSlot (inColl 0 (some y)) m 15 y ∧ InSlot (inColl 2 (some z)) n 15 z
    ∧ crcFits m = true ∧ msgOk (inColl 0 (some x)) x 4 m = true ∧ x.small = true ∧ x.state = 2 ∧ x.confirms.contains 2 = false
    ∧ msgOk (inColl 0 (some y)) y 4 m = true ∧ slotRank (inColl 0 (some y)) y = 0 ∧ slotN (inColl 0 (some y)) y = 3
    ∧ (∀ q, q < 3 → q = 0 ∨ q = 1 ∨ y.confirms.contains q = true) ∧ y.crownReset = false ∧ cStatusEn y.desc = false
    ∧ (inColl 0 (some y)).boot.phase = .compute ∧ msgOk (inColl 2 (some z)) z 5 n = true
    ∧ msgOk (inColl 0 (some x)) x 6 m = true ∧ MsgRows (.contrib, 0) ∧ msgOk (inColl 0 (some x)) x 0 m = false ∧ x.state ≠ 3
    ∧ (inColl 0 none).pins.porst = true ∧ slotWith (inColl 0 none) 0 4 = none ∧ 2 ^ 23 ≤ (4 + 2 ^ 24 - (cgroup (inColl 0 none) 0).nextSeq) % 2 ^ 24
    ∧ cslot (inColl 0 (some x)) 15 = some x ∧ x.takenAt + odNat (inColl 0 (some x)) 0x600004 ≤ (inColl 0 (some x)).clk.us
    ∧ z.state = 3 ∧ z.confirmedAt + odNat (inColl 2 (some z)) 0x600004 ≤ (inColl 2 (some z)).clk.us
    ∧ (∀ g, (gcGet (inColl 2 (some z)) g).toNat + 2 < 2 ^ 64) := by
  refine ⟨slot_of _ _ _ (by decide +kernel), slot_of _ _ _ (by decide +kernel), slot_of _ _ _ (by decide +kernel),
    ?_, ?_, ?_, ?_, ?_, ?_, ?_, ?_, ?_, ?_, ?_, ?_, ?_, ?_, .head _, ?_, ?_, ?_, ?_, ?_, ?_, ?_, ?_, ?_, fun _ => show (0 : DWord).toNat + 2 < 2 ^ 64 by decide⟩
  all_goals decide +kernel

/-! ## Sideband, management and trust -/

/-- Session 0 is open to the I3C requester at address 8, privileged. -/
def open0 (s : State) : State :=
  { s with mgmt := { s.mgmt with sessions := [(0, some { token := 77, transport := .i3c, address := 8, privileged := true })] } }

/-- The header of a request with SEQ 1 in session 0, with a body of `n` bytes. -/
def hd (n : Nat) : ConasHdr := { aHdr with length := n }

/-- Outside a session. -/
def hx (n : Nat) : ConasHdr := { aHdr with length := n, session := 0xF }

theorem acc (s : State) (h : ConasHdr) (code : Nat) (body : List Byte) (p : s.pins.porst = true)
    (k : atHead s h code body = true) (q : 2 ≤ phaseCode s.boot.phase) (v : verdict (unqueued s h code body) h code body = .ok) : Accepts s h code body :=
  ⟨p, k, q, v⟩

theorem witness_SidebandAndTestPort :
    let s : State := { upIn .compute with mgmt := { eid := 9, dynAddr := some 0x7F } }
    let msg : List Byte := leBytes (1 + 0x10 * 2 ^ 8) 8
    let u (som eom : Bool) (p : List Byte) : MctpUnit :=
      { srcEid := 8, dstEid := 9, som := som, eom := eom, pktSeq := 1, tag := 0, owner := true, pecOk := true, payload := p }
    let whole : List Byte := [0x7F, 0x00, 0x03, 0xE1, 0xA5] ++ msg
    let a : Assembly := { srcEid := 8, tag := 0, owner := true, next := 1, bytes := whole.take 12 }
    s.pins.porst = true ∧ s.mgmt.dynAddr ≠ none ∧ 2 ≤ phaseCode s.boot.phase ∧ (u true true whole).dstEid = s.mgmt.eid
    ∧ 0 < (u true true whole).payload.length ∧ (u true true whole).payload.length ≤ 64
    ∧ s.mgmt.assembling.find? (sameAssembly (u true true whole)) = none ∧ 8 ≤ msg.length
    ∧ knownCode (parseConas .i3c 8 0 msg).code = true ∧ (u true false (List.replicate 64 0)).payload.length = 64
    ∧ s.mgmt.assembling.length < 8 ∧ [a].find? (sameAssembly (u false true (whole.drop 12))) = some a
    ∧ a.next = (u false true (whole.drop 12)).pktSeq ∧ a.bytes ++ (whole.drop 12) = whole := by decide +kernel

theorem witness_RequestsChecked :
    let q : Conas := { h := hx 8, body := List.replicate 8 0 }
    let s := open0 (upIn .compute)
    let r : ConasRsp := { code := 2, seq := 0xFFFF, session := 0, status := 0, body := [] }
    let t : State := { s with mgmt := { s.mgmt with sessions := [(0, some { token := 77, transport := .i3c, address := 8, privileged := true, cached := some r })] } }
    let at_ (n : BitVec 16) : ConasHdr := { hd 0 with seq := n }
    let wait : State := { s with mgmt := { s.mgmt with inbox := [{ h := hd 0, code := 2, body := [] }] } }
    ConasRow (.eventRead q) q.h 0x20 q.body ∧ s.pins.porst = true ∧ phaseCode (upIn .fwVerify).boot.phase < 2
    ∧ 2 ≤ phaseCode s.boot.phase ∧ verdict (unqueued s q.h 0x20 q.body) q.h 0x20 q.body = .refuse 0x24
    ∧ verdict (unqueued t (at_ 0xFFFF) 2 []) (at_ 0xFFFF) 2 [] = .cached r
    ∧ headViolation { h := at_ 256, code := 2, body := [] } = none ∧ (at_ 256).session ≠ 0xF ∧ (at_ 256).session.toNat < 8
    ∧ (boundSession t (at_ 256)).isSome = true ∧ atHead s q.h 0x20 q.body = true ∧ atHead wait q.h 0x20 q.body = false ∧ 2 ≤ phaseCode wait.boot.phase
    ∧ 256 < ((at_ 256).seq.toNat + 2 ^ 16 - 0xFFFF) % 2 ^ 16
    ∧ verdict (unqueued t (at_ 255) 2 []) (at_ 255) 2 [] = .ok := by
  refine ⟨.inl ⟨_, rfl, rfl, .inl (.tail _ (.tail _ (.head _)))⟩, ?_⟩
  decide +kernel

/-- The bodies of accepted requests: SESSION_OPEN new, resumed and with no session free, SESSION_CLOSE, OD_READ, the writes
of fw_stage and of writable objects, EVENT_READ. -/
theorem witness_ManagementRequests :
    let s := open0 (upIn .compute)
    let tok : List Byte := leBytes 77 8 ++ leBytes 0 8
    let b := odBody 0x1100 1 0 0 [0, 0, 0, 0]
    let other : Session := { token := 1, transport := .i3c, address := 8, privileged := false }
    let full : State := { s with mgmt := { s.mgmt with sessions := (List.range 8).map (fun k => (k, some other)) } }
    let third : State := { s with mgmt := { s.mgmt with sessions := [(3, some { other with token := 77 })] } }
    let ev : State := { upIn .compute with clk := { us := 1000000 }, log := { now := [(0x10A * 256 + 255, 3)] } }
    Accepts s (hx 16) 1 tok ∧ Accepts full (hx 16) 1 tok ∧ Accepts third (hx 16) 1 tok ∧ Accepts s (hd 0) 2 [] ∧ Accepts s (hd 12) 0x10 b
    ∧ Accepts s (hx 8) 0x20 [0, 0, 0, 0, 31, 1, 0, 0]
    ∧ Accepts s (hd 10) 0x11 (odBody 0x5100 1 0 0 (leBytes 2047 2)) ∧ Accepts s (hd 12) 0x11 (odBody 0x1300 7 0 0 (leBytes 5 4))
    ∧ Accepts s (hd 10) 0x11 (odBody 0x2100 3 0 0 (leBytes 460 2))
    ∧ (sessionAt (heard third (hx 16) 1 tok) 3).any (fun x => x.token = 77) = true
    ∧ (∀ j, j < 3 → sessionAt (heard third (hx 16) 1 tok) j = none)
    ∧ (∀ j, j < 8 → (sessionAt (heard full (hx 16) 1 tok) j).any (fun x => x.token ≠ 77) = true)
    ∧ sessionAt (heard (upIn .compute) (hx 16) 1 tok) 0 = none
    ∧ (objOf (heard s (hd 12) 0x10 b) 0x1100 1).isSome = true ∧ s.gov.decided = none
    ∧ ev.pins.porst = true ∧ ev.clk.us / 1000000 ≠ ev.log.second ∧ ev.log.due = [] ∧ ev.log.now = [(0x10A * 256 + 255, 3)] := by
  refine ⟨acc _ _ _ _ rfl rfl ?_ ?_, acc _ _ _ _ rfl rfl ?_ ?_, acc _ _ _ _ rfl rfl ?_ ?_, acc _ _ _ _ rfl rfl ?_ ?_, acc _ _ _ _ rfl rfl ?_ ?_,
    acc _ _ _ _ rfl rfl ?_ ?_, acc _ _ _ _ rfl rfl ?_ ?_, acc _ _ _ _ rfl rfl ?_ ?_, acc _ _ _ _ rfl rfl ?_ ?_, ?_⟩
  all_goals decide +kernel

/-- A write of fw_stage's last byte is accepted. -/
theorem witness_ManagementRequests_stage :
    Accepts (open0 (upIn .compute)) (hd 9) 0x11 (odBody 0x8000 6 0 0xFFFFF [7]) := by
  refine acc _ _ _ _ rfl rfl (by decide) ?_
  have o : objOf (unqueued (open0 (upIn .compute)) (hd 9) 0x11 (odBody 0x8000 6 0 0xFFFFF [7]))
      (odIndex (odBody 0x8000 6 0 0xFFFFF [7])) (odSub (odBody 0x8000 6 0 0xFFFFF [7]))
      = some { ty := 9, acc := 3, val := List.replicate 0x100000 0 } := rfl
  obtain ⟨v, hv, hl⟩ : ∃ v : List Byte, v = List.replicate 0x100000 0 ∧ v.length = 0x100000 := ⟨_, rfl, List.length_replicate⟩
  rw [← hv] at o
  have b : boundSession (unqueued (open0 (upIn .compute)) (hd 9) 0x11 (odBody 0x8000 6 0 0xFFFFF [7])) (hd 9)
      = some { token := 77, transport := .i3c, address := 8, privileged := true } := rfl
  have h : headViolation { h := hd 9, code := 0x11, body := odBody 0x8000 6 0 0xFFFFF [7] } = none := by decide
  have k : odKey (odBody 0x8000 6 0 0xFFFFF [7]) = 0x800006 := by decide
  have f : odOffset (odBody 0x8000 6 0 0xFFFFF [7]) = 0xFFFFF := by decide
  have z : bodyNat (odBody 0x8000 6 0 0xFFFFF [7]) 3 1 = 0 := by decide
  have n : (odBody 0x8000 6 0 0xFFFFF [7]).length = 9 := by decide
  simp only [verdict, h, b, badSession, badBody, bodyVerdict, writeVerdict, o, k, f, z, n, writeSpanOk, privilegedCmd, hl]
  rfl

theorem witness_TrustRequests :
    let s : State := { open0 (upIn .compute) with part := { ownerKeyable := true, serial := 6 }, fuse := { ownerKeyState := 0 } }
    let q (off : Nat) : List Byte := leBytes off 8 ++ List.replicate 32 5
    let d (step : Byte) : List Byte := step :: List.replicate 7 0
    let b : Quote := { nonce := List.replicate 32 5, bytes := [1] }
    let w : State := { s with mgmt := { s.mgmt with quote0 := some b, challenge := some (List.replicate 32 1) } }
    Accepts s (hx 4) 0x30 (leBytes 0 4) ∧ Accepts s (hx 40) 0x31 (q 0) ∧ Accepts w (hx 40) 0x31 (q 8816)
    ∧ Accepts s (hd 8) 0x32 (leBytes 6 8) ∧ Accepts s (hd 8) 0x33 (d 0) ∧ Accepts w (hd 8) 0x33 (d 1)
    ∧ ofLe ((q 0).take 4) = 0 ∧ ofLe ((q 8816).take 4) ≠ 0 ∧ s.fuse.wrapDisabled = false ∧ s.mram.keys = true
    ∧ quoteOf (heard s (hx 40) 0x31 (q 8816)) (hx 40) = none ∧ quoteOf (heard w (hx 40) 0x31 (q 8816)) (hx 40) = some b
    ∧ b.nonce = (q 8816).drop 8 ∧ s.part.ownerKeyable = true ∧ s.fuse.lifecycle = 2 ∧ s.fuse.ownerKeyState = 0
    ∧ ofLe ((leBytes 6 8).take 8) = s.part.serial.toNat ∧ ofLe ((leBytes 7 8).take 8) ≠ s.part.serial.toNat
    ∧ ofLe ((d 0).take 1) = 0 ∧ ofLe ((d 1).take 1) ≠ 0 ∧ s.mgmt.challenge = none ∧ w.mgmt.challenge.isSome = true := by
  refine ⟨acc _ _ _ _ rfl rfl ?_ ?_, acc _ _ _ _ rfl rfl ?_ ?_, acc _ _ _ _ rfl rfl ?_ ?_, acc _ _ _ _ rfl rfl ?_ ?_, acc _ _ _ _ rfl rfl ?_ ?_,
    acc _ _ _ _ rfl rfl ?_ ?_, ?_⟩
  all_goals decide +kernel

/-- The fourteen commands with an argument that each accepts, its precondition true, and one with it false where it can be. -/
theorem witness_ManagementCommands :
    let s : State :=
      let t := open0 (upIn .compute)
      { t with mgmt := { t.mgmt with rt := [(0x510001, leBytes 0 2)] } }
    let grp : State := { s with mem := (mwrite windowed (lastSpad) [9, 0, 0, 0]).mem }
    let busy : State := { s with mgmt := { s.mgmt with pend := some { sub := 6, session := 0, seq := 1, arg := [1] } } }
    let ok (t : State) (k : Nat) (data : List Byte) : Bool :=
      verdict (unqueued t (hd (8 + data.length)) 0x11 (odBody 0xF000 k 0 0 data)) (hd (8 + data.length)) 0x11 (odBody 0xF000 k 0 0 data) = .ok
    let pre (t : State) (k : Nat) (data : List Byte) : Bool :=
      precondition (heard t (hd (8 + data.length)) 0x11 (odBody 0xF000 k 0 0 data)) k (ofLe data)
    let rows : List (Nat × List Byte) := [(1, [1]), (2, [2]), (3, [3]), (4, [3]), (5, [3]), (6, [1]), (7, [3]), (8, [1]), (9, [1]),
      (10, leBytes (2 ^ 16 + lastSpad * 2 ^ 32) 12), (11, [255]), (12, leBytes (5 + 1 * 2 ^ 16) 16), (13, leBytes 0xFFFF 2), (14, [1])]
    CommandRows (.nvCommit, 1) ∧ CommandRows (.fwInstall, 14) ∧ 2 ≤ phaseCode s.boot.phase ∧ s.mgmt.pend = none
    ∧ busy.mgmt.pend.isSome = true ∧ ok busy 1 [1] = true ∧ (∀ e ∈ rows, ok grp e.1 e.2 = true ∧ pre grp e.1 e.2 = true)
    ∧ ok s 5 [0] = true ∧ pre s 5 [0] = false ∧ ok s 14 [0] = true ∧ pre s 14 [0] = false := by
  refine ⟨.head _, .tail _ (.tail _ (.tail _ (.tail _ (.tail _ (.tail _ (.tail _ (.tail _ (.tail _ (.tail _ (.tail _ (.tail _
    (.tail _ (.head _))))))))))))), ?_⟩
  decide +kernel

theorem witness_CommandsComplete :
    let p (k : Nat) (arg : List Byte) : PendCmd := { sub := k, session := 0, seq := 1, arg := arg }
    let on (s : State) (k : Nat) (arg : List Byte) : State := { s with mgmt := { s.mgmt with pend := some (p k arg) } }
    let s := upIn .compute
    let n : State := { s with mgmt := { s.mgmt with rt := [(0x510001, leBytes 0 2)] }, mem := (mwrite windowed lastSpad [9, 0, 0, 0]).mem }
    let arg := leBytes (2 ^ 16 + lastSpad * 2 ^ 32) 12
    let g (v : Nat) : GraftLoad := { off := 0, packets := 1, image := 9, doneGc := 0, startValue := v, targets := [], digest := [] }
    let gl (v : Nat) (f : Bool) : State := { s with graft := { s.graft with load := some { g v with failed := f } } }
    (on s 1 [1]).mgmt.pend = some (p 1 [1]) ∧ s.boot.crownSeq = false ∧ s.boot.phase = .compute ∧ (upIn .crownDown).boot.phase = .crownDown
    ∧ groupList (on n 10 arg) (ofLe arg) = some [9] ∧ groupList (on s 10 arg) (ofLe arg) = none
    ∧ (on s 12 []).graft.load = none ∧ (on (gl 0 true) 12 []).graft.load = some { g 0 with failed := true }
    ∧ (on (gl 0 false) 12 []).graft.load = some (g 0) ∧ (g 0).startValue ≤ (gcGet (on (gl 0 false) 12 []) 0).toNat
    ∧ (gcGet (on (gl 1 false) 12 []) 0).toNat < (g 1).startValue := by decide +kernel

/-! ## The machine -/

theorem witness_GuardsAndFetch :
    let f : RR := { rr 1 2 3 with g := 0b0001 }
    let s (size : Nat) (w : Nat) : State := chip { core w {} with tcode := [(0, BitVec.ofNat 32 (size * 2 ^ 16 + 0))], preds := 2 }
    let w := wRR 0x01 0 f
    LeafWord (.add 0 f) 0 w f.g ∧ canIssue (s 1 w) 0 = true ∧ (leafOf (s 0 w) 0).pc = 0 ∧ canIssue (s 0 w) 0 = true
    ∧ legalWord (fetchWord (leafOf (s 1 0xFFFFFFFF) 0)) = false ∧ legalWord w = true ∧ fetchWord (leafOf (s 1 w) 0) = w
    ∧ guardOn (leafOf (s 1 w) 0) f.g = false ∧ (leafOf (s 1 w) 0).errs.any (fun e => e.at_ ≤ issueCycle (s 1 w) (leafOf (s 1 w) 0) [] false) = false
    ∧ rejoinDue (leafOf (s 1 w) 0) = false ∧ memberWaits (s 1 w) (leafOf (s 1 w) 0) = false
    ∧ (leafOf (s 1 w) 0).nextIssue ≤ leafNow (s 1 w) (leafOf (s 1 w) 0)
    ∧ (let b : State := chip { core w {} with nextIssue := 1 }; canIssue b 0 = true ∧ leafNow b (leafOf b 0) < (leafOf b 0).nextIssue) := by
  intro f s w
  have h : LeafWord (.add 0 f) 0 w f.g := by
    refine Or.inl ⟨f, (.add, 0x01, 0), Or.inl ⟨rfl, rfl, rfl, ?_⟩⟩
    exact .tail _ (.tail _ (.tail _ (.tail _ (.tail _ (.tail _ (.tail _ (.head _)))))))
  exact ⟨h, by decide +kernel⟩

theorem witness_StepRunsFrontCommand :
    let s : State := { State.reset with pending := [.romBoot, .cmdDone] }
    let f := rr 1 2 3
    s.pending = .romBoot :: [.cmdDone] ∧ State.reset.pending = [] ∧ State.reset.pins.porst = false ∧ canIssue State.reset 0 = false
    ∧ (leafOf (chip (core 0 {})) 0).pc < fld (mget 0 (core 0 {}).tcode 0).toNat 16 13
    ∧ legalWord (fetchWord (leafOf (chip (core 0 {})) 0)) = true ∧ fetchWord (leafOf (chip (core 0 {})) 0) ≠ wRR 0x01 0 f := by
  decide +kernel

/-- PORST_N released at slot 9, then a step: the machine leaves ROM_BOOT through its queue. -/
theorem test_steps_from_reset :
    step { State.reset with pending := [.porstNRelease 9 0, .romBoot] }
      = exec (.porstNRelease 9 0) { State.reset with pending := [.romBoot] } := rfl

/-- The clock runs on an empty queue: CCLK counts cycles and REFCLK-derived microseconds pass (log 1), and nothing moves under PORST_N. -/
theorem test_idle_queue_ticks : step State.reset = .next State.reset
    ∧ (match step (chip (core 0 {})) with | .next t => t.clk.cclk == 1 && (leafOf t 0).run == .running | _ => false) = true :=
  ⟨rfl, by decide +kernel⟩

theorem witness_MachineInvariantKept : MemCanonical State.reset ∧ LogInOrder State.reset.log
    ∧ exec .cmdDone State.reset = .next State.reset := by
  refine ⟨rfl, ⟨by decide, by decide, by decide⟩, rfl⟩

theorem witness_ReadyFollowsCompute : ReadyInCompute State.reset ∧ ReadyInCompute (upIn .compute) ∧ ReadyInCompute (upIn .crownDown) := by
  refine ⟨rfl, rfl, rfl⟩

theorem witness_WrapFuseIsFinal :
    let s : State := { open0 (upIn .compute) with fuse := { lifecycle := 4, wrapDisabled := true } }
    let q (off : Nat) : List Byte := leBytes off 8 ++ List.replicate 32 5
    DebugWrapped State.reset.fuse ∧ DebugWrapped s.fuse ∧ s.fuse.wrapDisabled = true ∧ Accepts s (hx 40) 0x31 (q 0)
    ∧ Accepts s (hd 40) 0x31 (q 1) ∧ bodyNat (q 0) 0 4 = 0 ∧ bodyNat (q 1) 0 4 ≠ 0 := by
  refine ⟨fun h => ?_, fun _ => rfl, rfl, acc _ _ _ _ rfl rfl ?_ ?_, acc _ _ _ _ rfl rfl ?_ ?_, ?_⟩
  · rcases h with h | h <;> cases h
  all_goals decide +kernel

theorem witness_WriteRangesEnforced :
    let s := open0 (upIn .compute)
    let q (ix sub v n : Nat) : OdReq :=
      { h := hd (8 + n), index := BitVec.ofNat 16 ix, sub := BitVec.ofNat 8 sub, zero := 0, offset := 0, data := leBytes v n }
    (∀ e ∈ [(0x3100, 2, 1, 3, 1), (0x4001, 1, 60, 86400, 4), (0x4001, 2, 1, 255, 1)],
      let key : Nat := e.1 * 256 + e.2.1
      let r := q e.1 e.2.1 e.2.2.2.1 e.2.2.2.2
      (key, e.2.2.1, e.2.2.2.1) ∈ [(0x310002, 1, 3), (0x400101, 60, 86400), (0x400102, 1, 255)]
        ∧ r.h.length = 8 + r.data.length ∧ (boundSession s r.h).isSome = true ∧ (r.h.seq - 0xFFFF).toNat = 2
        ∧ r.data.length = (odBytes s key).length ∧ ofLe r.data = e.2.2.2.1
        ∧ ¬ (e.2.2.1 ≤ ofLe (q e.1 e.2.1 (e.2.2.1 - 1) e.2.2.2.2).data))
    ∧ s.pins.porst = true ∧ 2 ≤ phaseCode s.boot.phase ∧ s.boot.recovery = false ∧ s.fuse.lifecycle ≠ 5 := by decide +kernel

end Sys2Proof.Tests
end

section
/-! PROOFS, O22. Power-on reset and the beginning of start-up (R551, R570, R571, R585, R673, R678, R680). -/
namespace Sys2Proof.Machine

theorem resetForm_porstReset (s : State) (pins : Pins) : ResetForm s { porstReset s with pins := pins } := rfl

theorem powerOnResetClears : PowerOnResetClears := fun s =>
  ⟨⟨_, rfl, resetForm_porstReset s _, rfl⟩, fun _ => ⟨_, rfl, resetForm_porstReset s _, rfl⟩,
    ⟨_, rfl, resetForm_porstReset s _, rfl⟩⟩

theorem applyClears_none (s : State) (porst : Bool) (h : s.boot.clears = []) : applyClears s porst = s := if_pos h

/-- A rail or REFCLK out of its limits keeps start-up from beginning (R673, R680). -/
theorem tryStart_held (s : State) (h : (s.pins.railsOk && s.pins.refOk) = false) : tryStart s = s := by
  have hn : (s.pins.porstPin && s.pins.railsOk && s.pins.refOk && !s.pins.porst) = false := by
    rw [Bool.and_assoc s.pins.porstPin, h, Bool.and_false, Bool.false_and]
  rw [tryStart, if_neg (by simp [hn])]

/-- Once PORST_N, rails and REFCLK are good and no clears wait, start-up begins under the straps as sampled (R551, R561). -/
theorem startedForm_tryStart (s : State) (hpin : s.pins.porstPin = true) (hr : s.pins.railsOk = true)
    (hf : s.pins.refOk = true) (hp : s.pins.porst = false) (hc : s.boot.clears = []) :
    StartedForm s (tryStart s) s.boot.slotId s.boot.profSel := by
  have hpins : { s.pins with porst := true, porstPin := true, railsOk := true, refOk := true }
      = { s.pins with porst := true } := by
    simp [hpin, hr, hf]
  rw [tryStart, if_pos (by simp [hpin, hr, hf, hp]), startUp]
  unfold StartedForm
  simp only [applyClears_none, hc, hpins, Bool.not_or, ← decide_not]
  split
  · rfl
  · exact raised_raise _ _ _ _ _

theorem startUpBegins : StartUpBegins := by
  intro s hp hc
  refine ⟨fun slotId profSel hpin hr hf => ⟨_, rfl, ?_⟩, fun slotId profSel hpin hbad => ⟨_, rfl, ?_⟩,
    fun hpin hf => ⟨_, rfl, startedForm_tryStart { s with pins := { s.pins with railsOk := true } } hpin rfl hf hp hc⟩,
    fun hpin hr => ⟨_, rfl, startedForm_tryStart { s with pins := { s.pins with refOk := true } } hpin hr rfl hp hc⟩⟩
  · rw [if_neg (by simp [hpin])]
    exact startedForm_tryStart { s with pins := { s.pins with porstPin := true }
                                        boot := { s.boot with slotId := slotId, profSel := profSel } } rfl hr hf hp hc
  · rw [if_neg (by simp [hpin])]
    exact tryStart_held _ hbad

/-- Settles O22: a reset is the reset state but for what it keeps, and start-up begins where nothing holds the chiplet in
reset any more. -/
theorem resetAndStartUp : Obligations.ResetAndStartUp := ⟨powerOnResetClears, startUpBegins⟩

end Sys2Proof.Machine
end

section
/-! PROOFS, O28, first part. Defects recorded, and how edge ports train, lose and regain modules (R36, R441, R466, R471). -/
namespace Sys2Proof.Machine

/-! ### Defects recorded -/

/-- `t` is `s` but for events raised and defects recorded, in the list or past its end (R562, R578, R580). -/
def DefectsAdded (s t : State) : Prop :=
  ∃ (ds us : List Defect) (g : EvLog) (ps : List Event) (o : List MgmtOut) (a : Bool), t =
    { s with log := g, mram := { s.mram with persisted := ps, defects := s.mram.defects ++ ds }
             boot := { s.boot with unlisted := s.boot.unlisted ++ us }, mgmt := { s.mgmt with out := o }
             pins := { s.pins with alert := a } }

section
variable {s t u : State}

theorem defectsAdded_trans (h : DefectsAdded s t) (k : DefectsAdded t u) : DefectsAdded s u := by
  obtain ⟨ds, us, g, ps, o, a, rfl⟩ := h
  obtain ⟨ds', us', g', ps', o', a', rfl⟩ := k
  exact ⟨ds ++ ds', us ++ us', g', ps', o', a', by simp only [List.append_assoc]⟩

theorem defectsAdded_of_eventFrame (h : EventFrame s t) : DefectsAdded s t := by
  obtain ⟨g, ps, o, a, rfl⟩ := h
  exact ⟨[], [], g, ps, o, a, by simp only [List.append_nil]⟩

theorem defectsAdded_refl (s : State) : DefectsAdded s s := defectsAdded_of_eventFrame (eventFrame_refl s)

theorem defectsAdded_raise (s : State) (code unit detail payload : Nat) : DefectsAdded s (raise s code unit detail payload) :=
  defectsAdded_of_eventFrame (raise_frame s code unit detail payload)

/-- The entry that records a failed site now (R578). -/
def entryOf (s : State) (x : Site) : Defect :=
  { kind := x.kind, position := x.position, test := x.test, data := x.data, boot := s.mram.bootCount, timeUs := s.clk.us }

theorem defectsAdded_record (s : State) (ds us : List Defect) : DefectsAdded s
    { s with mram := { s.mram with defects := s.mram.defects ++ ds }
             boot := { s.boot with unlisted := s.boot.unlisted ++ us } } :=
  ⟨ds, us, s.log, s.mram.persisted, s.mgmt.out, s.pins.alert, rfl⟩

theorem defectsAdded_addDefect (s : State) (x : Site) : DefectsAdded s (addDefect s x) := by
  have listed := defectsAdded_record s [entryOf s x] []
  have unlisted := defectsAdded_record s [] [entryOf s x]
  simp only [List.append_nil] at listed unlisted
  unfold addDefect
  simp only
  split
  · exact defectsAdded_trans listed (defectsAdded_raise _ _ _ _ _)
  · exact defectsAdded_trans unlisted (defectsAdded_raise _ _ _ _ _)

theorem DefectsAdded.frame (h : DefectsAdded s t) :
    t.links = s.links ∧ t.leaves = s.leaves ∧ t.mem = s.mem ∧ t.gov = s.gov := by
  obtain ⟨ds, us, g, ps, o, a, rfl⟩ := h
  exact ⟨rfl, rfl, rfl, rfl⟩

/-- A defect that binds goes on binding when others are recorded. -/
theorem DefectsAdded.hasDefect {k p : Nat} (h : DefectsAdded s t) (hd : hasDefect s k p = true) : hasDefect t k p = true := by
  obtain ⟨ds, us, g, ps, o, a, rfl⟩ := h
  simp only [Machine.hasDefect, effDefects, List.any_append, Bool.or_eq_true] at hd ⊢
  rcases hd with (h | h) | h
  · exact .inl (.inl (.inl h))
  · exact .inl (.inr (.inl h))
  · exact .inr h

/-- A recorded defect binds, within the list or past its end (R580). -/
theorem hasDefect_addDefect (s : State) (x : Site) : hasDefect (addDefect s x) x.kind.toNat x.position.toNat = true := by
  unfold addDefect
  simp only
  split <;> simp [hasDefect, effDefects]

/-- A failed module fences no unit of the crown: it is reported and recorded (R599). -/
theorem defectsAdded_failUnit (s : State) (x : Site) (h : x.kind = 7) : DefectsAdded s (failUnit s x) := by
  have he : failUnit s x = addDefect (raise s 0x0B (x.position.toNat % 65536) x.kind.toNat 0) x := by
    simp [failUnit, h]
  rw [he]
  exact defectsAdded_trans (defectsAdded_raise _ _ _ _ _) (defectsAdded_addDefect _ _)

theorem hasDefect_failUnit (s : State) (x : Site) : hasDefect (failUnit s x) x.kind.toNat x.position.toNat = true :=
  hasDefect_addDefect _ _

theorem portOf_congr (h : t.links.ports = s.links.ports) (p : Nat) : portOf t p = portOf s p := by rw [portOf, h, portOf]

end

/-! ### Modules -/

theorem getLsbD_oneModule (mod m : Nat) (h : m < 8) : (BitVec.ofNat 8 (2 ^ mod)).getLsbD m = decide (m = mod) := by
  rw [BitVec.getLsbD_eq_getElem h, getElem_pow8 mod m h]

/-- The position of module `m` of port `p` in the defect list (R578). -/
theorem modulePosition (p m : Nat) (hp : p < 4) (hm : m < 8) : (BitVec.ofNat 32 (8 * p + m)).toNat = 8 * p + m := by
  rw [BitVec.toNat_ofNat]; omega

theorem defectsAdded_moduleUntrained (lanes : List Byte) (p : Nat) (s : State) (m : Nat) :
    DefectsAdded s (moduleUntrained lanes p s m) :=
  defectsAdded_trans (defectsAdded_addDefect _ _) (defectsAdded_raise _ _ _ _ _)

theorem hasDefect_moduleUntrained (lanes : List Byte) (p : Nat) (s : State) (m : Nat) (hp : p < 4) (hm : m < 8) :
    hasDefect (moduleUntrained lanes p s m) 7 (8 * p + m) = true := by
  refine (defectsAdded_raise _ _ _ _ _).hasDefect ?_
  have h := hasDefect_addDefect s
    { kind := 7, position := BitVec.ofNat 32 (8 * p + m), test := 0x0C, data := (lanes.getD m 0).setWidth 32 }
  rwa [modulePosition p m hp hm] at h

theorem defectsAdded_modulesUntrained (lanes : List Byte) (p : Nat) (ms : List Nat) (s : State) :
    DefectsAdded s (ms.foldl (moduleUntrained lanes p) s) :=
  List.foldlRecOn ms _ (defectsAdded_refl s) (fun _ h m _ => defectsAdded_trans h (defectsAdded_moduleUntrained lanes p _ m))

/-- Every module of a list that fails R441 is recorded. -/
theorem hasDefect_modulesUntrained (lanes : List Byte) (p : Nat) (ms : List Nat) (s : State) (m : Nat) (hp : p < 4)
    (hm : m < 8) (h : m ∈ ms) : hasDefect (ms.foldl (moduleUntrained lanes p) s) 7 (8 * p + m) = true := by
  induction ms generalizing s with
  | nil => cases h
  | cons n r ih =>
    rcases List.mem_cons.mp h with rfl | h
    · exact (defectsAdded_modulesUntrained lanes p r _).hasDefect (hasDefect_moduleUntrained lanes p s m hp hm)
    · exact ih _ h

/-! ### Training ends, is retried, and modules leave and return -/

theorem armTrained_unarmed (s : State) (p : Nat) (h : (portOf s p).armed = false) : armTrained s p = s := by
  simp [armTrained, h]

/-- What training without a partner does (R36, R466). -/
theorem trainingWithoutPartner (s : State) (port : Nat) (modules : BitVec 8) (lanes : List Byte) (hp : port < 4)
    (h1 : (portOf s port).state ≤ 1) (hr : s.pins.porst = true) (hb : 4 ≤ phaseCode s.boot.phase) :
    Completes (.portTrainingComplete port false modules lanes) s (fun t =>
      let u := setPort s port { portOf s port with state := 2, since := s.clk.us, absentRaised := true }
      if (portOf s port).absentRaised then t = u else Raised u t 0xA0 port 0 0) := by
  refine ⟨_, rfl, ?_⟩
  have hg : (decide (port ≥ 4) || decide ((portOf s port).state > 1) || !s.pins.porst || decide (phaseCode s.boot.phase < 4))
      = false := by simp [hp, h1, hr, hb]
  simp only [hg, Bool.false_eq_true, if_false, Bool.not_false, if_true]
  split
  · rfl
  · exact raised_raise _ _ _ _ _

/-- What training with a partner does at a port that is not armed (R441, R466). -/
theorem trainingWithPartner (s : State) (port : Nat) (modules : BitVec 8) (lanes : List Byte) (hp : port < 4)
    (h1 : (portOf s port).state ≤ 1) (hr : s.pins.porst = true) (hb : 4 ≤ phaseCode s.boot.phase)
    (ha : (portOf s port).armed = false) :
    Completes (.portTrainingComplete port true modules lanes) s (fun t =>
      let up := modules &&& ~~~listedModules s port
      (portOf t port).modules = up ∧ (portOf t port).state = (if up = 0 then 6 else 3) ∧ (portOf t port).since = s.clk.us
      ∧ (∀ m, m < 8 → modules.getLsbD m = false → (listedModules s port).getLsbD m = false →
          hasDefect t 7 (8 * port + m) = true)
      ∧ (∀ q, q ≠ port → portOf t q = portOf s q) ∧ t.leaves = s.leaves ∧ t.mem = s.mem) := by
  refine ⟨_, rfl, ?_⟩
  have hg : (decide (port ≥ 4) || decide ((portOf s port).state > 1) || !s.pins.porst || decide (phaseCode s.boot.phase < 4))
      = false := by simp [hp, h1, hr, hb]
  simp only [hg, Bool.false_eq_true, if_false, Bool.not_true]
  rw [armTrained_unarmed _ _ (by simpa using ha)]
  generalize hbad : (List.range 8).filter (fun m => !modules.getLsbD m && !(listedModules s port).getLsbD m) = bad
  generalize hv : ({ s with links := { s.links with lanes := _ } } : State) = v
  obtain ⟨hlinks, hleaves, hmem, -⟩ := (defectsAdded_modulesUntrained lanes port bad v).frame
  refine ⟨by simp, by simp, by simp, fun m hm hn hl => ?_, fun q hq => ?_, ?_, ?_⟩
  · have hmem : m ∈ bad := hbad ▸ List.mem_filter.mpr ⟨List.mem_range.mpr hm, by rw [hn, hl]; rfl⟩
    exact hasDefect_modulesUntrained lanes port bad v m hp hm hmem
  · rw [portOf_setPort_other _ _ _ _ hq, portOf_congr (congrArg Links.ports hlinks), ← hv]
    rfl
  · rw [setPort_leaves, hleaves, ← hv]
  · rw [setPort_mem, hmem, ← hv]

theorem absentPortRetries (s : State) (port : Nat) (hp : port < 4) (hr : s.pins.porst = true) (h2 : (portOf s port).state = 2)
    (hd : (portOf s port).since + 100000 ≤ s.clk.us) :
    Completes (.linkTrainingRetry port) s (fun t => t = setPort s port { portOf s port with state := 1, since := s.clk.us }) :=
  ⟨_, rfl, if_pos (by simp [hp, hr, h2, hd])⟩

/-- A module that leaves service changes its own port alone. -/
theorem dropModule_port (s : State) (p m : Nat) : (∀ q, q ≠ p → portOf (dropModule s p m) q = portOf s q)
    ∧ (portOf (dropModule s p m) p).modules = (portOf s p).modules &&& ~~~(BitVec.ofNat 8 (2 ^ m))
    ∧ (portOf (dropModule s p m) p).state = (portOf s p).state
    ∧ (dropModule s p m).leaves = s.leaves ∧ (dropModule s p m).mem = s.mem := by
  unfold dropModule
  simp only
  cases mget [] (portOf s p).partials m <;>
    exact ⟨fun q hq => by simp [returnCredits, modPort, portOf_setPort_other, hq], by simp [modPort],
      by simp [returnCredits, modPort], rfl, rfl⟩

/-- A port without working modules is FAILED, if it had come up (R441). -/
theorem failPort_port (s : State) (p : Nat) : (portOf (failPort s p) p).modules = (portOf s p).modules
    ∧ (portOf (failPort s p) p).state = (if (portOf s p).modules = 0
        ∧ ((portOf s p).state = 3 ∨ (portOf s p).state = 4 ∨ (portOf s p).state = 5) then 6 else (portOf s p).state)
    ∧ (∀ q, q ≠ p → portOf (failPort s p) q = portOf s q) := by
  unfold failPort
  simp only [Bool.and_eq_true, Bool.or_eq_true, decide_eq_true_eq, or_assoc]
  split
  · exact ⟨by simp [portOf, setPort], by simp [portOf, setPort], fun q hq => by simp [portOf, setPort, mget_mset_other, hq]⟩
  · exact ⟨rfl, rfl, fun _ _ => rfl⟩

theorem failPort_frame (s : State) (p : Nat) : (failPort s p).leaves = s.leaves ∧ (failPort s p).mem = s.mem
    ∧ (failPort s p).gov = s.gov ∧ ∀ k n, hasDefect (failPort s p) k n = hasDefect s k n := by
  unfold failPort
  simp only
  split <;> exact ⟨rfl, rfl, rfl, fun _ _ => rfl⟩

theorem moduleLeaves (s : State) (port mod : Nat) (hp : port < 4) (hm : mod < 8) (hr : s.pins.porst = true)
    (hin : (portOf s port).modules.getLsbD mod = true) :
    Completes (.moduleFailure port mod) s (fun t =>
      (∀ m, m < 8 → (portOf t port).modules.getLsbD m = ((portOf s port).modules.getLsbD m && decide (m ≠ mod)))
      ∧ hasDefect t 7 (8 * port + mod) = true
      ∧ (portOf t port).state = (if (portOf t port).modules = 0
          ∧ ((portOf s port).state = 3 ∨ (portOf s port).state = 4 ∨ (portOf s port).state = 5) then 6 else (portOf s port).state)
      ∧ (∀ q, q ≠ port → portOf t q = portOf s q) ∧ t.leaves = s.leaves ∧ t.mem = s.mem) := by
  refine ⟨_, rfl, ?_⟩
  rw [if_pos (by simp [hp, hm, hr, hin])]
  dsimp only
  obtain ⟨hother, hmods, hstate, hleaves, hmem⟩ := dropModule_port s port mod
  generalize dropModule s port mod = d at *
  generalize hx : ({ kind := 7, position := BitVec.ofNat 32 (8 * port + mod), test := 0x0F, data := 0 } : Site) = x
  have hd : hasDefect (failUnit (raise d 0xA4 (8 * port + mod) 2 0) x) 7 (8 * port + mod) = true := by
    have h := hasDefect_failUnit (raise d 0xA4 (8 * port + mod) 2 0) x
    rw [← hx] at h ⊢
    rwa [modulePosition port mod hp hm] at h
  have hadd : DefectsAdded d (failUnit (raise d 0xA4 (8 * port + mod) 2 0) x) :=
    defectsAdded_trans (defectsAdded_raise _ _ _ _ _) (defectsAdded_failUnit _ _ (by rw [← hx]))
  generalize failUnit (raise d 0xA4 (8 * port + mod) 2 0) x = f at *
  obtain ⟨flinks, fleaves, fmem, -⟩ := hadd.frame
  obtain ⟨pmods, pstate, pother⟩ := failPort_port f port
  obtain ⟨gleaves, gmem, -, gdefect⟩ := failPort_frame f port
  have fp := portOf_congr (congrArg Links.ports flinks)
  refine ⟨fun m h8 => ?_, (gdefect _ _).trans hd, ?_, fun q hq => ?_, ?_, ?_⟩
  · rw [pmods, fp, hmods, BitVec.getLsbD_and, BitVec.getLsbD_not, getLsbD_oneModule mod m h8]
    simp [h8]
  · rw [pstate, pmods, fp, hstate]
  · rw [pother q hq, fp, hother q hq]
  · rw [gleaves, fleaves, hleaves]
  · rw [gmem, fmem, hmem]

theorem moduleReturns (s : State) (port mod : Nat) (lanes : Byte) (hp : port < 4) (hm : mod < 8)
    (hout : mget false s.gov.retraining (8 * port + mod) = true) :
    Completes (.moduleRetrained port mod true lanes) s (fun t =>
      mget false t.gov.retraining (8 * port + mod) = false ∧ mget 0 t.links.lanes (8 * port + mod) = lanes
      ∧ (∀ m, m < 8 → (portOf t port).modules.getLsbD m = ((portOf s port).modules.getLsbD m || decide (m = mod)))
      ∧ (portOf t port).state = (portOf s port).state ∧ t.leaves = s.leaves ∧ t.mem = s.mem ∧ t.mram = s.mram) := by
  refine ⟨_, rfl, ?_⟩
  have hg : (decide (port ≥ 4) || decide (mod ≥ 8) || !mget false s.gov.retraining (8 * port + mod)) = false := by
    simp [hp, hm, hout]
  simp only [hg, Bool.false_eq_true, if_false, if_true]
  refine ⟨mget_mset_self false false s.gov.retraining _, mget_mset_self 0 lanes s.links.lanes _, fun m h8 => ?_, ?_,
    rfl, rfl, rfl⟩
  · rw [modPort, portOf_setPort, BitVec.getLsbD_or, getLsbD_oneModule mod m h8]
    rfl
  · rw [modPort, portOf_setPort]
    rfl

theorem moduleFailsRetraining (s : State) (port mod : Nat) (lanes : Byte) (hp : port < 4) (hm : mod < 8)
    (hout : mget false s.gov.retraining (8 * port + mod) = true) :
    Completes (.moduleRetrained port mod false lanes) s (fun t =>
      mget false t.gov.retraining (8 * port + mod) = false ∧ hasDefect t 7 (8 * port + mod) = true
      ∧ t.leaves = s.leaves ∧ t.mem = s.mem) := by
  refine ⟨_, rfl, ?_⟩
  have hg : (decide (port ≥ 4) || decide (mod ≥ 8) || !mget false s.gov.retraining (8 * port + mod)) = false := by
    simp [hp, hm, hout]
  simp only [hg, Bool.false_eq_true, if_false]
  generalize hv : ({ s with gov := { s.gov with retraining := _ } } : State) = v
  obtain ⟨-, uleaves, umem, ugov⟩ := (defectsAdded_moduleUntrained (List.replicate mod 0 ++ [lanes]) port v mod).frame
  obtain ⟨gleaves, gmem, ggov, gdefect⟩ := failPort_frame (moduleUntrained (List.replicate mod 0 ++ [lanes]) port v mod) port
  refine ⟨?_, (gdefect _ _).trans (hasDefect_moduleUntrained _ _ _ _ hp hm), ?_, ?_⟩
  · rw [ggov, ugov, ← hv]
    exact mget_mset_self false false s.gov.retraining _
  · rw [gleaves, uleaves, ← hv]
  · rw [gmem, umem, ← hv]

theorem linkTrainingResults : LinkTrainingResults :=
  ⟨trainingWithoutPartner, trainingWithPartner, absentPortRetries, moduleLeaves,
    fun s port mod lanes hp hm hout =>
      ⟨moduleReturns s port mod lanes hp hm hout, moduleFailsRetraining s port mod lanes hp hm hout⟩⟩

end Sys2Proof.Machine
end

section
/-! PROOFS, O28, second part. A LINK_PARAM opens a port or refuses its partner (R452, R466 to R468). -/
namespace Sys2Proof.Machine

/-- A map written key after key reads the value written, and elsewhere as before. -/
theorem mget_foldl_mset {α : Type} [DecidableEq α] (d : α) (f : Nat → α) (ks : List Nat) (m : SMap α) (n : Nat) :
    mget d (ks.foldl (fun c k => mset d c k (f k)) m) n = if n ∈ ks then f n else mget d m n := by
  induction ks generalizing m with
  | nil => rfl
  | cons k r ih =>
    rw [List.foldl_cons, ih, mget_mset]
    by_cases hr : n ∈ r
    · simp [hr]
    · by_cases hk : n = k <;> simp [hr, hk]

theorem foldl_intoRouter (qs : List SPkt) (s : State) (p : Nat) : qs.foldl (fun u q => intoRouter u p q) s
    = { s with links := { s.links with router := s.links.router ++ qs.map (fun q => (p, q)) } } := by
  induction qs generalizing s with
  | nil => simp
  | cons q r ih => rw [List.foldl_cons, ih]; simp [intoRouter]

/-- A LINK_PARAM at a port in TRAINED which has none yet is taken (R467). -/
theorem receivePacket_linkParam (s : State) (p : Nat) (q : SPkt) (hop : pOp q = 0x0B) (hh : badHeader q = false)
    (hv : pVc q = 0 ∨ pVc q = 2) (h3 : (portOf s p).state = 3) (hl : (portOf s p).lpOk = false)
    (hr : (portOf s p).lpRx = none) :
    receivePacket p s q = armTrained (setPort s p { portOf s p with lpRx := some q }) p := by
  have hg : (pOp q = 0x0B && !badHeader q && (pVc q = 0 || pVc q = 2)) = true := by simpa [hop, hh] using hv
  rw [receivePacket]
  simp only [hg, if_true]
  rw [receiveParam, if_pos (by simp [h3, hl, hr])]

/-- What arming does for a port in TRAINED: its own LINK_PARAM goes out, unless it has gone, and the partner's is checked. -/
def paramSent (s : State) (p : Nat) : State :=
  if (portOf s p).lpSent then s
  else sendOut (setPort s p { portOf s p with lpSent := true }) p (lowestModule (portOf s p))
    (mkPkt 0 (chipId s) 0 0 false 0x0B 0 [linkParamSlot s p])

theorem armTrained_armed (s : State) (p : Nat) (h3 : (portOf s p).state = 3) (ha : (portOf s p).armed = true) :
    armTrained s p = tryOpen (checkParam (paramSent s p) p) p := by
  rw [armTrained, if_pos (by simp [h3, ha])]
  rfl

/-- The port once its LINK_PARAM is out, and what has gone out. -/
theorem paramSent_port (s : State) (p : Nat) :
    portOf (paramSent s p) p = { portOf s p with lpSent := true, outSlots := (portOf (paramSent s p) p).outSlots }
    ∧ (∀ q, q ≠ p → portOf (paramSent s p) q = portOf s q)
    ∧ (paramSent s p).links.router = s.links.router
    ∧ (paramSent s p).links.out = s.links.out ++ (if (portOf s p).lpSent then [] else
        [(p, lowestModule (portOf s p), mkPkt 0 (chipId s) 0 0 false 0x0B 0 [linkParamSlot s p])]) := by
  unfold paramSent
  split
  next h => exact ⟨by rw [← h], fun _ _ => rfl, rfl, by simp⟩
  next h =>
    exact ⟨by simp [sendOut, modPort, portOf, setPort],
      fun q hq => by simp [sendOut, modPort, portOf, setPort, mget_mset_other, hq], rfl, rfl⟩

theorem paramSent_frame (s : State) (p : Nat) : (paramSent s p).leaves = s.leaves ∧ (paramSent s p).mem = s.mem
    ∧ (paramSent s p).clk = s.clk ∧ (paramSent s p).log = s.log
    ∧ ∀ d, linkParamOk (paramSent s p) p d = linkParamOk s p d := by
  unfold paramSent
  split <;> exact ⟨rfl, rfl, rfl, rfl, fun _ => rfl⟩

/-- The newest entry depends on the log and the time alone. -/
theorem entered_congr {s v t : State} {code unit detail payload : Nat} (hl : v.log = s.log) (hc : v.clk = s.clk)
    (h : Entered v t code unit detail payload) : Entered s t code unit detail payload := by
  have hroll : (rollSecond v).log = (rollSecond s).log := by
    unfold rollSecond
    rw [hl, hc]
    split
    · exact hl
    · rfl
  simpa only [Entered, eventRoom, hroll, hc] using h

/-- A port in TRAINED with both LINK_PARAMs passed opens, and what it held stands at the ring router (R467). -/
theorem tryOpen_open (s : State) (p : Nat) (h3 : (portOf s p).state = 3) (ha : (portOf s p).armed = true)
    (hs : (portOf s p).lpSent = true) (hl : (portOf s p).lpOk = true) :
    let v := setPort s p { portOf s p with
      state := 4, buf := [], since := s.clk.us, viol := 0, violSec := 0, tookCtl := [], tookSync := [], tookAt := [], rr := [] }
    tryOpen s p = { v with links := { v.links with router := s.links.router ++ (portOf s p).buf.map (fun q => (p, q)) } } := by
  rw [tryOpen, if_pos (by simp [h3, ha, hs, hl])]
  exact foldl_intoRouter _ _ _

theorem tryOpen_closed (s : State) (p : Nat) (h : (portOf s p).state ≠ 3) : tryOpen s p = s := by
  rw [tryOpen, if_neg (by simp [h])]

/-- A partner's LINK_PARAM that meets R468 gives the port its credits, and opens it once its own is out. -/
theorem checkParam_opens (s : State) (p : Nat) (q : SPkt) (h3 : (portOf s p).state = 3) (ha : (portOf s p).armed = true)
    (hs : (portOf s p).lpSent = true) (hr : (portOf s p).lpRx = some q) (hok : linkParamOk s p (q.data.headD 0) = true) :
    let u := tryOpen (checkParam s p) p
    (portOf u p).state = 4 ∧ (portOf u p).lpOk = true ∧ (portOf u p).lpSent = true
      ∧ (∀ k, k < 10 → mget 0 (portOf u p).credits k = 16 * fld (q.data.headD 0).toNat (8 * k) 8)
      ∧ (portOf u p).since = s.clk.us
      ∧ u.links.router = s.links.router ++ (portOf s p).buf.map (fun w => (p, w)) ∧ (portOf u p).buf = []
      ∧ u.links.out = s.links.out ∧ (∀ r, r ≠ p → portOf u r = portOf s r)
      ∧ u.leaves = s.leaves ∧ u.mem = s.mem := by
  have hc : checkParam s p = setPort s p { portOf s p with
      lpRx := none, lpOk := true
      credits := (List.range 10).foldl (fun m k => mset 0 m k (16 * fld (q.data.headD 0).toNat (8 * k) 8)) [] } := by
    rw [checkParam]
    simp only [hr, hok, if_true]
  rw [hc, tryOpen_open _ _ (by simpa using h3) (by simpa using ha) (by simpa using hs) (by simp)]
  refine ⟨by simp [portOf, setPort], by simp [portOf, setPort], ?_, fun k hk => ?_, by simp [portOf, setPort], ?_,
    by simp [portOf, setPort], rfl, fun r hr => ?_, rfl, rfl⟩
  · simpa [portOf, setPort] using hs
  · simp [portOf, setPort, mget_foldl_mset, hk]
  · simp [portOf, setPort]
  · simp [portOf, setPort, mget_mset_other, hr]

/-- The port in MISMATCH: what it held and what it was to send are gone (R466, R468). -/
def mismatched (x : Port) : Port :=
  { x with state := 7, lpRx := none, buf := [], partials := [], dropping := [], outSlots := [] }

/-- A partner's LINK_PARAM that breaks R468 puts the port in MISMATCH, and its data slot in the log. -/
theorem checkParam_mismatches (s : State) (p : Nat) (q : SPkt) (hr : (portOf s p).lpRx = some q)
    (hbad : linkParamOk s p (q.data.headD 0) = false) :
    let u := tryOpen (checkParam s p) p
    (portOf u p).state = 7 ∧ (portOf u p).buf = [] ∧ (portOf u p).partials = [] ∧ (portOf u p).outSlots = []
      ∧ u.links.router = s.links.router ∧ Entered s u 0xA3 p 0 (q.data.headD 0).toNat
      ∧ (∀ r, r ≠ p → portOf u r = portOf s r) ∧ u.leaves = s.leaves ∧ u.mem = s.mem := by
  have hc : checkParam s p = raise (setPort s p (mismatched (portOf s p))) 0xA3 p 0 (q.data.headD 0).toNat := by
    rw [checkParam]
    simp only [hr, hbad, Bool.false_eq_true, if_false]
    rfl
  have hp (r : Nat) : portOf (checkParam s p) r = portOf (setPort s p (mismatched (portOf s p))) r := by
    rw [hc]
    exact portOf_congr (congrArg Links.ports (raise_links _ _ _ _ _)) r
  rw [tryOpen_closed _ _ (by simp [hp, mismatched])]
  refine ⟨by simp [hp, mismatched], by simp [hp, mismatched], by simp [hp, mismatched], by simp [hp, mismatched], ?_, ?_, fun r hr => ?_, ?_, ?_⟩
  · rw [hc, raise_links]
    rfl
  · rw [hc]
    exact entered_congr (v := setPort s p _) rfl rfl (entered_raise _ _ _ _ _)
  · rw [hp, portOf_setPort_other _ _ _ _ hr]
  · rw [hc, raise_leaves, setPort_leaves]
  · rw [hc, raise_mem, setPort_mem]

theorem linkParamOpensPort : LinkParamOpensPort := by
  intro s p q hp hop hh hv h3 hl hr
  generalize hw : setPort s p { portOf s p with lpRx := some q } = w
  have he : exec (.linkParam p q) s = .next (armTrained w p) := by
    show execLinkParam p q s = _
    rw [execLinkParam, if_pos hp, receivePacket_linkParam s p q hop hh hv h3 hl hr, hw]
  have hwp : portOf w p = { portOf s p with lpRx := some q } := by rw [← hw, portOf_setPort]
  have hwo (r : Nat) (h : r ≠ p) : portOf w r = portOf s r := by rw [← hw, portOf_setPort_other _ _ _ _ h]
  refine ⟨fun ha => ⟨_, he, ?_⟩, fun ha hok => ⟨_, he, ?_⟩, fun ha hbad => ⟨_, he, ?_⟩⟩
  · exact armTrained_unarmed w p (by rw [hwp]; exact ha)
  all_goals
    rw [armTrained_armed _ _ (by rw [hwp]; exact h3) (by rw [hwp]; exact ha)]
    obtain ⟨port, others, router, out⟩ := paramSent_port w p
    obtain ⟨leaves, mem, clk, log, param⟩ := paramSent_frame w p
    rw [hwp] at port
  · obtain ⟨state, ok, sent, credits, since, routed, held, gone, other, leaves', mem'⟩ :=
      checkParam_opens (paramSent w p) p q (by rw [port]; exact h3) (by rw [port]; exact ha) (by rw [port]) (by rw [port])
        (by rw [param, ← hw]; exact hok)
    refine ⟨state, ok, sent, credits, ?_, ?_, held, ?_, fun r h => ?_, ?_, ?_⟩
    · rw [since, clk, ← hw]
      rfl
    · rw [routed, router, port, ← hw]
      rfl
    · rw [gone, out, hwp, ← hw]
      rfl
    · rw [other r h, others r h, hwo r h]
    · rw [leaves', leaves, ← hw]
      rfl
    · rw [mem', mem, ← hw]
      rfl
  · obtain ⟨state, held, partials, slots, routed, entered, other, leaves', mem'⟩ :=
      checkParam_mismatches (paramSent w p) p q (by rw [port]) (by rw [param, ← hw]; exact hbad)
    refine ⟨state, held, partials, slots, ?_, ?_, fun r h => ?_, ?_, ?_⟩
    · rw [routed, router, ← hw]
      rfl
    · exact entered_congr (log.trans (by rw [← hw]; rfl)) (clk.trans (by rw [← hw]; rfl)) entered
    · rw [other r h, others r h, hwo r h]
    · rw [leaves', leaves, ← hw]
      rfl
    · rw [mem', mem, ← hw]
      rfl

/-- Settles O28: each event of a port's training goes through its own lemma, and a LINK_PARAM through the check that it meets
once the port is armed. -/
theorem portTrainingAndOpening : Obligations.PortTrainingAndOpening := ⟨linkTrainingResults, linkParamOpensPort⟩

end Sys2Proof.Machine
end

section
/-! PROOFS, O44: the frame. What a canopy packet at one leaf leaves as it was, and what a broadcast does at
one leaf (R308, R311). -/
namespace Sys2Proof.Machine

/-! ### What a packet at one leaf leaves as it was -/

/-- What no packet changes at a leaf: fences and shape, memory, the number of loads, and the messages already sent. -/
structure CanopyFrame (s t : State) : Prop where
  boot : t.boot = s.boot
  mem : t.mem = s.mem
  grafts : t.graft.grafts = s.graft.grafts
  msgs : ∀ m ∈ s.net.msgs, m ∈ t.net.msgs

/-- Of the leaves at most leaf `l` has changed. -/
structure AtLeaf (l : Nat) (s t : State) : Prop extends CanopyFrame s t where
  others : ∀ k, k ≠ l → leafOf t k = leafOf s k

/-- Leaf `l` has not changed. -/
structure Away (l : Nat) (s t : State) : Prop extends CanopyFrame s t where
  same : leafOf t l = leafOf s l

section
variable {s t u : State} {l : Nat}

theorem CanopyFrame.refl (s : State) : CanopyFrame s s := ⟨rfl, rfl, rfl, fun _ h => h⟩

theorem CanopyFrame.trans (h : CanopyFrame s t) (k : CanopyFrame t u) : CanopyFrame s u :=
  ⟨k.boot.trans h.boot, k.mem.trans h.mem, k.grafts.trans h.grafts, fun m hm => k.msgs m (h.msgs m hm)⟩

theorem AtLeaf.refl (l : Nat) (s : State) : AtLeaf l s s := ⟨.refl s, fun _ _ => rfl⟩

theorem AtLeaf.trans (h : AtLeaf l s t) (k : AtLeaf l t u) : AtLeaf l s u :=
  ⟨h.toCanopyFrame.trans k.toCanopyFrame, fun n hn => (k.others n hn).trans (h.others n hn)⟩

theorem Away.refl (l : Nat) (s : State) : Away l s s := ⟨.refl s, rfl⟩

theorem Away.trans (h : Away l s t) (k : Away l t u) : Away l s u :=
  ⟨h.toCanopyFrame.trans k.toCanopyFrame, k.same.trans h.same⟩

theorem AtLeaf.away {k : Nat} (h : AtLeaf k s t) (hk : l ≠ k) : Away l s t := ⟨h.toCanopyFrame, h.others l hk⟩

@[simp] theorem leafOf_raise (s : State) (c u d p k : Nat) : leafOf (raise s c u d p) k = leafOf s k := by
  rw [leafOf, raise_leaves, leafOf]

theorem AtLeaf.setLeaf (h : AtLeaf l s t) (x : Leaf) : AtLeaf l s (setLeaf t l x) :=
  h.trans ⟨⟨rfl, rfl, rfl, fun _ hm => hm⟩, fun k hk => leafOf_setLeaf_other t l k x hk⟩

theorem AtLeaf.modLeaf (h : AtLeaf l s t) (f : Leaf → Leaf) : AtLeaf l s (modLeaf t l f) := h.setLeaf _

theorem AtLeaf.raise (h : AtLeaf l s t) (code unit detail payload : Nat) : AtLeaf l s (raise t code unit detail payload) :=
  h.trans ⟨⟨by simp, by simp, by simp, fun m hm => by simpa using hm⟩, fun k _ => by simp⟩

theorem AtLeaf.bumpNet (h : AtLeaf l s t) (k n : Nat) : AtLeaf l s (bumpNet t l k n) := h.modLeaf _

theorem AtLeaf.bumpLeaf (h : AtLeaf l s t) (k n : Nat) : AtLeaf l s (bumpLeaf t l k n) := h.modLeaf _

theorem AtLeaf.withLoad (h : AtLeaf l s t) (g : Option GraftLoad) :
    AtLeaf l s { t with graft := { t.graft with load := g } } :=
  h.trans ⟨⟨rfl, rfl, rfl, fun _ hm => hm⟩, fun _ _ => rfl⟩

theorem AtLeaf.lcInc (h : AtLeaf l s t) (k n : Nat) : AtLeaf l s (lcInc t l k n) := by
  unfold Machine.lcInc
  simp only
  split
  · exact (h.modLeaf _).raise _ _ _ _
  · exact h.modLeaf _

theorem AtLeaf.countPacket (h : AtLeaf l s t) (p : Canopy) : AtLeaf l s (countPacket t l p) := by
  unfold Machine.countPacket
  simp only
  split
  · exact h.lcInc _ _
  · exact h

theorem AtLeaf.acceptPkt (h : AtLeaf l s t) (p : Canopy) (f : Leaf → Leaf) : AtLeaf l s (acceptPkt t l p f) := by
  unfold Machine.acceptPkt noteTarget
  exact ((h.modLeaf f).countPacket p).modLeaf _

theorem AtLeaf.spadAt (h : AtLeaf l s t) (p : Canopy) : AtLeaf l s (spadAt t l p) := by
  unfold Machine.spadAt
  simp only
  split
  · exact h.bumpNet _ _
  split
  · exact h.bumpNet _ _
  split
  · exact (h.modLeaf _).bumpLeaf _ _
  · exact (h.modLeaf _).modLeaf _

theorem AtLeaf.istoreAt (h : AtLeaf l s t) (p : Canopy) : AtLeaf l s (istoreAt t l p) := by
  unfold Machine.istoreAt
  split
  · exact h.bumpNet _ _
  split
  · exact h.bumpNet _ _
  · exact h.acceptPkt _ _

theorem AtLeaf.checkSlot (h : AtLeaf l s t) : AtLeaf l s (checkSlot t l) := by
  unfold Machine.checkSlot
  simp only
  split
  · exact ((h.setLeaf _).bumpNet _ _).raise _ _ _ _
  · exact h.setLeaf _

theorem AtLeaf.switchNextAt (h : AtLeaf l s t) (p : Canopy) : AtLeaf l s (switchNextAt t l p) := by
  unfold Machine.switchNextAt
  simp only
  split
  · exact h.bumpNet _ _
  split
  · exact h.bumpNet _ _
  split
  · exact (h.setLeaf _).checkSlot.acceptPkt _ _
  · exact (h.setLeaf _).acceptPkt _ _

theorem AtLeaf.leafRecordAt (h : AtLeaf l s t) (p : Canopy) : AtLeaf l s (leafRecordAt t l p) := by
  unfold Machine.leafRecordAt
  simp only
  split
  · exact h.bumpNet _ _
  split
  · exact h.bumpNet _ _
  · exact h.acceptPkt _ _

theorem AtLeaf.report (h : AtLeaf l s t) (seq : Nat) (image : BitVec 16) : AtLeaf l s (report t l seq image) :=
  (h.raise _ _ _ _).withLoad _

theorem AtLeaf.launchInc (h : AtLeaf l s t) (m : IncMsg) : AtLeaf l s (launch t (.inc m)) :=
  h.trans ⟨⟨rfl, rfl, rfl, fun _ hm => List.mem_append_left _ hm⟩, fun _ _ => rfl⟩

theorem AtLeaf.endAt (h : AtLeaf l s t) (p : Canopy) : AtLeaf l s (endAt t l p) := by
  unfold Machine.endAt
  simp only
  split
  · exact List.foldlRecOn _ _ h (fun _ hb _ _ => hb.report _ _)
  split
  · exact h
  split
  · exact h.withLoad _
  split
  · exact ((h.setLeaf _).withLoad _).launchInc _
  · exact (h.modLeaf _).report _ _

/-- A packet at leaf `l` changes no other leaf. -/
theorem atLeaf_leafPacket (s : State) (kind : Nat) (p : Canopy) (forced : Bool) (l : Nat) :
    AtLeaf l s (leafPacket s kind p forced l) := by
  have h := AtLeaf.refl l s
  unfold leafPacket
  simp only
  split
  · exact h
  split
  · exact ((h.modLeaf _).modLeaf _).bumpNet _ _
  split
  · split
    · exact h.modLeaf _
    split
    · exact (h.modLeaf _).bumpNet _ _
    split
    · exact ((h.modLeaf _).endAt _).lcInc _ _
    · exact (h.modLeaf _).endAt _
  split
  · exact h.modLeaf _
  split
  · exact (h.modLeaf _).modLeaf _
  have ht := (h.modLeaf (fun x => adoptImage x p.image)).modLeaf (fun x => setMine x p.seq.toNat)
  split
  · exact ht.bumpNet _ _
  split
  · exact ht.spadAt _
  · exact ht.istoreAt _
  · exact ht.switchNextAt _
  · exact ht.leafRecordAt _
  · exact ht.bumpNet _ _

end

/-! ### A broadcast at one leaf -/

theorem away_broadcastTo (l : Nat) (ks : List Nat) (h : l ∉ ks) (s : State) (kind : Nat) (p : Canopy) :
    Away l s (ks.foldl (fun t k => leafPacket t kind p false k) s) :=
  List.foldlRecOn ks _ (Away.refl l s) (fun _ hb k hk =>
    hb.trans ((atLeaf_leafPacket _ kind p false k).away (fun e => h (e ▸ hk))))

theorem mem_allLeaves (s : State) (l : Nat) (h : leafOk s l = true) : l ∈ allLeaves s := by
  have hl : l < 2304 := by simp only [leafOk, Bool.and_eq_true, decide_eq_true_eq] at h; exact h.1
  exact List.mem_filter.mpr ⟨List.mem_range.mpr hl, h⟩

/-- A broadcast reaches a leaf of the shape once, and what it does at the others leaves that one as it was (R308, R311). -/
theorem broadcast_at (s : State) (kind : BitVec 4) (p : Canopy) (l : Nat) (hrun : crownRuns s = true)
    (ha : hasArrived s kind p = true) (hok : leafOk s l = true) :
    ∃ u, Away l s u ∧ Away l (leafPacket u kind.toNat p false l) (broadcast s kind p) := by
  obtain ⟨as, bs, hsplit⟩ := List.append_of_mem (mem_allLeaves s l hok)
  have hnodup : (as ++ l :: bs).Nodup := hsplit ▸ List.nodup_range.filter _
  have has : l ∉ as := fun h => (List.nodup_append.mp hnodup).2.2 l h l (List.mem_cons_self) rfl
  have hbs : l ∉ bs := (List.nodup_cons.mp (List.nodup_append.mp hnodup).2.1).1
  have hb : broadcast s kind p
      = (allLeaves s).foldl (fun t k => leafPacket t kind.toNat p false k) (takeBus s none kind p) := by
    rw [broadcast, if_pos (by simp [hrun, ha])]
  rw [hb, hsplit, List.foldl_append, List.foldl_cons]
  have hbus : Away l s (takeBus s none kind p) := ⟨⟨rfl, rfl, rfl, fun _ hm => hm⟩, rfl⟩
  exact ⟨_, hbus.trans (away_broadcastTo l as has _ _ p), away_broadcastTo l bs hbs _ _ p⟩

end Sys2Proof.Machine
end

section
/-! PROOFS, O44: acceptance. A packet that a leaf takes as its target for the first time, and its count (R308 to R316, R593). -/
namespace Sys2Proof.Machine

/-- The leaf is in no fence, the packet came whole, its SEQ is new to the leaf, and it is a target or need not be. -/
structure TakesPacket (s : State) (p : Canopy) (l : Nat) (forced : Bool) : Prop where
  fence : leafFenced s l = false
  crc : crcOk p = true
  whole : p.hurt.contains l = false
  fresh : (leafOf s l).image.id = some p.image → mget false (leafOf s l).image.got p.seq.toNat = false
  target : (forced || inTarget p l) = true

/-- The leaf once it has noted the packet's image and SEQ. -/
def received (p : Canopy) (x : Leaf) : Leaf := setMine (adoptImage x p.image) p.seq.toNat

section
variable (p : Canopy) (x : Leaf)

theorem adoptImage_rest (id : BitVec 16) : adoptImage x id = { x with image := (adoptImage x id).image } := by
  unfold adoptImage
  split <;> rfl

theorem received_rest : received p x = { x with image := (received p x).image } := by
  rw [received, adoptImage_rest]
  rfl

@[simp] theorem received_landing : (received p x).landing = x.landing := by rw [received_rest]
@[simp] theorem received_istore : (received p x).istore = x.istore := by rw [received_rest]
@[simp] theorem received_sw : (received p x).sw = x.sw := by rw [received_rest]
@[simp] theorem received_run : (received p x).run = x.run := by rw [received_rest]
@[simp] theorem received_lcs : (received p x).lcs = x.lcs := by rw [received_rest]
@[simp] theorem received_cache : (received p x).cache = x.cache := by rw [received_rest]
@[simp] theorem received_counters : (received p x).counters = x.counters := by rw [received_rest]
@[simp] theorem received_netCounters : (received p x).netCounters = x.netCounters := by rw [received_rest]

@[simp] theorem received_got : mget false (received p x).image.got p.seq.toNat = true := by
  simp [received, setMine]

/-- A leaf that takes up another image has counted none of its packets (R315, R593). -/
theorem received_counted : mget false (received p x).image.counted p.seq.toNat
    = (decide (x.image.id = some p.image) && mget false x.image.counted p.seq.toNat) := by
  unfold received adoptImage
  split
  next h => simp [setMine, h]
  next h => simp [setMine, h, mget]

theorem adoptImage_got (h : x.image.id = some p.image → mget false x.image.got p.seq.toNat = false) :
    mget false (adoptImage x p.image).image.got p.seq.toNat = false := by
  unfold adoptImage
  split
  next hid => exact h hid
  · rfl

end

/-- The state once leaf `l` has noted the packet. -/
def noted (s : State) (l : Nat) (p : Canopy) : State :=
  modLeaf (modLeaf s l (fun x => adoptImage x p.image)) l (fun x => setMine x p.seq.toNat)

@[simp] theorem leafOf_noted (s : State) (l : Nat) (p : Canopy) : leafOf (noted s l p) l = received p (leafOf s l) := by
  simp [noted, received]

theorem atLeaf_noted (s : State) (l : Nat) (p : Canopy) : AtLeaf l s (noted s l p) :=
  ((AtLeaf.refl l s).modLeaf _).modLeaf _

/-- What a packet of each kind but GROUP and END writes at a leaf that has noted it. -/
def writePacket (t : State) (l : Nat) (p : Canopy) : Nat → State
  | 0 => spadAt t l p
  | 1 => istoreAt t l p
  | 2 => switchNextAt t l p
  | _ => leafRecordAt t l p

section
variable {s t u : State} {p : Canopy} {l : Nat} {forced : Bool}

/-- A new packet for the leaf is noted; then it is written, or for a nonzero reserved field counted and discarded (R310). -/
theorem leafPacket_new (h : TakesPacket s p l forced) (kind : Nat) (hk : kind < 4) : leafPacket s kind p forced l
    = if p.rsv then bumpNet (noted s l p) l 8 1 else writePacket (noted s l p) l p kind := by
  have hnew : mget false (leafOf (modLeaf s l (fun x => adoptImage x p.image)) l).image.got p.seq.toNat = false := by
    rw [leafOf_modLeaf]
    exact adoptImage_got p _ h.fresh
  have h5 : kind ≠ 5 := by omega
  have h4 : kind ≠ 4 := by omega
  unfold leafPacket
  simp only [h.fence, h.crc, h.whole, h.target, hnew, h4, h5, Bool.false_eq_true, Bool.not_true, Bool.or_self, decide_false,
    if_false]
  split
  · rfl
  match kind, hk with
  | 0, _ => rfl
  | 1, _ => rfl
  | 2, _ => rfl
  | 3, _ => rfl

/-- A damaged packet is counted, and its SEQ is missing from then on; the leaf keeps all else (R316, R593). -/
theorem leafPacket_damaged (hf : leafFenced s l = false) (hd : crcOk p = false ∨ p.hurt.contains l = true) (kind : Nat) :
    leafPacket s kind p forced l
      = bumpNet (modLeaf (modLeaf s l (fun x => adoptImage x p.image)) l (fun x => setGot x p.seq.toNat false)) l 7 1 := by
  have hbad : (!crcOk p || p.hurt.contains l) = true := by simpa using hd
  unfold leafPacket
  simp only [hf, hbad, Bool.false_eq_true, if_false, if_true]

theorem takesPacket_of_freshFor (h : freshFor s p l = true) :
    leafOk s l = true ∧ p.rsv = false ∧ TakesPacket s p l false := by
  simp only [freshFor, Bool.and_eq_true, Bool.not_eq_true', Bool.and_eq_false_iff, decide_eq_false_iff_not] at h
  obtain ⟨⟨⟨⟨⟨⟨hok, hf⟩, hc⟩, hh⟩, hr⟩, ht⟩, hn⟩ := h
  refine ⟨hok, hr, hf, hc, hh, fun hid => ?_, ht⟩
  rcases hn with hn | hn
  · exact absurd hid hn
  · exact hn

theorem TakesPacket.away (h : TakesPacket s p l forced) (k : Away l s t) : TakesPacket t p l forced :=
  ⟨by rw [leafFenced, k.boot]; exact h.fence, h.crc, h.whole, by rw [k.same]; exact h.fresh, h.target⟩

/-! ### Counting a packet (R315) -/

theorem leafOf_lcInc (s : State) (l k n : Nat) : leafOf (lcInc s l k n) l = { leafOf s l with
    lcs := mset 0 (leafOf s l).lcs k (incCounter (lcGet s l k) n).1
    lcOld := mset none (leafOf s l).lcOld k (some (lcSeen (leafOf s l) k)) } := by
  unfold lcInc
  simp only
  split <;> simp

/-- What a packet does to a leaf's counters: its own advances by one, unless the SEQ was counted before (R315). -/
def CountsOnce (p : Canopy) (counted : Bool) (before after : SMap DWord) : Prop :=
  ∀ k, mget 0 after k = if p.cntEn = true ∧ counted = false ∧ k = p.cnt.toNat then (incCounter (mget 0 before k) 1).1
    else mget 0 before k

/-- The packet's counter advances once for each SEQ, and the leaf keeps all else. -/
theorem countPacket_leaf (s : State) (l : Nat) (p : Canopy) : ∃ lcs old,
    leafOf (countPacket s l p) l = { leafOf s l with lcs := lcs, lcOld := old }
      ∧ CountsOnce p (mget false (leafOf s l).image.counted p.seq.toNat) (leafOf s l).lcs lcs := by
  unfold countPacket
  by_cases hc : (p.cntEn && !mget false (leafOf s l).image.counted p.seq.toNat) = true
  · refine ⟨_, _, by simp only [hc, if_true]; exact leafOf_lcInc s l _ 1, fun k => ?_⟩
    simp only [Bool.and_eq_true, Bool.not_eq_true'] at hc
    rw [mget_mset]
    by_cases hk : k = p.cnt.toNat
    · subst hk
      simp [hc, lcGet]
    · simp [hk]
  · refine ⟨(leafOf s l).lcs, (leafOf s l).lcOld, by simp only [hc]; rfl, fun k => ?_⟩
    rw [if_neg (fun h => hc (by simp [h.1, h.2.1]))]

/-- An accepted packet: what it writes, with its counter and the note that the leaf has accepted the SEQ. -/
theorem acceptPkt_leaf (s : State) (l : Nat) (p : Canopy) (f : Leaf → Leaf) : ∃ lcs old,
    leafOf (acceptPkt s l p f) l = { f (leafOf s l) with
        lcs := lcs, lcOld := old
        image := { (f (leafOf s l)).image with counted := mset false (f (leafOf s l)).image.counted p.seq.toNat true } }
      ∧ CountsOnce p (mget false (f (leafOf s l)).image.counted p.seq.toNat) (f (leafOf s l)).lcs lcs := by
  obtain ⟨lcs, old, hleaf, hcount⟩ := countPacket_leaf (modLeaf s l f) l p
  rw [leafOf_modLeaf] at hleaf hcount
  refine ⟨lcs, old, ?_, hcount⟩
  rw [acceptPkt, noteTarget, leafOf_modLeaf, hleaf]

/-- At a leaf that has noted the packet, the count is the one that the leaf's state before it decides. -/
theorem countsOnce_received {x : Leaf} {lcs : SMap DWord}
    (h : CountsOnce p (mget false (received p x).image.counted p.seq.toNat) (received p x).lcs lcs) :
    CountsOnce p (decide (x.image.id = some p.image) && mget false x.image.counted p.seq.toNat) x.lcs lcs := by
  rwa [received_counted, received_lcs] at h

end

end Sys2Proof.Machine
end

section
/-! PROOFS, O44: SPAD and ISTORE (R128, R312 to R314). -/
namespace Sys2Proof.Machine

/-- What a broadcast does at a leaf that takes it: at some state that agrees there with the one before it, the leaf notes the
packet and writes it, or discards it for a reserved field (R310). -/
theorem broadcast_taken (s : State) (kind : BitVec 4) (p : Canopy) (l : Nat) (hrun : crownRuns s = true)
    (ha : hasArrived s kind p = true) (hok : leafOk s l = true) (h : TakesPacket s p l false) (hk : kind.toNat < 4) :
    ∃ u, Away l s u ∧ SameMem s (broadcast s kind p)
      ∧ leafOf (broadcast s kind p) l
        = leafOf (if p.rsv then bumpNet (noted u l p) l 8 1 else writePacket (noted u l p) l p kind.toNat) l := by
  obtain ⟨u, before, after⟩ := broadcast_at s kind p l hrun ha hok
  refine ⟨u, before, fun a => ?_, ?_⟩
  · rw [after.mem, (atLeaf_leafPacket u _ p false l).mem, before.mem]
  · rw [after.same, leafPacket_new (h.away before) _ hk]

/-- The same for a packet whose reserved fields are zero. -/
theorem broadcast_written (s : State) (kind : BitVec 4) (p : Canopy) (l : Nat) (hrun : crownRuns s = true)
    (ha : hasArrived s kind p = true) (h : freshFor s p l = true) (hk : kind.toNat < 4) :
    ∃ v, leafOf v l = received p (leafOf s l) ∧ v.boot = s.boot ∧ v.graft.grafts = s.graft.grafts
      ∧ SameMem s (broadcast s kind p) ∧ leafOf (broadcast s kind p) l = leafOf (writePacket v l p kind.toNat) l := by
  obtain ⟨hok, hr, htakes⟩ := takesPacket_of_freshFor h
  obtain ⟨u, before, hmem, hleaf⟩ := broadcast_taken s kind p l hrun ha hok htakes hk
  have hv := (atLeaf_noted u l p)
  refine ⟨noted u l p, by rw [leafOf_noted, before.same], hv.boot.trans before.boot, hv.grafts.trans before.grafts, hmem, ?_⟩
  rw [hleaf, hr]
  rfl

/-! ### SPAD (R128, R312, R313) -/

section
variable {v : State} {l : Nat} {p : Canopy}

/-- The rows that SPAD lands, the last one with the counter of a packet not yet counted (R128, R315). -/
def landedRows (p : Canopy) (counted : Bool) : List Landing :=
  (List.range (p.payload.length / 2)).map (fun i => {
    row := p.offset.toNat + i, data := ((payWords p).drop (16 * i)).take 16
    cnt := if i + 1 = p.payload.length / 2 ∧ p.cntEn = true ∧ counted = false then some p.cnt.toNat else none })

/-- `spadAt` asks for the last row first and then for the count; `landedRows` asks both at once. -/
theorem landingCounter_nested {α : Type} (last : Prop) [Decidable last] (b c : Bool) (x : Option α) :
    (if last then if b && !c then x else none else none) = if last ∧ b = true ∧ c = false then x else none := by
  by_cases h : last
  · rw [if_pos h]
    cases b <;> cases c <;> simp [h]
  · rw [if_neg h, if_neg (fun both => h both.1)]

/-- The leaf once the packet's rows stand in its landing buffer. -/
def landed (p : Canopy) (y : Leaf) : Leaf :=
  { y with landing := y.landing ++ landedRows p (mget false y.image.counted p.seq.toNat) }

/-- SPAD of the right shape, inside the scratchpad and outside a running leaf's row 0: the landing buffer decides (R128). -/
theorem spadAt_shaped (heven : p.payload.length % 2 = 0) (hfit : p.offset.toNat + p.payload.length / 2 ≤ 4096)
    (hwin : p.offset.toNat ≠ 0 ∨ (leafOf v l).run ≠ .running) :
    spadAt v l p = if (leafOf v l).landing.length + p.payload.length / 2 > 8 then
        bumpLeaf (modLeaf v l (fun y => setGot y p.seq.toNat false)) l 10 1
      else noteTarget (modLeaf v l (landed p)) l p := by
  have hshape : (decide (p.payload.length % 2 ≠ 0) || decide (p.offset.toNat + p.payload.length / 2 > 4096)) = false := by
    simp [heven, hfit]
  have hrow : (decide (p.offset = 0) && decide ((leafOf v l).run = .running)) = false := by
    rcases hwin with h | h
    · have : p.offset ≠ 0 := fun e => h (by rw [e]; rfl)
      rw [decide_eq_false this, Bool.false_and]
    · rw [decide_eq_false h, Bool.and_false]
  unfold spadAt
  simp only [hshape, hrow, Bool.false_eq_true, if_false, landingCounter_nested]
  rfl

end

theorem spadWritten (s : State) (p : Canopy) (l : Nat) (hrun : crownRuns s = true) (hfresh : freshFor s p l = true)
    (ha : hasArrived s 0 p = true) (heven : p.payload.length % 2 = 0) (hfit : p.offset.toNat + p.payload.length / 2 ≤ 4096)
    (hwin : p.offset.toNat ≠ 0 ∨ (leafOf s l).run ≠ .running) :
    (8 < (leafOf s l).landing.length + p.payload.length / 2 → Completes (.spad p) s (fun t => SameMem s t
        ∧ (leafOf t l).landing = (leafOf s l).landing ∧ mget false (leafOf t l).image.got p.seq.toNat = false
        ∧ mget 0 (leafOf t l).counters 10 = sat32 (mget 0 (leafOf s l).counters 10 + 1)))
      ∧ ((leafOf s l).landing.length + p.payload.length / 2 ≤ 8 → Completes (.spad p) s (fun t => SameMem s t
        ∧ (leafOf t l).landing = (leafOf s l).landing ++ landedRows p (countedBefore s p l))) := by
  obtain ⟨v, hv, -, -, hmem, hleaf⟩ := broadcast_written s 0 p l hrun ha hfresh (by decide)
  have hshaped := spadAt_shaped (v := v) (l := l) heven hfit (by rw [hv, received_run]; exact hwin)
  rw [hv, received_landing] at hshaped
  refine ⟨fun hfull => ⟨_, rfl, hmem, ?_⟩, fun hroom => ⟨_, rfl, hmem, ?_⟩⟩
  · have hl : leafOf (broadcast s 0 p) l = leafOf (bumpLeaf (modLeaf v l (fun y => setGot y p.seq.toNat false)) l 10 1) l := by
      rw [hleaf]
      exact congrArg (leafOf · l) (hshaped.trans (if_pos hfull))
    rw [hl]
    simp [bumpLeaf, setGot, hv, mmod]
  · have hl : leafOf (broadcast s 0 p) l = leafOf (noteTarget (modLeaf v l (landed p)) l p) l := by
      rw [hleaf]
      exact congrArg (leafOf · l) (hshaped.trans (if_neg (by omega)))
    rw [hl]
    simp only [noteTarget, leafOf_modLeaf, hv, landed, received_landing, received_counted]
    rfl

/-! ### ISTORE (R313, R314) -/

theorem length_payWords (p : Canopy) : (payWords p).length = 8 * p.payload.length := by
  simp only [payWords, toWords, List.length_flatMap, List.length_map, List.length_range, List.map_const', List.sum_replicate_nat,
    Nat.mul_comm]

/-- A map written from key `o` on with the elements of a list. -/
theorem mget_foldl_zipIdx {α : Type} [DecidableEq α] (d : α) (o n : Nat) (ws : List α) (m : SMap α) (k : Nat) :
    mget d ((ws.zipIdx n).foldl (fun m w => mset d m (o + w.2) w.1) m) k
      = if o + n ≤ k ∧ k < o + n + ws.length then ws.getD (k - (o + n)) d else mget d m k := by
  induction ws generalizing n m with
  | nil =>
    rw [if_neg (by simp)]
    rfl
  | cons w r ih =>
    rw [List.zipIdx_cons, List.foldl_cons, ih, mget_mset]
    rcases Nat.lt_trichotomy k (o + n) with h | h | h
    · rw [if_neg (by omega), if_neg (by omega), if_neg (by omega)]
    · rw [if_neg (by omega), if_pos h, if_pos (by rw [List.length_cons]; omega), h, Nat.sub_self, List.getD_cons_zero]
    · obtain ⟨j, hj⟩ : ∃ j, k = o + n + 1 + j := ⟨k - (o + n + 1), by omega⟩
      subst hj
      have e1 : o + n + 1 + j - (o + n) = j + 1 := by omega
      have e2 : o + n + 1 + j - (o + (n + 1)) = j := by omega
      simp only [e1, e2, List.getD_cons_succ, List.length_cons]
      by_cases hr : j < r.length
      · rw [if_pos (by omega), if_pos (by omega)]
      · rw [if_neg (by omega), if_neg (by omega), if_neg (by omega)]

/-- ISTORE inside the instruction store of a leaf that does not run. -/
theorem istoreAt_leaf {v : State} {l : Nat} {p : Canopy} (hfit : p.offset.toNat + 8 * p.payload.length ≤ 4096)
    (hrun : (leafOf v l).run ≠ .running) :
    (∀ k, mget 0 (leafOf (istoreAt v l p) l).istore k
        = if p.offset.toNat ≤ k ∧ k < p.offset.toNat + 8 * p.payload.length then (payWords p).getD (k - p.offset.toNat) 0
          else mget 0 (leafOf v l).istore k)
      ∧ CountsOnce p (mget false (leafOf v l).image.counted p.seq.toNat) (leafOf v l).lcs (leafOf (istoreAt v l p) l).lcs := by
  rw [istoreAt, if_neg (by omega), if_neg hrun]
  obtain ⟨lcs, old, hleaf, hcount⟩ := acceptPkt_leaf v l p (fun x =>
    { x with istore := (payWords p).zipIdx.foldl (fun m w => mset 0 m (p.offset.toNat + w.2) w.1) x.istore })
  rw [hleaf]
  refine ⟨fun k => ?_, hcount⟩
  have h := mget_foldl_zipIdx 0 p.offset.toNat 0 (payWords p) (leafOf v l).istore k
  rwa [Nat.add_zero, length_payWords] at h

theorem istoreWritten (s : State) (p : Canopy) (l : Nat) (hrun : crownRuns s = true) (hfresh : freshFor s p l = true)
    (ha : hasArrived s 1 p = true) (hfit : p.offset.toNat + 8 * p.payload.length ≤ 4096) (hr : (leafOf s l).run ≠ .running) :
    Completes (.istore p) s (fun t => CountsOnce p (countedBefore s p l) (leafOf s l).lcs (leafOf t l).lcs ∧ SameMem s t
      ∧ ∀ k, mget 0 (leafOf t l).istore k
        = if p.offset.toNat ≤ k ∧ k < p.offset.toNat + 8 * p.payload.length then (payWords p).getD (k - p.offset.toNat) 0
          else mget 0 (leafOf s l).istore k) := by
  obtain ⟨v, hv, -, -, hmem, hleaf⟩ := broadcast_written s 1 p l hrun ha hfresh (by decide)
  obtain ⟨hwords, hcount⟩ := istoreAt_leaf (v := v) (l := l) hfit (by rw [hv, received_run]; exact hr)
  rw [hv] at hwords hcount
  rw [received_istore] at hwords
  refine ⟨_, rfl, ?_, hmem, ?_⟩
  · rw [hleaf]
    exact countsOnce_received hcount
  · rw [hleaf]
    exact hwords

end Sys2Proof.Machine
end

section
/-! PROOFS, O44: SWITCH_NEXT, LEAF_RECORD, packets that are discarded, and GROUP (R275, R285 to R290, R310, R316, R590). -/
namespace Sys2Proof.Machine

/-! ### SWITCH_NEXT (R275, R285, R319, R321) -/

theorem neighbour_congr {s v : State} (h : v.boot = s.boot) (l d : Nat) : neighbour v l d = neighbour s l d := by
  have hok (m : Nat) : leafOk v m = leafOk s m := by rw [leafOk, h, leafOk]
  simp only [neighbour, hok]

/-- The next slot after the words of a packet have landed in it. -/
def slotLanded (p : Canopy) (x : Slot) : Slot :=
  (payDwords p).zipIdx.foldl (fun m w => slotWord m (p.offset.toNat + w.2) w.1) x

/-- The leaf with another next slot. -/
def withNext (x : Leaf) (n : Slot) : Leaf := { x with sw := { x.sw with nxt := n } }

/-- The next slot after its check: refused with VALID cleared, or frozen (R285). -/
def slotChecked (s : State) (l : Nat) (x : Leaf) : Slot :=
  if slotRefused s l x then { x.sw.nxt with hdr := x.sw.nxt.hdr &&& ~~~1 } else { x.sw.nxt with frozen := true }

/-- The slot check reads the leaf's switch and its cache's size, and the shape of the crown. -/
theorem slotChecked_congr {s v : State} {x y : Leaf} (h : v.boot = s.boot) (hw : y.sw = x.sw) (hc : y.cache = x.cache) (l : Nat) :
    slotChecked v l y = slotChecked s l x := by
  have hr : slotRefused v l y = slotRefused s l x := by simp only [slotRefused, neighbour_congr h, usableRows, hw, hc]
  rw [slotChecked, hr, hw, slotChecked]

theorem checkSlot_leaf (s : State) (l : Nat) : (leafOf (checkSlot s l) l).sw
      = { (leafOf s l).sw with nxt := slotChecked s l (leafOf s l) }
    ∧ (leafOf (checkSlot s l) l).lcs = (leafOf s l).lcs ∧ (leafOf (checkSlot s l) l).image = (leafOf s l).image := by
  unfold checkSlot slotChecked
  simp only
  split <;> simp [bumpNet]

/-- A next slot written, with the check that a header with VALID = 1 brings (R285). -/
def nextWritten (v : State) (l : Nat) (p : Canopy) (n : Slot) : State :=
  if p.offset = 0 && slotValid n then checkSlot (setLeaf v l (withNext (leafOf v l) n)) l
  else setLeaf v l (withNext (leafOf v l) n)

theorem nextWritten_leaf (v : State) (l : Nat) (p : Canopy) (n : Slot) :
    (leafOf (nextWritten v l p n) l).sw = { (leafOf v l).sw with
        nxt := if p.offset.toNat = 0 ∧ slotValid n = true then slotChecked v l (withNext (leafOf v l) n) else n }
      ∧ (leafOf (nextWritten v l p n) l).lcs = (leafOf v l).lcs
      ∧ (leafOf (nextWritten v l p n) l).image = (leafOf v l).image := by
  have hzero : p.offset = 0 ↔ p.offset.toNat = 0 := ⟨fun h => by rw [h]; rfl, fun h => BitVec.eq_of_toNat_eq h⟩
  unfold nextWritten
  simp only [Bool.and_eq_true, decide_eq_true_eq, hzero]
  split
  · obtain ⟨hsw, hlcs, himage⟩ := checkSlot_leaf (setLeaf v l (withNext (leafOf v l) n)) l
    rw [leafOf_setLeaf] at hsw hlcs himage
    refine ⟨?_, hlcs, himage⟩
    rw [hsw, slotChecked_congr (s := v) rfl rfl rfl]
    rfl
  · rw [leafOf_setLeaf]
    exact ⟨rfl, rfl, rfl⟩

/-- SWITCH_NEXT inside a next slot that is not frozen: its words land, and a header with VALID = 1 has the slot checked. -/
theorem switchNextAt_leaf {v : State} {l : Nat} {p : Canopy} (hfit : p.offset.toNat * 8 + 32 * p.payload.length ≤ 0x1038)
    (hf : (leafOf v l).sw.nxt.frozen = false) :
    let n := slotLanded p (leafOf v l).sw.nxt
    let y := leafOf (switchNextAt v l p) l
    y.sw = { (leafOf v l).sw with
        nxt := if p.offset.toNat = 0 ∧ slotValid n = true then slotChecked v l (withNext (leafOf v l) n) else n }
      ∧ CountsOnce p (mget false (leafOf v l).image.counted p.seq.toNat) (leafOf v l).lcs y.lcs := by
  have hy : switchNextAt v l p = acceptPkt (nextWritten v l p (slotLanded p (leafOf v l).sw.nxt)) l p id := by
    rw [switchNextAt, if_neg (by omega), if_neg (by simp [hf])]
    rfl
  obtain ⟨hsw, hlcs, himage⟩ := nextWritten_leaf v l p (slotLanded p (leafOf v l).sw.nxt)
  obtain ⟨lcs, old, hleaf, hcount⟩ := acceptPkt_leaf (nextWritten v l p (slotLanded p (leafOf v l).sw.nxt)) l p id
  simp only [hy, hleaf]
  simp only [id, hlcs, himage] at hcount
  exact ⟨hsw, hcount⟩

theorem switchNextWritten (s : State) (p : Canopy) (l : Nat) (hrun : crownRuns s = true) (hfresh : freshFor s p l = true)
    (ha : hasArrived s 2 p = true) (hfit : p.offset.toNat * 8 + 32 * p.payload.length ≤ 0x1038)
    (hf : (leafOf s l).sw.nxt.frozen = false) :
    Completes (.switchNext p) s (fun t =>
      let x := leafOf s l
      let n := slotLanded p x.sw.nxt
      CountsOnce p (countedBefore s p l) (leafOf s l).lcs (leafOf t l).lcs ∧ SameMem s t ∧ (leafOf t l).sw.cur = x.sw.cur
        ∧ (leafOf t l).sw.nxt = (if p.offset.toNat = 0 ∧ slotValid n = true then slotChecked s l (withNext x n) else n)) := by
  obtain ⟨v, hv, hboot, -, hmem, hleaf⟩ := broadcast_written s 2 p l hrun ha hfresh (by decide)
  obtain ⟨hsw, hcount⟩ := switchNextAt_leaf (v := v) (l := l) hfit (by rw [hv, received_sw]; exact hf)
  have hnext (n : Slot) : slotChecked v l (withNext (received p (leafOf s l)) n) = slotChecked s l (withNext (leafOf s l) n) :=
    slotChecked_congr (x := withNext (leafOf s l) n) (y := withNext (received p (leafOf s l)) n) hboot (by simp [withNext])
      (received_cache p (leafOf s l)) l
  rw [hv] at hsw hcount
  rw [received_sw, hnext] at hsw
  refine ⟨_, rfl, ?_, hmem, ?_, ?_⟩
  · rw [hleaf]
    exact countsOnce_received hcount
  · have hcur := congrArg Switch.cur hsw
    rw [hleaf]
    exact hcur
  · have hnxt := congrArg Switch.nxt hsw
    rw [hleaf]
    exact hnxt

/-! ### LEAF_RECORD (R111, R590) -/

/-- A leaf with a new record: not started, and in the image with nothing complete (R590). -/
def recorded (s : State) (p : Canopy) (z : Leaf) : Leaf :=
  let y := if z.sw.held then idlePlanes { z with sw := { z.sw with held := false } } else z
  { y with
    run := .notStarted
    image := { y.image with record := some (recOf p), recId := p.image, load := s.graft.grafts, complete := false, start := none,
                            waitGo := false } }

theorem recorded_counts (s : State) (p : Canopy) (z : Leaf) :
    (recorded s p z).image.counted = z.image.counted ∧ (recorded s p z).lcs = z.lcs := by
  unfold recorded
  simp only
  split <;> exact ⟨rfl, rfl⟩

theorem leafRecordAt_accepted {v : State} {l : Nat} {p : Canopy} (h4 : p.payload.length = 4) (hb : recBad (recOf p) = false)
    (hr : (leafOf v l).run ≠ .running) : leafRecordAt v l p = acceptPkt v l p (recorded v p) := by
  rw [leafRecordAt, if_neg (by simp [h4, hb]), if_neg hr]
  rfl

theorem leafRecordWritten (s : State) (p : Canopy) (l : Nat) (hrun : crownRuns s = true) (hfresh : freshFor s p l = true)
    (ha : hasArrived s 3 p = true) (h4 : p.payload.length = 4) (hb : recBad (recOf p) = false)
    (hr : (leafOf s l).run ≠ .running) :
    Completes (.leafRecord p) s (fun t =>
      CountsOnce p (countedBefore s p l) (leafOf s l).lcs (leafOf t l).lcs ∧ SameMem s t ∧ (leafOf t l).run = .notStarted
        ∧ (leafOf t l).image.record = some (recOf p) ∧ (leafOf t l).image.recId = p.image
        ∧ (leafOf t l).image.load = s.graft.grafts
        ∧ (leafOf t l).image.complete = false ∧ (leafOf t l).image.start = none) := by
  obtain ⟨v, hv, -, hgrafts, hmem, hleaf⟩ := broadcast_written s 3 p l hrun ha hfresh (by decide)
  obtain ⟨lcs, old, hacc, hcount⟩ := acceptPkt_leaf v l p (recorded v p)
  obtain ⟨hcounted, hlcs⟩ := recorded_counts v p (leafOf v l)
  rw [hcounted, hlcs, hv] at hcount
  have ht : leafOf (broadcast s 3 p) l = _ :=
    hleaf.trans ((congrArg (leafOf · l) (leafRecordAt_accepted h4 hb (by rw [hv, received_run]; exact hr))).trans hacc)
  refine ⟨_, rfl, ?_, hmem, ?_⟩
  · rw [ht]
    exact countsOnce_received hcount
  · rw [ht]
    exact ⟨rfl, rfl, rfl, hgrafts, rfl, rfl⟩

/-! ### Damaged packets and reserved fields (R310, R316) -/

/-- The packets of the canopy that write a leaf, with their kinds on the bus. -/
def LeafPacket (e : (Canopy → Instr) × BitVec 4) : Prop :=
  e ∈ ([(.spad, 0), (.istore, 1), (.switchNext, 2), (.leafRecord, 3)] : List ((Canopy → Instr) × BitVec 4))

theorem exec_leafPacket {e : (Canopy → Instr) × BitVec 4} (h : LeafPacket e) (p : Canopy) (s : State) :
    exec (e.1 p) s = .next (broadcast s e.2 p) ∧ e.2.toNat < 4 := by
  simp only [LeafPacket, List.mem_cons, List.not_mem_nil, or_false] at h
  rcases h with rfl | rfl | rfl | rfl
  · exact ⟨rfl, by decide⟩
  · exact ⟨rfl, by decide⟩
  · exact ⟨rfl, by decide⟩
  · exact ⟨rfl, by decide⟩

theorem damagedCounted (e : (Canopy → Instr) × BitVec 4) (he : LeafPacket e) (s : State) (p : Canopy) (l : Nat)
    (hrun : crownRuns s = true) (hok : leafOk s l = true) (hf : leafFenced s l = false) (ha : hasArrived s e.2 p = true)
    (hd : crcOk p = false ∨ p.hurt.contains l = true) :
    Completes (e.1 p) s (fun t =>
      mget 0 (leafOf t l).netCounters 7 = sat32 (mget 0 (leafOf s l).netCounters 7 + 1)
      ∧ (leafOf t l).landing = (leafOf s l).landing ∧ (leafOf t l).istore = (leafOf s l).istore
      ∧ (leafOf t l).sw = (leafOf s l).sw ∧ (leafOf t l).run = (leafOf s l).run ∧ (leafOf t l).lcs = (leafOf s l).lcs) := by
  obtain ⟨u, before, after⟩ := broadcast_at s e.2 p l hrun ha hok
  refine ⟨_, (exec_leafPacket he p s).1, ?_⟩
  dsimp only
  rw [after.same, leafPacket_damaged (by rw [leafFenced, before.boot]; exact hf) hd]
  rw [bumpNet, leafOf_modLeaf, leafOf_modLeaf, leafOf_modLeaf, before.same, adoptImage_rest]
  simp [setGot, mmod]

theorem reservedCounted (e : (Canopy → Instr) × BitVec 4) (he : LeafPacket e) (s : State) (p : Canopy) (l : Nat)
    (hrun : crownRuns s = true) (ha : hasArrived s e.2 p = true) (hfresh : freshFor s { p with rsv := false } l = true)
    (hr : p.rsv = true) :
    Completes (e.1 p) s (fun t =>
      mget 0 (leafOf t l).netCounters 8 = sat32 (mget 0 (leafOf s l).netCounters 8 + 1)
      ∧ mget false (leafOf t l).image.got p.seq.toNat = true
      ∧ (leafOf t l).landing = (leafOf s l).landing ∧ (leafOf t l).istore = (leafOf s l).istore
      ∧ (leafOf t l).sw = (leafOf s l).sw ∧ (leafOf t l).run = (leafOf s l).run ∧ (leafOf t l).lcs = (leafOf s l).lcs) := by
  obtain ⟨hok, -, htakes⟩ := takesPacket_of_freshFor hfresh
  have htakes' : TakesPacket s p l false := ⟨htakes.fence, htakes.crc, htakes.whole, htakes.fresh, htakes.target⟩
  obtain ⟨hexec, hk⟩ := exec_leafPacket he p s
  obtain ⟨u, before, -, hleaf⟩ := broadcast_taken s e.2 p l hrun ha hok htakes' hk
  refine ⟨_, hexec, ?_⟩
  dsimp only
  rw [hleaf, if_pos hr]
  simp [bumpNet, before.same, mmod]

/-! ### GROUP at the sync hub (R287, R288, R290) -/

theorem modLeaf_onlyLeaves {s t : State} (l : Nat) (f : Leaf → Leaf) (h : ∃ ls, t = { s with leaves := ls }) :
    ∃ ls, modLeaf t l f = { s with leaves := ls } := by
  obtain ⟨ls, rfl⟩ := h
  exact ⟨_, rfl⟩

/-- GROUP changes leaves alone on its way (R593). -/
theorem leafPacket_group (s : State) (p : Canopy) (l : Nat) : ∃ ls, leafPacket s 4 p false l = { s with leaves := ls } := by
  have h : ∃ ls, s = { s with leaves := ls } := ⟨s.leaves, rfl⟩
  unfold leafPacket
  simp only [show (4 : Nat) ≠ 5 by decide, decide_true, Bool.true_or, if_false, if_true]
  split
  · exact h
  have adopted := modLeaf_onlyLeaves l (fun x => adoptImage x p.image) h
  split
  · exact modLeaf_onlyLeaves l _ (modLeaf_onlyLeaves l _ adopted)
  split
  · exact adopted
  · exact modLeaf_onlyLeaves l _ adopted

theorem broadcast_group (s : State) (p : Canopy) : ∃ ls g, broadcast s 4 p = { s with leaves := ls, graft := g } := by
  unfold broadcast
  split
  · refine List.foldlRecOn (motive := fun t => ∃ (ls : SMap Leaf) (g : Graft), t = { s with leaves := ls, graft := g }) _ _
      ⟨s.leaves, _, rfl⟩ (fun t ht l _ => ?_)
    obtain ⟨ls, g, rfl⟩ := ht
    obtain ⟨ls', h⟩ := leafPacket_group { s with leaves := ls, graft := g } p l
    exact ⟨ls', g, h⟩
  · exact ⟨s.leaves, s.graft, rfl⟩

theorem groupOf_congr {s t : State} (h : t.hub = s.hub) (g : Nat) : groupOf t g = groupOf s g := by rw [groupOf, h, groupOf]

theorem stopGroup_result (s : State) (g detail l : Nat) :
    groupOf (stopGroup s g detail l) g = { groupOf s g with arm := false, goAt := none, stopped := true }
      ∧ Entered s (stopGroup s g detail l) 0x42 g detail l ∧ (stopGroup s g detail l).mem = s.mem := by
  unfold stopGroup
  refine ⟨?_, entered_congr (v := setGroup s g _) rfl rfl (entered_raise _ _ _ _ _), raise_mem _ _ _ _ _⟩
  rw [groupOf_congr (raise_hub _ _ _ _ _), groupOf_setGroup]

/-- The table entry as an arming GROUP writes it (R287). -/
def armedEntry (e : GroupE) (b : Nat) : GroupE :=
  { e with goGc := fld b 8 12, goVal := BitVec.ofNat 64 (fld b 64 64), members := fld b 36 12, arm := true, stopped := false }

theorem groupAtHub_result (s : State) (p : Canopy) (b : BitVec 256) (hrun : crownRuns s = true)
    (ha : hasArrived s 4 p = true) (hp : p.payload = [b]) (hc : crcOk p = true) (hh : p.hurt.contains 0xA00 = false) :
    let g := fld b.toNat 0 4
    let e := groupOf s g
    let m := fld b.toNat 36 12
    (groupBad p b.toNat = true → Completes (.groupPkt p) s (fun t =>
      Entered s t 0x42 g 3 0 ∧ t.hub.groups = s.hub.groups ∧ SameMem s t))
    ∧ (groupBad p b.toNat = false → bit b.toNat 4 = false → Completes (.groupPkt p) s (fun t =>
      groupOf t g = { e with arm := false } ∧ (∀ k, k ≠ g → groupOf t k = groupOf s k) ∧ SameMem s t))
    ∧ (groupBad p b.toNat = false → bit b.toNat 4 = true → e.ready ≤ m → Completes (.groupPkt p) s (fun t =>
      groupOf t g = { e with goGc := fld b.toNat 8 12, goVal := BitVec.ofNat 64 (fld b.toNat 64 64), members := m
                             arm := true, stopped := false }
      ∧ (∀ k, k ≠ g → groupOf t k = groupOf s k) ∧ SameMem s t))
    ∧ (groupBad p b.toNat = false → bit b.toNat 4 = true → m < e.ready → Completes (.groupPkt p) s (fun t =>
      (groupOf t g).arm = false ∧ (groupOf t g).stopped = true ∧ Entered s t 0x42 g 1 0 ∧ SameMem s t)) := by
  intro g e m
  obtain ⟨ls, gr, hb⟩ := broadcast_group s p
  generalize hu : ({ s with leaves := ls, graft := gr } : State) = u at hb
  have hlog : u.log = s.log := by rw [← hu]
  have hclk : u.clk = s.clk := by rw [← hu]
  have hhub : u.hub = s.hub := by rw [← hu]
  have hmem : u.mem = s.mem := by rw [← hu]
  have he : exec (.groupPkt p) s = .next (groupAtHub u p) := by
    show execGroupPkt p s = _
    rw [execGroupPkt, if_pos (by rw [hrun, ha]; rfl), hb]
  have hgroup : groupOf u g = e := groupOf_congr hhub g
  have hhead : (p.payload.headD 0).toNat = b.toNat := by rw [hp]; rfl
  have hat : groupAtHub u p = (if groupBad p b.toNat then raise u 0x42 g 3 0
      else if bit b.toNat 4 then
        (if e.ready > m then stopGroup (setGroup u g (armedEntry e b.toNat)) g 1 0 else setGroup u g (armedEntry e b.toNat))
      else setGroup u g { e with arm := false }) := by
    unfold groupAtHub
    simp only [hhead, hc, hh, Bool.not_true, Bool.or_self, Bool.false_eq_true, if_false]
    rw [← hgroup]
    rfl
  rw [hat] at he
  refine ⟨fun bad => ⟨_, he, ?_⟩, fun good off => ⟨_, he, ?_⟩, fun good on fits => ⟨_, he, ?_⟩,
    fun good on more => ⟨_, he, ?_⟩⟩
  · rw [if_pos bad]
    exact ⟨entered_congr hlog hclk (entered_raise _ _ _ _ _), by rw [raise_hub, hhub], fun a => by rw [raise_mem, hmem]⟩
  · rw [good, off]
    exact ⟨groupOf_setGroup _ _ _, fun k hk => (groupOf_setGroup_other _ _ _ _ hk).trans (groupOf_congr hhub k),
      fun a => congrArg (readByte · a) hmem⟩
  · rw [good, on, if_neg (by simp), if_pos rfl, if_neg (by omega)]
    exact ⟨groupOf_setGroup _ _ _, fun k hk => (groupOf_setGroup_other _ _ _ _ hk).trans (groupOf_congr hhub k),
      fun a => congrArg (readByte · a) hmem⟩
  · rw [good, on, if_neg (by simp), if_pos rfl, if_pos more]
    obtain ⟨hgrp, hent, hsame⟩ := stopGroup_result (setGroup u g (armedEntry e b.toNat)) g 1 0
    exact ⟨by rw [hgrp], by rw [hgrp], entered_congr (v := setGroup u g _) hlog hclk hent,
      fun a => congrArg (readByte · a) (hsame.trans hmem)⟩

end Sys2Proof.Machine
end

section
/-! PROOFS, O44: END, repair packets and the rounds of repair (R591 to R596), and the obligation. -/
namespace Sys2Proof.Machine

/-! ### END (R591 to R594) -/

/-- The digest reads the leaf and memory (R591). -/
theorem imageDigest_congr {s t : State} {l : Nat} (hl : leafOf t l = leafOf s l) (hm : t.mem = s.mem) (r : BitVec 1024) :
    imageDigest t l r = imageDigest s l r := by
  have hrow (row : Nat) : landedRow t l row = landedRow s l row := by
    simp only [landedRow, mread, hl, hm]
  simp only [imageDigest, hrow, hl]

/-- An END for a leaf that it targets is acted on, and counted where it asks for it. -/
theorem leafPacket_end {s : State} {p : Canopy} {l : Nat} (hf : leafFenced s l = false) (hc : crcOk p = true)
    (hh : p.hurt.contains l = false) (hb : endBad p = false) (ht : inTarget p l = true) :
    let v := modLeaf s l (fun x => adoptImage x p.image)
    leafPacket s 5 p false l = if p.cntEn then lcInc (endAt v l p) l p.cnt.toNat 1 else endAt v l p := by
  unfold leafPacket
  simp only [hf, hc, hh, hb, ht, Bool.false_eq_true, Bool.not_true, Bool.or_self, Bool.or_true, if_false, if_true]

theorem missingSeqs_none (x : Leaf) (last : Nat) (h : ∀ i, i ≤ last → mget false x.image.got i = true) :
    missingSeqs x last = [] := by
  refine List.filter_eq_nil_iff.mpr (fun i hi => ?_)
  have hi' : i ≤ last := Nat.lt_succ_iff.mp (List.mem_range.mp hi)
  simp [h i hi']

/-- The leaf takes part in the END's image and has received all of it, its digest agrees, and it has not completed under this
start condition before (R591, R594). -/
structure HoldsImage (s : State) (l : Nat) (p : Canopy) (b : BitVec 256) (r : BitVec 1024) : Prop where
  id : (leafOf s l).image.id = some p.image
  recId : (leafOf s l).image.recId = p.image
  record : (leafOf s l).image.record = some r
  fresh : (leafOf s l).image.complete = false ∨ (leafOf s l).image.start ≠ some (fld b.toNat 160 12, fld b.toNat 192 64)
  whole : ∀ i, i ≤ fld b.toNat 0 32 → mget false (leafOf s l).image.got i = true
  digest : imageDigest s l r = leBytes (r.toNat / 2 ^ 640) 48

/-- The leaf once it has completed, with the start condition of the END. -/
def completedLeaf (b : BitVec 256) (x : Leaf) : Leaf :=
  { x with image := { x.image with complete := true, start := some (fld b.toNat 160 12, fld b.toNat 192 64) } }

/-- The increment that tells a leaf's completion (R594). -/
def doneInc (b : BitVec 256) : IncMsg := { gc := fld b.toNat 160 12, amount := 1, acks := [] }

section
variable {s t : State} {l : Nat} {p : Canopy} {b : BitVec 256} {r : BitVec 1024}

theorem HoldsImage.congr (h : HoldsImage s l p b r) (hl : leafOf t l = leafOf s l) (hm : t.mem = s.mem) :
    HoldsImage t l p b r :=
  ⟨hl ▸ h.id, hl ▸ h.recId, hl ▸ h.record, hl ▸ h.fresh, hl ▸ h.whole, (imageDigest_congr hl hm r).trans h.digest⟩

/-- Such a leaf completes and sends its increment (R594). -/
theorem endAt_completes (hp : p.payload = [b]) (h : HoldsImage s l p b r) :
    endAt s l p = launch (noteComplete (setLeaf s l (completedLeaf b (leafOf s l))) l) (.inc (doneInc b)) := by
  have hhead : (p.payload.headD 0).toNat = b.toNat := by rw [hp]; rfl
  have hpart : takesPart (leafOf s l) = true := by simp [takesPart, h.record, h.id, h.recId]
  have hagain : ((leafOf s l).image.complete
      && decide ((leafOf s l).image.start = some (fld b.toNat 160 12, fld b.toNat 192 64))) = false := by
    rcases h.fresh with hn | hn
    · rw [hn, Bool.false_and]
    · rw [decide_eq_false hn, Bool.and_false]
  have hget : (leafOf s l).image.record.getD 0 = r := by rw [h.record]; rfl
  unfold endAt
  simp only [hhead, missingSeqs_none _ _ h.whole, hpart, hagain, hget, h.digest, ne_eq, not_true_eq_false, Bool.not_true,
    Bool.false_eq_true, if_false, if_true]
  rfl

@[simp] theorem leafOf_launchInc (s : State) (m : IncMsg) (k : Nat) : leafOf (launch s (.inc m)) k = leafOf s k := rfl

@[simp] theorem leafOf_noteComplete (s : State) (l k : Nat) : leafOf (noteComplete s l) k = leafOf s k := rfl

theorem endAt_completes_result (hp : p.payload = [b]) (h : HoldsImage s l p b r) :
    leafOf (endAt s l p) l = completedLeaf b (leafOf s l) ∧ NetMsg.inc (doneInc b) ∈ (endAt s l p).net.msgs := by
  rw [endAt_completes hp h]
  exact ⟨by simp, List.mem_append_right _ List.mem_cons_self⟩

/-- An END that has its packet counted leaves the leaf's image and the messages as END alone does. -/
theorem leafPacket_end_result (hf : leafFenced s l = false) (hc : crcOk p = true) (hh : p.hurt.contains l = false)
    (hb : endBad p = false) (ht : inTarget p l = true) (hp : p.payload = [b]) (h : HoldsImage s l p b r) :
    (leafOf (leafPacket s 5 p false l) l).image = (completedLeaf b (leafOf s l)).image
      ∧ NetMsg.inc (doneInc b) ∈ (leafPacket s 5 p false l).net.msgs := by
  have hpkt := leafPacket_end hf hc hh hb ht
  have hv : leafOf (modLeaf s l (fun x => adoptImage x p.image)) l = leafOf s l := by
    rw [leafOf_modLeaf]
    exact if_pos h.id
  have hm : (modLeaf s l (fun x => adoptImage x p.image)).mem = s.mem := modLeaf_mem s l _
  generalize modLeaf s l (fun x => adoptImage x p.image) = v at hpkt hv hm
  obtain ⟨hleaf, hmsg⟩ := endAt_completes_result hp (h.congr hv hm)
  rw [hpkt]
  split
  · have hat := (AtLeaf.refl l (endAt v l p)).lcInc p.cnt.toNat 1
    exact ⟨by rw [leafOf_lcInc, hleaf, hv], hat.msgs _ hmsg⟩
  · exact ⟨by rw [hleaf, hv], hmsg⟩

end

theorem exec_endPkt (p : Canopy) (s : State) : ∃ g, exec (.endPkt p) s = .next { broadcast s 5 p with graft := g } := by
  show ∃ g, execEndPkt p s = _
  unfold execEndPkt
  simp only
  split
  · split
    · exact ⟨_, rfl⟩
    · exact ⟨(broadcast s 5 p).graft, rfl⟩
  · exact ⟨(broadcast s 5 p).graft, rfl⟩

theorem endCompletesLeaf (s : State) (p : Canopy) (b : BitVec 256) (l : Nat) (r : BitVec 1024) (hrun : crownRuns s = true)
    (ha : hasArrived s 5 p = true) (hp : p.payload = [b]) (hok : leafOk s l = true) (hf : leafFenced s l = false)
    (hc : crcOk p = true) (hh : p.hurt.contains l = false) (hb : endBad p = false) (ht : inTarget p l = true)
    (hid : (leafOf s l).image.id = some p.image) (hrec : (leafOf s l).image.recId = p.image)
    (hr : (leafOf s l).image.record = some r)
    (hnew : (leafOf s l).image.complete = false ∨ (leafOf s l).image.start ≠ some (fld b.toNat 160 12, fld b.toNat 192 64))
    (hgot : ∀ i, i ≤ fld b.toNat 0 32 → mget false (leafOf s l).image.got i = true)
    (hd : imageDigest s l r = leBytes (r.toNat / 2 ^ 640) 48) :
    Completes (.endPkt p) s (fun t =>
      (leafOf t l).image.complete = true ∧ (leafOf t l).image.start = some (fld b.toNat 160 12, fld b.toNat 192 64)
      ∧ .inc { gc := fld b.toNat 160 12, amount := 1, acks := [] } ∈ t.net.msgs ∧ SameMem s t) := by
  obtain ⟨u, before, after⟩ := broadcast_at s 5 p l hrun ha hok
  obtain ⟨g, hexec⟩ := exec_endPkt p s
  have holds : HoldsImage u l p b r :=
    HoldsImage.congr (s := s) ⟨hid, hrec, hr, hnew, hgot, hd⟩ before.same before.mem
  rw [show (5 : BitVec 4).toNat = 5 from rfl] at after
  obtain ⟨himage, hmsg⟩ := leafPacket_end_result (by rw [leafFenced, before.boot]; exact hf) hc hh hb ht hp holds
  rw [← after.same] at himage
  have hmem := after.mem.trans ((atLeaf_leafPacket u 5 p false l).mem.trans before.mem)
  exact ⟨_, hexec, congrArg Image.complete himage, congrArg Image.start himage, after.msgs _ hmsg,
    fun a => congrArg (readByte · a) hmem⟩

/-! ### Repair packets and rounds (R595, R596) -/

theorem repairWritten (s : State) (p : Canopy) (l : Nat) (hrun : crownRuns s = true) (hok : leafOk s l = true)
    (hf : leafFenced s l = false) (hc : crcOk p = true) (hh : p.hurt.contains l = false) (hr : p.rsv = false)
    (hstop : (leafOf s l).run ≠ .running)
    (hnew : (leafOf s l).image.id = some p.image → mget false (leafOf s l).image.got p.seq.toNat = false)
    (hfit : p.offset.toNat + 8 * p.payload.length ≤ 4096) :
    Completes (.canopyRepairPacket l 1 p) s (fun t =>
      (∀ k, mget 0 (leafOf t l).istore k = if p.offset.toNat ≤ k ∧ k < p.offset.toNat + 8 * p.payload.length
          then (payWords p).getD (k - p.offset.toNat) 0 else mget 0 (leafOf s l).istore k)
      ∧ SameMem s t ∧ ∀ k, k ≠ l → leafOf t k = leafOf s k) := by
  generalize hu : takeBus s (some l) 1 p = u
  have hul (k : Nat) : leafOf u k = leafOf s k := by rw [← hu]; rfl
  have hum : u.mem = s.mem := by rw [← hu]; rfl
  have htakes : TakesPacket u p l true := ⟨by rw [← hu]; exact hf, hc, hh, by rw [hul]; exact hnew, rfl⟩
  have he : exec (.canopyRepairPacket l 1 p) s = .next (leafPacket u 1 p true l) := by
    show execCanopyRepairPacket l 1 p s = _
    rw [execCanopyRepairPacket, if_pos (by rw [hrun, hok]; rfl), hu]
    rfl
  have hat := atLeaf_leafPacket u 1 p true l
  have hpkt : leafPacket u 1 p true l = istoreAt (noted u l p) l p := by
    rw [leafPacket_new htakes 1 (by decide), hr]
    rfl
  obtain ⟨hwords, -⟩ := istoreAt_leaf (v := noted u l p) (l := l) hfit (by rw [leafOf_noted, received_run, hul]; exact hstop)
  rw [leafOf_noted, received_istore, hul] at hwords
  refine ⟨_, he, ?_, fun a => ?_, fun k hk => ?_⟩
  · rw [hpkt]
    exact hwords
  · rw [hat.mem, hum]
  · rw [hat.others k hk, hul]

theorem mem_stopGroup (s : State) (g detail l : Nat) : (stopGroup s g detail l).mem = s.mem := raise_mem _ _ _ _ _

theorem mem_faultCore (s : State) (l code fpc addr : Nat) : (faultCore s l code fpc addr).mem = s.mem := by
  unfold faultCore
  simp only
  split
  · rw [mem_stopGroup, raise_mem, setLeaf_mem]
  · rw [raise_mem, setLeaf_mem]

theorem mem_fenceLeaf (s : State) (l : Nat) : (fenceLeaf s l).mem = s.mem := by
  unfold fenceLeaf
  simp only
  split
  · rfl
  · refine List.foldlRecOn (motive := fun (t : State) => t.mem = s.mem) _ _ ?_ (fun t ht g _ => (mem_stopGroup t g 2 l).trans ht)
    split
    · rfl
    · exact mem_faultCore _ _ _ _ _

theorem mem_fenceLeaves (s : State) (ls : List Nat) : (fenceLeaves s ls).mem = s.mem := by
  have hfences : (ls.foldl fenceLeaf s).mem = s.mem :=
    List.foldlRecOn (motive := fun (t : State) => t.mem = s.mem) ls _ rfl (fun t ht l _ => (mem_fenceLeaf t l).trans ht)
  unfold fenceLeaves haltMembers
  refine List.foldlRecOn (motive := fun (t : State) => t.mem = s.mem) _ _ hfences (fun t ht q _ => ?_)
  split
  · exact ht
  · exact ht

/-- A failed unit leaves memory as it was: its fences and its defect entry are no memory. -/
theorem mem_failUnit (s : State) (x : Site) : (failUnit s x).mem = s.mem := by
  have hdefect (t : State) (ht : t.mem = s.mem) : (addDefect (raise t 0x0B (x.position.toNat % 65536) x.kind.toNat 0) x).mem
      = s.mem := by
    obtain ⟨-, -, hmem, -⟩ := (defectsAdded_addDefect (raise t 0x0B (x.position.toNat % 65536) x.kind.toNat 0) x).frame
    rw [hmem, raise_mem, ht]
  unfold failUnit
  refine hdefect _ ?_
  split
  · exact mem_fenceLeaves _ _
  · exact mem_fenceLeaves _ _
  · exact mem_fenceLeaves _ _
  · rfl
  · rfl
  · rfl

theorem mem_failLeaf (g : GraftLoad) (s : State) (l : Nat) : (failLeaf g s l).mem = s.mem := by
  unfold failLeaf
  simp only
  split
  · rfl
  · exact mem_failUnit _ _

/-- A leaf of a failed load's image has no start condition any more (R596). -/
def unstarted (g : GraftLoad) (x : Leaf) : Leaf :=
  if x.image.recId = g.image then { x with image := { x.image with start := none } } else x

theorem leafOf_failLoad (s : State) (g : GraftLoad) (l : Nat) : leafOf (failLoad s g) l = unstarted g (leafOf s l) := by
  have hempty : unstarted g {} = {} := by
    unfold unstarted
    split <;> rfl
  exact mget_mmap {} s.leaves (fun _ x => unstarted g x) l hempty

/-- A failed load sends nothing more, and none of its leaves starts (R596). -/
theorem failLoad_result (s : State) (g : GraftLoad) : (failLoad s g).graft.load = some { g with failed := true }
    ∧ (failLoad s g).graft.bus = [] ∧ (failLoad s g).mem = s.mem
    ∧ ∀ l, (leafOf (failLoad s g) l).image.recId = g.image → (leafOf (failLoad s g) l).image.start = none := by
  refine ⟨rfl, rfl, rfl, fun l => ?_⟩
  rw [leafOf_failLoad, unstarted]
  split
  · exact fun _ => rfl
  next h => exact fun e => absurd e h

theorem repairRoundResult (s : State) (g : GraftLoad) (hg : s.graft.load = some g) (hfail : g.failed = false)
    (hall : allComplete s g = false) (hrun : crownRuns s = true) :
    let failed (t : State) : Prop := t.graft.load = some { g with failed := true } ∧ t.graft.bus = [] ∧ SameMem s t
      ∧ ∀ l, (leafOf t l).image.recId = g.image → (leafOf t l).image.start = none
    (g.targets.length < 100 * g.mismatch.length → Completes .repairRound s (fun t =>
      failed t ∧ t.boot = s.boot ∧ t.mram = s.mram ∧ t.log = s.log))
    ∧ (100 * g.mismatch.length ≤ g.targets.length → g.endAt + 200 ≤ s.clk.us → s.graft.bus = [] →
      (g.round < 3 → Completes .repairRound s (fun t =>
        t = { s with graft := { s.graft with
          bus := onBus s.clk.cclk (repairs s g)
          load := some { g with round := g.round + 1, endAt := s.clk.us, reports := [], answered := [], mismatch := [] } } }))
      ∧ (3 ≤ g.round → Completes .repairRound s failed)) := by
  have hgo : (g.failed || allComplete s g || !crownRuns s) = false := by rw [hfail, hall, hrun]; rfl
  intro failed
  refine ⟨fun hmany => ?_, fun hfew hwait hbus => ?_⟩
  · have he : exec .repairRound s = .next (failLoad s g) := by
      show execRepairRound s = _
      unfold execRepairRound
      simp only [hg, hgo, overPercent, hmany, decide_true, Bool.false_eq_true, if_false, if_true]
    obtain ⟨hload, hbus, hmem, hstart⟩ := failLoad_result s g
    exact ⟨_, he, ⟨hload, hbus, fun a => by rw [hmem], hstart⟩, rfl, rfl, rfl⟩
  have he : exec .repairRound s = .next (if g.round ≥ 3 then failLoad (g.targets.foldl (failLeaf g) s) g
      else { s with graft := { s.graft with
        bus := onBus s.clk.cclk (repairs s g)
        load := some { g with round := g.round + 1, endAt := s.clk.us, reports := [], answered := [], mismatch := [] } } }) := by
    have hover : overPercent g.mismatch.length g = false := decide_eq_false (by omega)
    have hnow : (decide (s.clk.us < g.endAt + 200) || decide (s.graft.bus ≠ [])) = false := by simp [hwait, hbus]
    show execRepairRound s = _
    unfold execRepairRound
    simp only [hg, hgo, hover, hnow, Bool.false_eq_true, if_false]
  refine ⟨fun hround => ⟨_, he, if_neg (by omega)⟩, fun hround => ⟨_, he, ?_⟩⟩
  rw [if_pos hround]
  obtain ⟨hload, hbus, hmem, hstart⟩ := failLoad_result (g.targets.foldl (failLeaf g) s) g
  have hfold : (g.targets.foldl (failLeaf g) s).mem = s.mem :=
    List.foldlRecOn (motive := fun (t : State) => t.mem = s.mem) _ _ rfl (fun t ht l _ => (mem_failLeaf g t l).trans ht)
  exact ⟨hload, hbus, fun a => by rw [hmem, hfold], hstart⟩

/-- Settles O44: a broadcast meets each leaf of the shape once, so what a packet leaves at one leaf is what it writes there;
GROUP, the repair packet and the repair round are evaluated case by case. -/
theorem canopyPackets : Obligations.CanopyPackets :=
  ⟨fun s p l hrun hfresh => ⟨fun ha heven hfit hwin => spadWritten s p l hrun hfresh ha heven hfit hwin,
      fun ha hfit hr => istoreWritten s p l hrun hfresh ha hfit hr,
      fun ha hfit hf => switchNextWritten s p l hrun hfresh ha hfit hf,
      fun ha h4 hb hr => leafRecordWritten s p l hrun hfresh ha h4 hb hr⟩,
    damagedCounted, reservedCounted, groupAtHub_result, endCompletesLeaf, repairWritten, repairRoundResult⟩

end Sys2Proof.Machine
end
